-- ==== Sys2Proof/Word.lean ====
section
/-! DEFINITION. The word types of the machine and their plainest arithmetic (00_scope "Numbers, bits and time": bytes are
little-endian, bit 0 is the least significant bit). -/

namespace Sys2Proof

/-- One byte. -/
abbrev Byte := BitVec 8

/-- A halfword: the unit of instruction encoding (R38). -/
abbrev Half := BitVec 16

/-- A doubleword: the width of a general register (R19). -/
abbrev DW := BitVec 64

/-- A 56-bit address (R19, R80). -/
abbrev Addr := BitVec 56

/-- A vector register's 512 bits (R20). -/
abbrev VReg := BitVec 512

/-- A key of a hardware place: a slot, core, cluster, group or die number, each in its own numbering. -/
abbrev Key := Nat

end Sys2Proof
end

