-- ==== Sys2Proof/Syntax.lean ====
section
/-! DEFINITION. The syntax of every step of the machine: one constructor of `Instr` per row of spec/opcode_table.json.
Rows with an encoding are instructions (03_encoding R38 to R54); rows without one are the hardware's own indivisible steps
(95_what_each_step_holds.md). -/

namespace Sys2Proof

/-- What a SRC halfword gives an instruction (R43, R48): predicate register, inversion, and the trap-if-empty bits of s, t
and d. It is read beside the instruction, not in it. -/
structure Quals where
  pred : BitVec 5
  inv : Bool
  ts : Bool
  tt : Bool
  td : Bool
deriving DecidableEq, Repr

/-- No SRC halfword: the instruction executes unconditionally (R48). -/
def Quals.plain : Quals := ⟨0, false, false, false, false⟩

/-- The third source (R46): a register, or an immediate already widened to 20 bits as the instruction's description says
(sign-extended, or zero-extended); an absent third source is the immediate 0. -/
inductive Third where
  | reg (r : BitVec 6)
  | imm (v : BitVec 20)
deriving DecidableEq, Repr

/-- The operands of an F2 instruction (R38, R46, R47). A field the instruction does not use is 0. -/
structure Op where
  d : BitVec 6
  s : BitVec 6
  t : Third
  scale : BitVec 2
  rnd : BitVec 3
  et : BitVec 3
deriving DecidableEq, Repr

/-- The operands of an FI instruction (R38, R45): the immediate is assembled to 25 bits, widened as the instruction says. -/
structure OpI where
  d : BitVec 6
  imm : BitVec 25
deriving DecidableEq, Repr

/-- The operands of an instruction followed by a parameter block of four words (R39, R53). -/
structure OpP where
  o : Op
  w0 : BitVec 32
  w1 : BitVec 32
  w2 : BitVec 32
  w3 : BitVec 32
deriving DecidableEq, Repr

/-- A fault report on its way to a level (R376): the handle of the level it is tried at next, or Plynvas when past the job. -/
structure Report where
  part : Nat
  handle : BitVec 32
  cause : Byte
deriving DecidableEq, Repr

/-- A service request (R397): port, connection, the first doubleword, and its body. -/
structure SvcReq where
  port : Nat
  conn : Nat
  hdr : DW
  body : List Byte
deriving DecidableEq, Repr

/-- A seed (R243, R259): the core it names and the context it starts. -/
structure Seed where
  core : Nat
  idx : DW
  arg : DW
  entry : Addr
  launch : BitVec 32
  graph : BitVec 32
  part : Nat
deriving DecidableEq, Repr

/-- A Carder (R11, R282): its die, level 0 cluster, 1 group, 2 quadrant, 3 die, and its number within the die. -/
structure CarderId where
  die : Nat
  level : Nat
  num : Nat
deriving DecidableEq, Repr

/-- A port of a connector (R275, R298): die and record of the connector, and port index. -/
structure PortId where
  die : Nat
  con : Nat
  port : Nat
deriving DecidableEq, Repr

/-- A buffered link of a connector (R283, R293). -/
structure BufId where
  die : Nat
  con : Nat
  buf : Nat
deriving DecidableEq, Repr

/-- A rotor frame (R149). -/
structure Frame where
  pkg : Nat
  dpkg : Nat
  part : Nat
  queue : Nat
  seq : BitVec 32
  idx : Nat
  cnt : Nat
  dst : Addr
  rcw : Addr
  credit : Nat
  data : List Byte
  relayed : Bool
deriving DecidableEq, Repr

/-- What an acknowledgement says of one frame (R154, R157): accepted, refused for GRANT, refused for SWAP, or a destination
word that could not be written (R392); or that a whole message is complete at the receiver (R155). -/
inductive AckKind where
  | complete
  | ok
  | grant
  | swap
  | memerr
deriving DecidableEq, Repr

/-- One acknowledgement of an ack frame (R149): the sender package of the frame it names, and the frame. -/
structure Ack where
  pkg : Nat
  queue : Nat
  seq : BitVec 32
  idx : Nat
  kind : AckKind
deriving DecidableEq, Repr

/-- An ack frame (R149): the sender package, its relay credit, and up to 64 acknowledgements. -/
structure AckFrame where
  pkg : Nat
  credit : Nat
  acks : List Ack
deriving DecidableEq, Repr

/-- A unit that counts its own faults (R388, R390). -/
inductive HwUnit where
  | core (k : Key)
  | plank (g : Key)
  | row (ch row : Nat)
  | channel (ch : Nat)
  | lane (link lane : Nat)
deriving DecidableEq, Repr

/-- An incoming RMA write (R396). -/
structure EthWrite where
  port : Nat
  conn : Nat
  queue : Nat
  addr : Addr
  data : List Byte
  cw : Addr
deriving DecidableEq, Repr

/-- An incoming send (R398, R399). -/
structure EthSend where
  port : Nat
  conn : Nat
  queue : Nat
  data : List Byte
deriving DecidableEq, Repr

/-- The end of an Ethernet operation the module started (R398): status as the peer and the transport decided it, and the
data an RMA read brought. -/
structure EthEnd where
  queue : Nat
  op : Nat
  status : Byte
  data : List Byte
deriving DecidableEq, Repr

/-- An incoming RMA read (R395). -/
structure EthRead where
  port : Nat
  conn : Nat
  queue : Nat
  addr : Addr
  len : Nat
deriving DecidableEq, Repr

/-- A connection setup (R395): the delivery mode asked for (0 RUD, 1 ROD, 2 RUDI, 3 UUD), whether credit-based link flow
control is asked for, the traffic classes with priority flow control, the congestion control (0 NSCC, 1 RCCC), whether packets are
sprayed, the transport security (0 none, 1 AES-256-GCM), and the partition Plynvas sets it up for. -/
structure ConnReq where
  port : Nat
  conn : Nat
  mode : Nat
  creditFlow : Bool
  pfcClasses : Nat
  congestion : Nat
  spraying : Bool
  security : Nat
  part : Nat
deriving DecidableEq, Repr

/-- The operands of an event: the place it acts on, and what the environment decides. Which form an event takes stands
with its meaning. -/
inductive Arg where
  | none
  | n1 (a : Nat)
  | n2 (a b : Nat)
  | n3 (a b c : Nat)
  | addr (k : Key) (va : Addr) (w : Bool)
  | val (a b : Nat) (v : DW)
  | wake (k : Key) (id : Nat) (v : Option DW)
  | report (r : Report)
  | svc (r : SvcReq)
  | seed (k : Key) (sd : Seed)
  | keys (ks : List Key)
  | carder (c : CarderId)
  | port (p : PortId)
  | buf (b : BufId)
  | wm (c : Key) (b : Nat) (w : BitVec 48) (idle : Bool)
  | frame (p : Nat) (f : Frame)
  | ack (p : Nat) (a : AckFrame)
  | unit (u : HwUnit)
  | fault (u : HwUnit) (words : List Nat)
  | ethWrite (w : EthWrite)
  | ethSend (x : EthSend)
  | ethEnd (x : EthEnd)
  | ethRead (x : EthRead)
  | conn (x : ConnReq)
deriving DecidableEq, Repr

/-- One step of the machine: one constructor per row of spec/opcode_table.json. The instructions with operands come first,
then those without, then the hardware's own steps; an event's operands stand in the state beside it (`State.arg`). -/
inductive Instr where
  /-- ADD: gd := gs + T. (R62) -/
  | add (o : Op)
  /-- SUB: gd := gs - T. (R62) -/
  | sub (o : Op)
  /-- ADDI: gd := gd + imm. (R62) -/
  | addi (o : OpI)
  /-- AND: gd := gs and T. (R62) -/
  | and (o : Op)
  /-- OR: gd := gs or T. (R62) -/
  | or (o : Op)
  /-- XOR: gd := gs xor T. (R62) -/
  | xor (o : Op)
  /-- ANDN: gd := gs and not T. (R62) -/
  | andn (o : Op)
  /-- SHL: gd := gs shifted left by T[5:0]. (R62) -/
  | shl (o : Op)
  /-- SHR: gd := gs shifted right logically by T[5:0]. (R62) -/
  | shr (o : Op)
  /-- SAR: gd := gs shifted right arithmetically by T[5:0]. (R62) -/
  | sar (o : Op)
  /-- SHLI: gd := gd shifted left by imm[5:0]. (R62) -/
  | shli (o : OpI)
  /-- SHRI: gd := gd shifted right logically by imm[5:0]. (R62) -/
  | shri (o : OpI)
  /-- SARI: gd := gd shifted right arithmetically by imm[5:0]. (R62) -/
  | sari (o : OpI)
  /-- MOV: gd := gs. (R62) -/
  | mov (o : Op)
  /-- LI: gd := the sign-extended immediate. (R62) -/
  | li (o : OpI)
  /-- LEA: gd := gs + (T << scale) with no memory access. (R62) -/
  | lea (o : Op)
  /-- CMPEQ: pd := (gs = T). (R65) -/
  | cmpeq (o : Op)
  /-- CMPNE: pd := (gs != T). (R65) -/
  | cmpne (o : Op)
  /-- CMPLT: pd := gs < T, signed. (R65) -/
  | cmplt (o : Op)
  /-- CMPLTU: pd := gs < T, unsigned. (R65) -/
  | cmpltu (o : Op)
  /-- CMPGE: pd := gs >= T, signed. (R65) -/
  | cmpge (o : Op)
  /-- CMPGEU: pd := gs >= T, unsigned. (R65) -/
  | cmpgeu (o : Op)
  /-- SEL: gd := the SRC predicate ? gs : T, never predicated off. (R66) -/
  | sel (o : Op)
  /-- LDB: Loads a sign-extended byte. (R116) -/
  | ldb (o : Op)
  /-- LDBU: Loads a zero-extended byte. (R116) -/
  | ldbu (o : Op)
  /-- LDH: Loads a sign-extended halfword. (R116) -/
  | ldh (o : Op)
  /-- LDHU: Loads a zero-extended halfword. (R116) -/
  | ldhu (o : Op)
  /-- LDW: Loads a sign-extended word. (R116) -/
  | ldw (o : Op)
  /-- LDWU: Loads a zero-extended word. (R116) -/
  | ldwu (o : Op)
  /-- LDD: Loads a doubleword. (R116) -/
  | ldd (o : Op)
  /-- STB: Stores a byte through the store buffer. (R117) -/
  | stb (o : Op)
  /-- STH: Stores a halfword through the store buffer. (R117) -/
  | sth (o : Op)
  /-- STW: Stores a word through the store buffer. (R117) -/
  | stw (o : Op)
  /-- STD: Stores a doubleword through the store buffer. (R117) -/
  | std (o : Op)
  /-- BR: Branches PC-relative. (R68) -/
  | br (o : OpI)
  /-- BRP: Branches if the predicate is true. (R68) -/
  | brp (o : OpI)
  /-- BRN: Branches if the predicate is false. (R68) -/
  | brn (o : OpI)
  /-- JMP: Jumps to the register target. (R68) -/
  | jmp (o : Op)
  /-- CALL: Writes the return address to g23 and branches PC-relative. (R68) -/
  | call (o : OpI)
  /-- CALLR: Writes the return address to g23 and jumps to the register target. (R68) -/
  | callr (o : Op)
  /-- LOOP: Decrements gd and branches while it is nonzero. (R69) -/
  | loop (o : OpI)
  /-- MOVS: Copies a special register into gd. (R70) -/
  | movs (o : OpI)
  /-- MOVSW: Writes gd into a special register field by field under its access codes. (R70) -/
  | movsw (o : OpI)
  /-- PAND: pd := ps and pt. (R67) -/
  | pand (o : Op)
  /-- POR: pd := ps or pt. (R67) -/
  | por (o : Op)
  /-- PXOR: pd := ps xor pt. (R67) -/
  | pxor (o : Op)
  /-- PNOT: pd := not ps. (R67) -/
  | pnot (o : Op)
  /-- PMOVG: gd := a predicate, or the whole predicate word. (R67) -/
  | pmovg (o : Op)
  /-- PMOVP: pd := (gs != 0), or the predicate word from gs. (R67) -/
  | pmovp (o : Op)
  /-- MUL: gd := low 64 bits of gs × T. (R63) -/
  | mul (o : Op)
  /-- MULH: gd := high 64 bits of the signed product. (R63) -/
  | mulh (o : Op)
  /-- MULHU: gd := high 64 bits of the unsigned product. (R63) -/
  | mulhu (o : Op)
  /-- DIV: gd := signed quotient, without traps. (R63) -/
  | div (o : Op)
  /-- DIVU: gd := unsigned quotient. (R63) -/
  | divu (o : Op)
  /-- REM: gd := signed remainder. (R63) -/
  | rem (o : Op)
  /-- REMU: gd := unsigned remainder. (R63) -/
  | remu (o : Op)
  /-- MIN: gd := signed minimum. (R64) -/
  | min (o : Op)
  /-- MAX: gd := signed maximum. (R64) -/
  | max (o : Op)
  /-- MINU: gd := unsigned minimum. (R64) -/
  | minu (o : Op)
  /-- MAXU: gd := unsigned maximum. (R64) -/
  | maxu (o : Op)
  /-- CLZ: gd := count of leading zero bits. (R64) -/
  | clz (o : Op)
  /-- CTZ: gd := count of trailing zero bits. (R64) -/
  | ctz (o : Op)
  /-- POPC: gd := count of one bits. (R64) -/
  | popc (o : Op)
  /-- BREV: gd := gs with its bits reversed. (R64) -/
  | brev (o : Op)
  /-- BSWAP: gd := gs with its bytes reversed. (R64) -/
  | bswap (o : Op)
  /-- ROL: Rotates gs left by T[5:0]. (R64) -/
  | rol (o : Op)
  /-- ROR: Rotates gs right by T[5:0]. (R64) -/
  | ror (o : Op)
  /-- EXT: Extracts an unsigned bit field of gs. (R64) -/
  | ext (o : Op)
  /-- INS: Inserts a bit field of gs into gd. (R64) -/
  | ins (o : Op)
  /-- SXB: Sign-extends the low byte. (R64) -/
  | sxb (o : Op)
  /-- SXH: Sign-extends the low halfword. (R64) -/
  | sxh (o : Op)
  /-- SXW: Sign-extends the low word. (R64) -/
  | sxw (o : Op)
  /-- ZXB: Zero-extends the low byte. (R64) -/
  | zxb (o : Op)
  /-- ZXH: Zero-extends the low halfword. (R64) -/
  | zxh (o : Op)
  /-- ZXW: Zero-extends the low word. (R64) -/
  | zxw (o : Op)
  /-- FADD: gd := ROUND(gs + gt). (R73) -/
  | fadd (o : Op)
  /-- FSUB: gd := ROUND(gs - gt). (R73) -/
  | fsub (o : Op)
  /-- FMUL: gd := ROUND(gs × gt). (R73) -/
  | fmul (o : Op)
  /-- FMA: gd := ROUND(gs × gt + gd) with one rounding. (R73) -/
  | fma (o : Op)
  /-- FDIV: gd := ROUND(gs / gt) on the core's divider. (R73) -/
  | fdiv (o : Op)
  /-- FSQRT: gd := ROUND of the square root of gs. (R73) -/
  | fsqrt (o : Op)
  /-- FMIN: gd := IEEE minimumNumber of the operands. (R74) -/
  | fmin (o : Op)
  /-- FMAX: gd := IEEE maximumNumber of the operands. (R74) -/
  | fmax (o : Op)
  /-- FCMPEQ: pd := floating-point equality. (R74) -/
  | fcmpeq (o : Op)
  /-- FCMPLT: pd := floating-point less-than. (R74) -/
  | fcmplt (o : Op)
  /-- FCMPLE: pd := floating-point less-or-equal. (R74) -/
  | fcmple (o : Op)
  /-- FCVT: Converts gs between the integer and floating-point formats named by its IMM chain. (R75) -/
  | fcvt (o : Op)
  /-- FCLASS: gd := one-hot class of the floating-point value. (R76) -/
  | fclass (o : Op)
  /-- LDFE: Waits at home until the word is full, reads it and sets it empty. (R119) -/
  | ldfe (o : Op)
  /-- LDFF: Waits at home until the word is full and reads it. (R119) -/
  | ldff (o : Op)
  /-- STEF: Waits at home until the word is empty, writes it and sets it full. (R119) -/
  | stef (o : Op)
  /-- STFF: Waits at home until the word is full and writes it. (R119) -/
  | stff (o : Op)
  /-- SETE: Sets a word's full/empty bit empty at its home as a release. (R122) -/
  | sete (o : Op)
  /-- PROBE: pd := the word's full/empty bit at its home. (R122) -/
  | probe (o : Op)
  /-- LDA: Acquire load of a doubleword. (R123) -/
  | lda (o : Op)
  /-- STRL: Release store of a doubleword once its scope's conditions hold. (R123) -/
  | strl (o : Op)
  /-- STP: Posted store through the core journal, bypassing the store buffer. (R124) -/
  | stp (o : Op)
  /-- LDM: Loads consecutive registers from consecutive doublewords, resumable at THS.PROG. (R125) -/
  | ldm (o : Op)
  /-- STM: Stores consecutive registers to consecutive doublewords, resumable at THS.PROG. (R125) -/
  | stm (o : Op)
  /-- AADD: Atomic add at the home, returning the old value. (R127) -/
  | aadd (o : Op)
  /-- AAND: Atomic and at the home, returning the old value. (R127) -/
  | aand (o : Op)
  /-- AOR: Atomic or at the home, returning the old value. (R127) -/
  | aor (o : Op)
  /-- AXOR: Atomic xor at the home, returning the old value. (R127) -/
  | axor (o : Op)
  /-- AMIN: Atomic signed minimum at the home. (R127) -/
  | amin (o : Op)
  /-- AMAX: Atomic signed maximum at the home. (R127) -/
  | amax (o : Op)
  /-- AMINU: Atomic unsigned minimum at the home. (R127) -/
  | aminu (o : Op)
  /-- AMAXU: Atomic unsigned maximum at the home. (R127) -/
  | amaxu (o : Op)
  /-- ASWAP: Atomic swap at the home. (R127) -/
  | aswap (o : Op)
  /-- ACAS: Atomic compare-and-swap at the home. (R127) -/
  | acas (o : Op)
  /-- FENCE: Holds the thread until its scope's release conditions hold. (R129) -/
  | fence (o : Op)
  /-- WATCH: Arms the thread's watch on a doubleword with a relation and comparand. (R130) -/
  | watch (o : Op)
  /-- WAIT: Takes the watch's wake value, parks for it, or traps on refusal or no watch. (R132) -/
  | wait (o : Op)
  /-- CPY: Copies and converts elements between banks and DRAM on the copy engine. (R134) -/
  | cpy (o : Op)
  /-- CPYT: Copies a strided tile on the copy engine. (R135) -/
  | cpyt (o : OpP)
  /-- CPYW: Fills doublewords with a value and sets them full. (R136) -/
  | cpyw (o : Op)
  /-- CPYC: Fills doublewords with a value and sets them empty. (R136) -/
  | cpyc (o : Op)
  /-- UIEN: Sets THS.UIE from gs[0]. (R138) -/
  | uien (o : Op)
  /-- VLD: Loads 64 aligned bytes into a vector register. (R193) -/
  | vld (o : Op)
  /-- VST: Stores a vector register to 64 aligned bytes. (R193) -/
  | vst (o : Op)
  /-- VLDS: Strided load of vector lanes. (R194) -/
  | vlds (o : Op)
  /-- VSTS: Strided store of vector lanes. (R194) -/
  | vsts (o : Op)
  /-- VGATH: Gathers lanes from base plus vector offsets. (R194) -/
  | vgath (o : Op)
  /-- VSCAT: Scatters lanes to base plus vector offsets. (R194) -/
  | vscat (o : Op)
  /-- VADD: Lanewise addition. (R196) -/
  | vadd (o : Op)
  /-- VSUB: Lanewise subtraction. (R196) -/
  | vsub (o : Op)
  /-- VMUL: Lanewise multiplication. (R196) -/
  | vmul (o : Op)
  /-- VFMA: Lanewise fused multiply-add into vd. (R196) -/
  | vfma (o : Op)
  /-- VMIN: Lanewise minimum. (R196) -/
  | vmin (o : Op)
  /-- VMAX: Lanewise maximum. (R196) -/
  | vmax (o : Op)
  /-- VABS: Lanewise absolute value. (R196) -/
  | vabs (o : Op)
  /-- VNEG: Lanewise negation. (R196) -/
  | vneg (o : Op)
  /-- VAND: Bitwise and of two vectors. (R198) -/
  | vand (o : Op)
  /-- VOR: Bitwise or of two vectors. (R198) -/
  | vor (o : Op)
  /-- VXOR: Bitwise xor of two vectors. (R198) -/
  | vxor (o : Op)
  /-- VSHL: Lanewise left shift. (R197) -/
  | vshl (o : Op)
  /-- VSHR: Lanewise arithmetic right shift. (R197) -/
  | vshr (o : Op)
  /-- VCMP: Compares lanes into a mask in a g register. (R199) -/
  | vcmp (o : Op)
  /-- VSEL: Selects lanes of vs into vd under a mask. (R200) -/
  | vsel (o : Op)
  /-- VRSUM: Reduces lanes to a sum by a fixed pairwise tree. (R201) -/
  | vrsum (o : Op)
  /-- VRMAX: Reduces lanes to their maximum. (R201) -/
  | vrmax (o : Op)
  /-- VRMIN: Reduces lanes to their minimum. (R201) -/
  | vrmin (o : Op)
  /-- VCVT: Converts lanes between formats, batts included, by an immediate. (R204) -/
  | vcvt (o : Op)
  /-- VBCAST: Broadcasts gs into every lane. (R202) -/
  | vbcast (o : Op)
  /-- VPERM: Permutes lanes by an index vector. (R202) -/
  | vperm (o : Op)
  /-- VEXT: Extracts lane T into gd. (R202) -/
  | vext (o : Op)
  /-- VINS: Inserts gs into lane T of vd. (R202) -/
  | vins (o : Op)
  /-- VDIV: Lanewise division on the core divider. (R196) -/
  | vdiv (o : Op)
  /-- VSQRT: Lanewise square root. (R196) -/
  | vsqrt (o : Op)
  /-- VDOTA: Adds the exact lane products into an ACC object at its home. (R205) -/
  | vdota (o : Op)
  /-- MLEASE: Requests the group's Plank lease, owing gd the grant cycle. (R225) -/
  | mlease (o : Op)
  /-- MLDW: Copies bytes from a formatted bank into the weight buffer. (R226) -/
  | mldw (o : OpP)
  /-- MMUL: Multiplies an A tile by B into the accumulators at the dense rate. (R227) -/
  | mmul (o : OpP)
  /-- MMULS: Multiplies an A tile by B, skipping zero products in the cycle rule. (R227) -/
  | mmuls (o : OpP)
  /-- MDRAIN: Writes a tile of accumulators to memory as ACC objects or rounded elements. (R228) -/
  | mdrain (o : OpP)
  /-- MSTAT_STATUS: MSTAT selector 0 returns the lease and queue status word. (R230) -/
  | mstatStatus (o : Op)
  /-- MSTAT_GOVERNOR: MSTAT selector 1 returns the governor delay cycle count. (R230) -/
  | mstatGovernor (o : Op)
  /-- MSTAT_COMPLETED: MSTAT selector 2 returns the count of completed commands. (R230) -/
  | mstatCompleted (o : Op)
  /-- MSTAT_SEGMENT: MSTAT selector 3 returns a weight-buffer segment's format value. (R230) -/
  | mstatSegment (o : Op)
  /-- ACCW: Adds one operand to an ACC object at its home. (R231) -/
  | accw (o : Op)
  /-- ACCR: Reads an ACC object whole and rounds it once into gd. (R232) -/
  | accr (o : Op)
  /-- ACCZ: Zeroes an ACC object at its home. (R233) -/
  | accz (o : Op)
  /-- BFMT: Writes a bank's format register at its home. (R234) -/
  | bfmt (o : Op)
  /-- BFMTR: Reads a bank's format register. (R234) -/
  | bfmtr (o : Op)
  /-- LAUNCH: Submits a launch over a rectangle into a graph or phase. (R257) -/
  | launch (o : OpP)
  /-- SPAWN: Adds one thread to the issuing launch as a seed on the issuing core. (R259) -/
  | spawn (o : Op)
  /-- YIELD_SLOT: YIELD with T = 0 vacates the slot to a waiting claim. (R261) -/
  | yieldSlot (o : Op)
  /-- YIELD_TIMED: YIELD with nonzero T parks until CYCLE reaches the deadline. (R261) -/
  | yieldTimed (o : Op)
  /-- MIGR: Sets or clears migration mode. (R262) -/
  | migr (o : Op)
  /-- TQPUSH: Pushes a 32-byte task to a segment chosen by its header. (R263) -/
  | tqpush (o : Op)
  /-- TQPOP: Removes the newest task of the own segment. (R264) -/
  | tqpop (o : Op)
  /-- TQSTEAL: Removes the oldest task of the first nonempty segment in ring order. (R264) -/
  | tqsteal (o : Op)
  /-- CCINIT_PHASE: CCINIT with T = 2 allocates a phase counter and adds 1 to the job counter. (R265) -/
  | ccinitPhase (o : Op)
  /-- CCINIT_JOB: CCINIT with T = 3 sets the job counter from a service core. (R265) -/
  | ccinitJob (o : Op)
  /-- CCADD: Adjusts a counter by a signed value and returns the old count. (R266) -/
  | ccadd (o : Op)
  /-- CCWAIT: Holds until a counter is DONE and returns its status as an acquire. (R267) -/
  | ccwait (o : Op)
  /-- CCAN: Cancels a level and everything below it. (R268) -/
  | ccan (o : Op)
  /-- BSET_READ: BSET with T[2] = 0 reads a barrier register. (R269) -/
  | bsetRead (o : Op)
  /-- BSET_WRITE: BSET with T[2] = 1 writes a barrier register's fields. (R269) -/
  | bsetWrite (o : Op)
  /-- BAR: Counts one arrival on a barrier register after release conditions hold. (R270) -/
  | bar (o : Op)
  /-- BARW: Parks until the target epoch's release reaches the core. (R270) -/
  | barw (o : Op)
  /-- GRAPH: Allocates a graph record under a phase. (R258) -/
  | graph (o : OpP)
  /-- PBIND: Binds a k register to a connector port. (R300) -/
  | pbind (o : Op)
  /-- PUNB: Withdraws any pending operation and unbinds a k register. (R300) -/
  | punb (o : Op)
  /-- PPUT: Offers a g item at an out port, reporting the outcome in two predicates. (R301) -/
  | pput (o : Op)
  /-- PGET: Takes a g item from an in port into a register pair. (R302) -/
  | pget (o : Op)
  /-- PPUTV: Offers a v item with PMETA at an out port. (R301) -/
  | pputv (o : Op)
  /-- PGETV: Takes a v item into a vector register and its meta into a g register. (R302) -/
  | pgetv (o : Op)
  /-- PTRY: Offers a g item for exactly one Carder step. (R301) -/
  | ptry (o : Op)
  /-- PWDR: Withdraws the pending operation on a port. (R303) -/
  | pwdr (o : Op)
  /-- CLOAD: Checks and loads a connector image and placement table. (R304) -/
  | cload (o : Op)
  /-- CSTART: Places a LOADED connector's regions on Carders and starts it. (R305) -/
  | cstart (o : Op)
  /-- CSTOP_STOP: CSTOP with T = 0 stops a running connector, keeping its bindings. (R306) -/
  | cstopStop (o : Op)
  /-- CSTOP_FREE: CSTOP with T = 1 stops the connector and frees its record. (R306) -/
  | cstopFree (o : Op)
  /-- CSTAT_CONNECTOR: CSTAT selector 0 returns the connector status. (R307) -/
  | cstatConnector (o : Op)
  /-- CSTAT_REGION: CSTAT selector 1 returns a region's status. (R307) -/
  | cstatRegion (o : Op)
  /-- CSTAT_PORT: CSTAT selector 2 returns a port's counts and placement. (R307) -/
  | cstatPort (o : Op)
  /-- CSTAT_BINDING: CSTAT selector 3 returns the binding of one of the slot's k registers. (R307) -/
  | cstatBinding (o : Op)
  /-- WMARK: Offers a watermark at an out port. (R331) -/
  | wmark (o : Op)
  /-- WIDLE: Sets an out port idle or sets its idle timeout. (R332) -/
  | widle (o : Op)
  /-- WBIND: Creates a window binding in the cluster's Brim and moves the ports to it. (R333) -/
  | wbind (o : Op)
  /-- WNEXT: Pops the head wake record of q2 into four registers. (R334) -/
  | wnext (o : Op)
  /-- WPUB: Publishes a woken window's first result into the ring. (R335) -/
  | wpub (o : Op)
  /-- WAMEND: Publishes an amendment for an amending window. (R335) -/
  | wamend (o : Op)
  /-- WCLOSE_DRAIN: WCLOSE mode 0 closes WB, fires remaining windows and frees the binding. (R336) -/
  | wcloseDrain (o : Op)
  /-- WCLOSE_DISCARD: WCLOSE mode 1 discards the binding's wakes and frees it. (R336) -/
  | wcloseDiscard (o : Op)
  /-- WCLOSE_STATUS: WCLOSE mode 2 returns the binding's status word. (R336) -/
  | wcloseStatus (o : Op)
  /-- WCLOSE_WATERMARK: WCLOSE mode 3 returns WB and the in port's IDLE. (R336) -/
  | wcloseWatermark (o : Op)
  /-- OSEND: Offers a message named by a descriptor to a rotor send queue. (R160) -/
  | osend (o : Op)
  /-- OQCFG_READ: OQCFG with T[10] = 0 reads a queue's configuration. (R161) -/
  | oqcfgRead (o : Op)
  /-- OQCFG_WRITE: OQCFG with T[10] = 1 writes a queue's configuration, clears HALT and resets the peer. (R161) -/
  | oqcfgWrite (o : Op)
  /-- OSTAT_QUEUE: OSTAT selector 0 returns a queue's status. (R162) -/
  | ostatQueue (o : Op)
  /-- OSTAT_PORT: OSTAT selector 1 returns a port's status. (R162) -/
  | ostatPort (o : Op)
  /-- OSTAT_RELAY: OSTAT selector 2 returns the frames held in a port's relay buffer. (R162) -/
  | ostatRelay (o : Op)
  /-- OCAL_READ: OCAL reads an active or shadow calendar entry or header. (R163) -/
  | ocalRead (o : Op)
  /-- OCAL_WRITE: OCAL with T[11] = 1 writes the shadow calendar, a header COMMIT being checked and scheduled. (R163) -/
  | ocalWrite (o : Op)
  /-- OWAIT_TIME: OWAIT with T[15] = 0 parks until RTIME reaches gs. (R164) -/
  | owaitTime (o : Op)
  /-- OWAIT_SLOT: OWAIT with T[15] = 1 parks until the guard of the next occurrence of a slot ends. (R164) -/
  | owaitSlot (o : Op)
  /-- TRAP: Takes an exact SOFT trap with the code. (R379) -/
  | trap (o : Op)
  /-- TRET_REISSUE: TRET mode 0 restores the frame and reissues the trapping instruction. (R380) -/
  | tretReissue (o : Op)
  /-- TRET_SKIP: TRET mode 1 restores the frame and skips the trapping instruction. (R380) -/
  | tretSkip (o : Op)
  /-- JRNL: Reads a journal entry's cause, address and data. (R381) -/
  | jrnl (o : Op)
  /-- JRCL_FREE: JRCL action 0 frees a REFUSED journal entry. (R382) -/
  | jrclFree (o : Op)
  /-- JRCL_REPLAY: JRCL action 1 replays a refused posted store at its address. (R382) -/
  | jrclReplay (o : Op)
  /-- JRCL_REDIRECT: JRCL action 2 replays a refused posted store at a new address. (R382) -/
  | jrclRedirect (o : Op)
  /-- PLBI_ADDRESS: PLBI mode 0 invalidates the core's PLB entries covering an address. (R357) -/
  | plbiAddress (o : Op)
  /-- PLBI_CORE: PLBI mode 1 invalidates every entry of the thread's domain on the core. (R357) -/
  | plbiCore (o : Op)
  /-- PLBI_MODULE: PLBI mode 2 invalidates a domain's entries on every core. (R357) -/
  | plbiModule (o : Op)
  /-- CTXS: Saves a slot's thread into a 1,024-byte image. (R360) -/
  | ctxs (o : Op)
  /-- CTXL: Loads a thread image into a slot. (R360) -/
  | ctxl (o : Op)
  /-- HALT_SELF: HALT mode 0 stops the service core until a wake or Ethernet request. (R361) -/
  | haltSelf (o : Op)
  /-- HALT_FENCE: HALT mode 1 fences a compute die. (R361) -/
  | haltFence (o : Op)
  /-- HALT_UNFENCE: HALT mode 2 lifts a die's fence. (R361) -/
  | haltUnfence (o : Op)
  /-- DOMSW: Switches the thread's DOMAIN after .thread release conditions. (R362) -/
  | domsw (o : Op)
  /-- WAYM_READ: WAYM with T[16] = 0 reads a cluster's WMASK. (R358) -/
  | waymRead (o : Op)
  /-- WAYM_REQUEST: WAYM with T[16] = 1 requests a new way mask. (R358) -/
  | waymRequest (o : Op)
  /-- SCRUB: The Pouncer purges, zeroes and cleans DIRTY frames. (R363) -/
  | scrub (o : Op)
  /-- PREEMPT_READY: PREEMPT mode 0 moves a slot's thread to the context cache, ready. (R359) -/
  | preemptReady (o : Op)
  /-- PREEMPT_HOLD: PREEMPT mode 1 moves a slot's thread to the context cache, held. (R359) -/
  | preemptHold (o : Op)
  /-- PREEMPT_RELEASE: PREEMPT mode 2 makes a held context ready. (R359) -/
  | preemptRelease (o : Op)
  /-- RET: Returns to the address in g23. (R68) -/
  | ret
  /-- NOP: Does nothing. (R68) -/
  | nop
  /-- UIRET: Restores the shadow set and leaves the user completion handler. (R140) -/
  | uiret
  /-- MRELS: Ends the held lease or withdraws a request. (R225) -/
  | mrels
  /-- MZERO: Plank command that makes every accumulator EMPTY. (R229) -/
  | mzero
  /-- EXIT: Withdraws port operations, drains, frees the slot and decrements the launch counter. (R260) -/
  | exit
  /-- BRK: Takes an exact BRK trap. (R379) -/
  | brk
  /-- POWER_UP: At power-up every DRAM and vault word is zero and empty, every frame is CLEAN, and the die clocks and counters reset. (R94) -/
  | powerUp
  /-- ROOT_SELF_TEST: Boot stage 0: the root of trust self-tests and reads its fuses from ROM. (R400) -/
  | rootSelfTest
  /-- LOADER_COPY: Boot stage 1: the root of trust copies the loader from boot flash and verifies both signatures, trying slot B if slot A is rejected. (R401) -/
  | loaderCopy
  /-- LINK_TRAINING: Boot stage 2: the service cores train links, zero every word as empty, set the package id and release the compute dies from reset. (R400) -/
  | linkTraining
  /-- PLYNVAS_LOAD: Boot stage 3: Plynvas is loaded after both signatures verify, and measurement register M3 is extended. (R401) -/
  | plynvasLoad
  /-- READY_REPORT: Boot stage 4: Plynvas locks the rotor ports, writes the partition records and reports READY. (R400) -/
  | readyReport
  /-- INSTRUCTION_FILL: An instruction-cache fill arrives and wakes the thread that parked on the miss. (R41) -/
  | instructionFill
  /-- OWED_RESULT_WRITE: A result owed to a register is written, which sets the register full and wakes a thread parked on it. (R23) -/
  | owedResultWrite
  /-- LOAD_RETURN: A read's value is returned and written to its destination register. (R97) -/
  | loadReturn
  /-- STORE_DRAIN: The oldest store in the core store buffer leaves for its home, in program order. (R100) -/
  | storeDrain
  /-- STORE_PERFORM: A write reaches its home, which invalidates the core-cache copies on its die and then applies the write in the location's write order. (R97) -/
  | storePerform
  /-- ATOMIC_PERFORM: The home's atomic unit performs one atomic, or one ACC accumulation, per cycle in the same-cycle order. (R128) -/
  | atomicPerform
  /-- CLOCK_PACKET_ARRIVAL: A packet from another die raises KNOWN and the die clock, and gated requests whose condition now holds are performed. (R106) -/
  | clockPacketArrival
  /-- CLOCK_PROBE: A clock probe reaches a die, which answers at once with a clock packet on the path its writes take. (R106) -/
  | clockProbe
  /-- SYNC_ACCESS_AT_HOME: A synchronising access reaches its home and is performed if the full/empty bit allows it, else fails, waits or enters the waiter table. (R119) -/
  | syncAccessAtHome
  /-- SYNC_TRY_FAIL_RETURN: A failed local try returns and the core sends the next try, or the final try after RETRYLIM failures. (R120) -/
  | syncTryFailReturn
  /-- SYNC_RESEND: A refused synchronising request or final try is resent 64 cycles after the refusal. (R121) -/
  | syncResend
  /-- WITHDRAWAL_AT_HOME: A withdrawn remote synchronising request reaches its home, which removes the entry or lets a performed access stand. (R385) -/
  | withdrawalAtHome
  /-- WAITLIM_EXPIRY: A wait limit counted from the waiting instruction's issue expires, and the instruction is withdrawn and takes a WAITLIM trap. (R372) -/
  | waitlimExpiry
  /-- BURST_WINDOW_CLOSE: Sixteen cycles after a window opens, the group memory port issues one 256-byte burst for the block. (R88) -/
  | burstWindowClose
  /-- BURST_FILL: A burst returns, fills both vault lines of the block and answers every request in its window. (R88) -/
  | burstFill
  /-- CONTROLLER_REQUEST: A DRAM-backed access that missed reaches its group memory controller and is translated through the page table. (R346) -/
  | controllerRequest
  /-- WAY_CHANGEOVER: Once no leaving write is in progress and entering ways are clean, SCR takes NEXT at once and changed ways are zeroed and emptied. (R91) -/
  | wayChangeover
  /-- PLB_FILL: On a PLB miss the core searches the range table, loads the covering entry and reissues the access. (R344) -/
  | plbFill
  /-- COPY_ACCEPT: A copy command is accepted into the engine queue after the .die release conditions hold, taking ownership of its destination. (R133) -/
  | copyAccept
  /-- COPY_UNIT_WRITE: The copy engine writes a 256-byte unit of its destination and serves the accesses held on those lines. (R111) -/
  | copyUnitWrite
  /-- COPY_COMPLETE: A copy command ends and its record is pushed to the issuing slot's q0 once every destination write is performed. (R137) -/
  | copyComplete
  /-- COPY_UNIT_TIMEOUT: A copy unit whose write is not acknowledged within 2,048 cycles is written again. (R386) -/
  | copyUnitTimeout
  /-- WATCH_ARM_AT_HOME: A watch arrives at its home, which enters it in the watch table or refuses it when the table is full. (R130) -/
  | watchArmAtHome
  /-- WATCH_WAKE_ARRIVAL: A watch wake or refusal reaches the thread, which holds it for WAIT. (R131) -/
  | watchWakeArrival
  /-- UI_ENTRY: At a boundary with UIE set and a q0 record, the slot saves its shadow set and enters the user completion handler. (R139) -/
  | uiEntry
  /-- ASYNC_TRAP_ENTRY: At a boundary the oldest pending asynchronous trap is taken through the trap frame. (R375) -/
  | asyncTrapEntry
  /-- WAKE_DUTY: At its next boundary a writing slot sends a wake to each swapped waiter listed by the home, one turn per waiter. (R373) -/
  | wakeDuty
  /-- CANCEL_AT_BOUNDARY: A thread whose CANP is set abandons its parked instruction and ends as EXIT does. (R241) -/
  | cancelAtBoundary
  /-- JOURNAL_ACK: A home's acknowledgement of a posted store makes its journal entry FREE. (R374) -/
  | journalAck
  /-- JOURNAL_REFUSAL: A home's refusal of a posted store makes the journal entry REFUSED and raises a JOURNAL trap. (R374) -/
  | journalRefusal
  /-- STORE_REFUSAL: A refused write without a journal entry raises an ASTORE trap, or a fault report if its thread has ended. (R375) -/
  | storeRefusal
  /-- FAULT_REPORT_ARRIVAL: A fault report reaches the first level that is not DONE and sets FAULT, FCNT and FCAUSE. (R376) -/
  | faultReportArrival
  /-- MAP_MESSAGE: A map message wakes the slot's thread dropped for a page fault and makes its stalled engine accesses again. (R25) -/
  | mapMessage
  /-- DECLINE_MESSAGE: A decline message makes the dropped thread take a PAGE trap and ends the slot's stalled commands with STATUS 5. (R413) -/
  | declineMessage
  /-- WAKE_MESSAGE: A wake message ends HALT mode 0 on the named service core. (R361) -/
  | wakeMessage
  /-- SERVICE_RESPONSE: A service-response message sends a response on its connection, or is discarded if the connection is closed. (R397) -/
  | serviceResponse
  /-- SVC_STATUS: A service request with OP 0x01 returns the status, boot stage included. (R397) -/
  | svcStatus
  /-- SVC_PARTITION_CONFIG: A service request with OP 0x02 configures a partition, answering NOTREADY before READY. (R397) -/
  | svcPartitionConfig
  /-- SVC_JOB_LOAD: A service request with OP 0x03 loads a job into a partition. (R397) -/
  | svcJobLoad
  /-- SVC_JOB_START: A service request with OP 0x04 starts a partition's job. (R397) -/
  | svcJobStart
  /-- SVC_JOB_CANCEL: A service request with OP 0x05 cancels a partition's job. (R397) -/
  | svcJobCancel
  /-- SVC_FAULT_RECORDS: A service request with OP 0x06 returns fault records. (R397) -/
  | svcFaultRecords
  /-- SVC_ATTEST: A service request with OP 0x07 returns the nonce, M1, M3, package id and security version, signed with both algorithms. (R402) -/
  | svcAttest
  /-- SVC_FIRMWARE_UPDATE: A service request with OP 0x08 verifies an image and writes it to the slot that did not boot. (R401) -/
  | svcFirmwareUpdate
  /-- LAUNCH_START: The launch engine starts the head launch of the highest nonempty queue and writes its seeds once the segments have room. (R242) -/
  | launchStart
  /-- RELEASE_FLUSH_DONE: The launch engine's release flush completes, letting dependants and waits on other dies proceed. (R244) -/
  | releaseFlushDone
  /-- SLOT_ASSIGN: Each free slot is offered to a ready context, then the migration inbox head, then the head seed. (R245) -/
  | slotAssign
  /-- THREAD_START: A thread begins in its assigned slot with the context of its seed. (R243) -/
  | threadStart
  /-- CONTEXT_SWAP_OUT: A vacated context enters the context cache, evicting the oldest entry to the backing area. (R252) -/
  | contextSwapOut
  /-- CONTEXT_RESTORE: A ready context is read back from the context cache or backing area into its slot. (R252) -/
  | contextRestore
  /-- MIGRATION_RESERVATION: A migration reservation reaches the home cluster, which reserves a free slot or an inbox entry. (R248) -/
  | migrationReservation
  /-- MIGRATION_ARRIVAL: A migrated context packet arrives and takes its reserved slot or waits in the inbox. (R248) -/
  | migrationArrival
  /-- BARRIER_ROW_COMPLETION: A core receives row-completion from its right neighbour and becomes row-complete if it has arrived. (R250) -/
  | barrierRowCompletion
  /-- BARRIER_COLUMN_COMPLETION: An origin-column core receives column-completion, and the corner completes the barrier. (R250) -/
  | barrierColumnCompletion
  /-- BARRIER_RELEASE: The staggered release reaches a core, increments EPOCH and wakes its slots parked in BARW. (R250) -/
  | barrierRelease
  /-- YIELD_DEADLINE: A timed YIELD's deadline is reached and the thread becomes ready. (R261) -/
  | yieldDeadline
  /-- YIELD_READY_TIMEOUT: A yielded context becomes ready 256 cycles after yielding, or when its freed slot has been assigned. (R261) -/
  | yieldReadyTimeout
  /-- LEASE_GRANT: The free lease is granted in the next cycle to the first waiting slot in cyclic key order. (R217) -/
  | leaseGrant
  /-- LEASE_CYCLE_LIMIT: A lease reaches 65,536 cycles and lapses if another slot waits, else renews. (R218) -/
  | leaseCycleLimit
  /-- PLANK_ACCEPT: A Plank command is accepted once the lease is held, release conditions hold and the queue has room. (R220) -/
  | plankAccept
  /-- GOVERNOR_START: Each cycle the power governor starts waiting multiply commands in die and group order as far as the budget admits. (R222) -/
  | governorStart
  /-- PLANK_COMMAND_END: A Plank command ends and its record is pushed to the issuing slot's q1, and the next command starts. (R221) -/
  | plankCommandEnd
  /-- PORT_REQUEST_ARRIVAL: An offer, take, withdrawal or watermark operation reaches its region's Carder. (R284) -/
  | portRequestArrival
  /-- CARDER_STEP: At each period a Carder updates watermarks and fires the enabled guards chosen from PTR in each of its regions. (R285) -/
  | carderStep
  /-- IDLE_TIMEOUT: A source whose idle timeout has elapsed since LAST is marked IDLE. (R315) -/
  | idleTimeout
  /-- PORT_COMPLETION_ARRIVAL: A fired or not-fired completion reaches the core and writes the operation's destinations. (R287) -/
  | portCompletionArrival
  /-- CARDER_COMPLETION_TIMEOUT: A Carder completion not acknowledged within 1,024 cycles is sent again with the same item. (R386) -/
  | carderCompletionTimeout
  /-- BUFFER_ITEM_ARRIVAL: An item sent through a buffered link arrives at the output end's Carder. (R283) -/
  | bufferItemArrival
  /-- CREDIT_ARRIVAL: A credit returned by a buffer output end arrives at the input end's Carder. (R283) -/
  | creditArrival
  /-- WATERMARK_TOKEN_ARRIVAL: A watermark token arrives at the output end's Carder in order with the items. (R319) -/
  | watermarkTokenArrival
  /-- BRIM_RECORD: A take at a bound port completes at the Brim, which appends, drops or holds the record and wakes windows. (R324) -/
  | brimRecord
  /-- BRIM_WATERMARK_MESSAGE: A watermark message raises WB, fires passed windows in end order, releases panes and reruns a held record. (R325) -/
  | brimWatermarkMessage
  /-- FRAME_MARKER: A frame marker begins a rotor slot, locks the port's clock and drives RTIME. (R144) -/
  | frameMarker
  /-- FRAME_SEND: In a send window the port picks the next startable item in class order and sends it. (R151) -/
  | frameSend
  /-- FRAME_RECEIVE: A frame arrives, is checked against sender, duplicates and the receive grant, and its payload is written or refused. (R154) -/
  | frameReceive
  /-- ACK_FRAME_RECEIVE: An ack frame arrives and releases acknowledged frames, records refusals and updates relay credit. (R156) -/
  | ackFrameReceive
  /-- COMPLETION_ACK_ARRIVAL: A completion acknowledgement reaches the sender and the message's record is pushed to q3. (R158) -/
  | completionAckArrival
  /-- FRAME_RESEND_DUE: A frame unacknowledged for four rotations becomes due for resend, halting its queue after 16 resends. (R156) -/
  | frameResendDue
  /-- RELAY_DISCARD: A relayed frame not forwarded within four rotations of arrival is discarded. (R153) -/
  | relayDiscard
  /-- QUEUE_RESET_ARRIVAL: A peer reset discards the receiver's completion state for the queue and sets its expected SEQ. (R156) -/
  | queueResetArrival
  /-- OSEND_BYTES_HELD: The message's bytes are held in the queue's DRAM area and the owed register receives the SEQ. (R160) -/
  | osendBytesHeld
  /-- GANG_TICK: At a tick that changes a group's partition, cores stop and the partitions' state is exchanged through the Bandbox. (R352) -/
  | gangTick
  /-- BANDBOX_EXCHANGE_DONE: A die's restore ends and its slice begins. (R353) -/
  | bandboxExchangeDone
  /-- SAVE_DEADLINE: Twenty microseconds after the tick a die whose restore has not ended joins late. (R354) -/
  | saveDeadline
  /-- GANG_LATE_TIMEOUT: A die not joined 100 microseconds after the tick sends a GANG_LATE fault to Plynvas. (R354) -/
  | gangLateTimeout
  /-- GSCHED_TAKE_EFFECT: A GSCHED write to a group with PERIOD 0 takes effect at the next whole millisecond, counted as a tick. (R351) -/
  | gschedTakeEffect
  /-- FAULT_EVENT: A unit records a fault event, and a third within ten minutes starts its replacement. (R389) -/
  | faultEvent
  /-- UNIT_REPLACEMENT_DONE: A spare takes over the retired unit's coordinates and state and the unit resumes. (R390) -/
  | unitReplacementDone
  /-- LINK_CHECK_FAILURE: A receiver reports a check failure and the sender replays the unacknowledged flits in order. (R386) -/
  | linkCheckFailure
  /-- LANE_FAILURE: A failed lane is replaced by a spare or halves the link width at the next packet boundary, with a whole replay. (R394) -/
  | laneFailure
  /-- PLANK_STATE_ERROR: An uncorrectable error in Plank state ends the running command with STATUS 1 and empties or unformats the affected state. (R393) -/
  | plankStateError
  /-- ETH_INCOMING_WRITE: An incoming RMA write is checked and written as engine writes, then its completion word is released. (R396) -/
  | ethIncomingWrite
  /-- ETH_INCOMING_SEND: An incoming send takes the oldest posted receive entry, or is answered receiver-not-ready. (R398) -/
  | ethIncomingSend
  /-- ETH_TAIL_NOTIFY: A performed write to STAIL or RTIME is reported to the queue's port, which reads the new entries. (R398) -/
  | ethTailNotify
  /-- ETH_OPERATION_END: An Ethernet operation ends and its completion word is written full as a .package release. (R398) -/
  | ethOperationEnd
  /-- INGRESS_SEND: A send arrives on a bound ingress channel and its payload is checked and held. (R399) -/
  | ingressSend
  /-- INGRESS_OP_COMPLETE: The channel's pending port operation completes and the next entry's operation is sent. (R399) -/
  | ingressOpComplete
  /-- INGRESS_BIND: A write of VALID 1 binds an ingress channel to an out port, or is refused with ERR. (R399) -/
  | ingressBind
  /-- INGRESS_UNBIND: A write of VALID 0 withdraws the pending operation, discards held payload and unbinds the port. (R399) -/
  | ingressUnbind
  /-- THERMAL_OVER_TEMP: Each millisecond with a sensor above 100 degrees lowers the governor budget by 5 percent, and it recovers below 95. (R403) -/
  | thermalOverTemp
  /-- THERMAL_TRIP: At 110 degrees the root of trust fences every compute die and reports a thermal trip. (R403) -/
  | thermalTrip
  /-- PCFG_WRITE: A write of a partition's PCFG sets VALID and DOMAIN, refused if two valid partitions would share a domain. (R341) -/
  | pcfgWrite
  /-- PGRP_WRITE: A write of PGRP0 or PGRP1 changes the partition's groups and every switch's permission table. (R342) -/
  | pgrpWrite
  /-- PNEXT_WRITE: A write of PNEXT0 or PNEXT1 schedules a resize for the next tick. (R355) -/
  | pnextWrite
  /-- GSCHED_WRITE: A write of a group's gang schedule takes effect at its next tick or is refused. (R351) -/
  | gschedWrite
  /-- WSHARE_WRITE: A write of a cluster's share mask for a partition, refused while it removes a scratch or pending way. (R345) -/
  | wshareWrite
  /-- FREL_WRITE: A write of FREL makes each named OWNED frame DIRTY. (R349) -/
  | frelWrite
  /-- CONFIG_WRITE: A service-core store to a configuration register without behaviour of its own takes effect when performed at its unit. (R82) -/
  | configWrite
  /-- K_SOURCE_TAKE: Reading an empty k register sends a take at the bound port and parks until the item is delivered. (R24) -/
  | kSourceTake
  /-- K_DESTINATION_OFFER: Writing a k register offers the result with PMETA at the bound out port when the result is produced. (R276) -/
  | kDestinationOffer
  /-- Q_POP: Reading q0-q3 pops the oldest engine record as an acquire, parking while the queue is empty. (R24) -/
  | qPop
  /-- Q_ENGINE_PUSH: Writing q4-q15 appends to the bound engine's operand FIFO, the completing push issuing the command. (R33) -/
  | qEnginePush
  /-- EVQ_POP: Reading evq on a service core pops the next doubleword of the head event. (R25) -/
  | evqPop
  /-- MSG_WRITE: Writing msg appends to the outgoing message, which is sent once its header and N doublewords are written. (R25) -/
  | msgWrite
  /-- MISSING_MARKER: A frame marker that the active calendar predicts does not arrive, and three in a row lose the port's lock. (R144) -/
  | missingMarker
  /-- ROTOR_EVENT: RTIME reaches an OWAIT deadline, or the guard interval of an awaited slot ends, and the parked OWAIT writes gd. (R164) -/
  | rotorEvent
  /-- CCWAIT_RESEND: A CCWAIT refused because the record's 64 waiters are in use is resent 64 cycles after the refusal. (R267) -/
  | ccwaitResend
  /-- WRITE_QUEUE_DRAIN: The oldest entry of a domain in a vault write buffer or DRAM write queue drains to its channel in domain round-robin order. (R113) -/
  | writeQueueDrain
  /-- WRITE_ACKNOWLEDGEMENT: The acknowledgement of a performed write reaches the issuing core and may satisfy a .package release. (R103) -/
  | writeAcknowledgement
  /-- WAITER_WAKE_ARRIVAL: A wake message sent by a WAKE duty or by the home reaches a swapped waiter, which becomes ready in the context cache. (R120) -/
  | waiterWakeArrival
  /-- POWER_LOSS: The module loses power, interrupting any firmware write while the booted slot stays intact. (R401) -/
  | powerLoss
  /-- CONNECTION_SETUP: A UET peer sets up a connection on an Ultra Ethernet port, and one that negotiates an unsupported feature is refused. (R395) -/
  | connectionSetup
  /-- ETH_INCOMING_READ: An incoming RMA read request from a UET peer is served from local memory. (R395) -/
  | ethIncomingRead
  /-- REMOTE_ATOMIC_OPERATION: An incoming remote atomic operation is refused with an error response. (R395) -/
  | remoteAtomicOperation
deriving DecidableEq, Repr

end Sys2Proof
end

