-- ==== Sys2Proof/Decode.lean ====
section
/-! DEFINITION. The decoder (03_encoding R38 to R54): total on any halfwords, refusing by name, and after it the encoder,
written from the same tables, which emits the canonical encoding of R58. -/

namespace Sys2Proof

/-- Why a halfword sequence is no instruction. Every case but `truncated` is the exact ILLEGAL trap of R50. -/
inductive DecodeError where
  /-- More halfwords are needed. -/
  | truncated
  /-- A chain out of order, repeated, over four long, or with three IMM (R44). -/
  | chain
  /-- PAGE naming page 0 or pages 8 to 15 (R47). -/
  | page
  /-- op6 unassigned on its page (R54). -/
  | unassigned
  /-- A nonzero reserved bit in the SRC halfword (R43). -/
  | reserved
  /-- An IMM halfword the opcode does not accept, or a required one missing (R45, R75, R203). -/
  | immediate
  /-- A nonzero t, th, sh, tt or ts where R46 and R48 require zero. -/
  | fieldZero
  /-- An operand, element type, scope or rounding code the instruction does not accept (R22, R47, R50, R53). -/
  | operand
deriving DecidableEq, Repr

/-- What a d or s field of a form accepts (R22, R60, R114, R189, R223, R253, R299, R330). -/
inductive FKind where
  | zero   -- must hold 0
  | link   -- must hold 23 (RET, R68)
  | src    -- a register read as a source: g, k, q0-q3, evq
  | dst    -- a register written as a destination: g, k, q4-q15, msg
  | g      -- g0-g23
  | g4     -- first of four, g0-g20
  | g2     -- first of two, g0-g22
  | p      -- p0-p31
  | pp     -- a predicate pair: 0, or 1-30
  | v      -- v0-v7
  | k      -- k0-k15, naming a binding
  | rel    -- VCMP's relation and mask destination (R191)
deriving DecidableEq, Repr

/-- What the third source of a form is (R46, R61, R190, R299). -/
inductive TKind where
  | none   -- no third source
  | src    -- a source register, an immediate, or 0
  | srcReg -- a source register or 0; no IMM
  | g      -- g0-g23, an immediate, or 0
  | gReq   -- g0-g23; REG required
  | g2Req  -- a pair g0-g22; REG required
  | vReq   -- v0-v7; REG required
  | vImm   -- v0-v7, an immediate, or 0
  | p      -- p0-p31, or 0 (R67)
  | imm1   -- exactly one IMM (R75)
  | imm    -- one or two IMM (R203)
deriving DecidableEq, Repr

/-- The etype codes a form accepts (R47, R190). -/
inductive EtKind where
  | none | scope | all | fp | int | w | dot
deriving DecidableEq, Repr

/-- Which nonzero rounding codes a form accepts (R47, R192): none, any, or any with an FP element type. -/
inductive RndKind where
  | none | any | fp
deriving DecidableEq, Repr

/-- The formats (R38): F2, FI, and F2 followed by a parameter block. -/
inductive Form where
  | f2 | fi | blk
deriving DecidableEq, Repr

/-- One row of the encoding tables: page, op6, format, field kinds, element types, rounding, and whether an immediate is
sign-extended (true) or zero-extended. -/
structure Row where
  page : Nat
  op6 : Nat
  form : Form
  d : FKind
  s : FKind
  t : TKind
  et : EtKind
  rnd : RndKind
  sx : Bool
deriving DecidableEq, Repr

/-- The operands of a decoded instruction, by format. -/
inductive Body where
  | f2 (o : Op)
  | fi (o : OpI)
  | blk (o : OpP)
deriving DecidableEq, Repr

/-- The 218 major forms of the opcode map (R54). -/
inductive Mnem where
  | add | sub | addi | and | or | xor | andn | shl | shr
  | sar | shli | shri | sari | mov | li | lea | cmpeq | cmpne
  | cmplt | cmpltu | cmpge | cmpgeu | sel | ldb | ldbu | ldh | ldhu
  | ldw | ldwu | ldd | stb | sth | stw | std | br | brp
  | brn | jmp | call | callr | ret | loop | nop | movs | movsw
  | pand | por | pxor | pnot | pmovg | pmovp
  | mul | mulh | mulhu | div | divu | rem | remu | min | max
  | minu | maxu | clz | ctz | popc | brev | bswap | rol | ror
  | ext | ins | sxb | sxh | sxw | zxb | zxh | zxw | fadd
  | fsub | fmul | fma | fdiv | fsqrt | fmin | fmax | fcmpeq | fcmplt
  | fcmple | fcvt | fclass
  | ldfe | ldff | stef | stff | sete | probe | lda | strl | stp
  | ldm | stm | aadd | aand | aor | axor | amin | amax | aminu
  | amaxu | aswap | acas | fence | watch | wait | cpy | cpyt | cpyw
  | cpyc | uien | uiret
  | vld | vst | vlds | vsts | vgath | vscat | vadd | vsub | vmul
  | vfma | vmin | vmax | vabs | vneg | vand | vor | vxor | vshl
  | vshr | vcmp | vsel | vrsum | vrmax | vrmin | vcvt | vbcast | vperm
  | vext | vins | vdiv | vsqrt | vdota
  | mlease | mrels | mldw | mmul | mmuls | mdrain | mstat | mzero | accw
  | accr | accz | bfmt | bfmtr
  | launch | spawn | exit | yield | migr | tqpush | tqpop | tqsteal | ccinit
  | ccadd | ccwait | ccan | bset | bar | barw | graph
  | pbind | punb | pput | pget | pputv | pgetv | ptry | pwdr | cload
  | cstart | cstop | cstat | wmark | widle | wbind | wnext | wpub | wamend
  | wclose
  | osend | oqcfg | ostat | ocal | owait | trap | tret | brk | jrnl
  | jrcl | plbi | ctxs | ctxl | halt | domsw | waym | scrub | preempt
deriving DecidableEq, Repr

/-- The opcode map (R54): the major forms of a page in the order of op6, from 0 without a gap; pages 8 to 15 hold none. -/
def opMap : Nat → List Mnem
  | 0 =>
    [.add, .sub, .addi, .and, .or, .xor, .andn, .shl, .shr, .sar, .shli, .shri, .sari, .mov, .li, .lea, .cmpeq,
     .cmpne, .cmplt, .cmpltu, .cmpge, .cmpgeu, .sel, .ldb, .ldbu, .ldh, .ldhu, .ldw, .ldwu, .ldd, .stb, .sth, .stw,
     .std, .br, .brp, .brn, .jmp, .call, .callr, .ret, .loop, .nop, .movs, .movsw, .pand, .por, .pxor, .pnot, .pmovg,
     .pmovp]
  | 1 =>
    [.mul, .mulh, .mulhu, .div, .divu, .rem, .remu, .min, .max, .minu, .maxu, .clz, .ctz, .popc, .brev, .bswap, .rol,
     .ror, .ext, .ins, .sxb, .sxh, .sxw, .zxb, .zxh, .zxw, .fadd, .fsub, .fmul, .fma, .fdiv, .fsqrt, .fmin, .fmax,
     .fcmpeq, .fcmplt, .fcmple, .fcvt, .fclass]
  | 2 =>
    [.ldfe, .ldff, .stef, .stff, .sete, .probe, .lda, .strl, .stp, .ldm, .stm, .aadd, .aand, .aor, .axor, .amin,
     .amax, .aminu, .amaxu, .aswap, .acas, .fence, .watch, .wait, .cpy, .cpyt, .cpyw, .cpyc, .uien, .uiret]
  | 3 =>
    [.vld, .vst, .vlds, .vsts, .vgath, .vscat, .vadd, .vsub, .vmul, .vfma, .vmin, .vmax, .vabs, .vneg, .vand, .vor,
     .vxor, .vshl, .vshr, .vcmp, .vsel, .vrsum, .vrmax, .vrmin, .vcvt, .vbcast, .vperm, .vext, .vins, .vdiv, .vsqrt,
     .vdota]
  | 4 =>
    [.mlease, .mrels, .mldw, .mmul, .mmuls, .mdrain, .mstat, .mzero, .accw, .accr, .accz, .bfmt, .bfmtr]
  | 5 =>
    [.launch, .spawn, .exit, .yield, .migr, .tqpush, .tqpop, .tqsteal, .ccinit, .ccadd, .ccwait, .ccan, .bset, .bar,
     .barw, .graph]
  | 6 =>
    [.pbind, .punb, .pput, .pget, .pputv, .pgetv, .ptry, .pwdr, .cload, .cstart, .cstop, .cstat, .wmark, .widle,
     .wbind, .wnext, .wpub, .wamend, .wclose]
  | 7 =>
    [.osend, .oqcfg, .ostat, .ocal, .owait, .trap, .tret, .brk, .jrnl, .jrcl, .plbi, .ctxs, .ctxl, .halt, .domsw,
     .waym, .scrub, .preempt]
  | _ => []

/-- The row of each major form, from the encoding tables of R60 to R76, R114 to R118, R159, R190, R223, R253, R299, R330,
R356 and R378. -/
def Mnem.row : Mnem → Row
  | .add => ⟨0, 0, .f2, .dst, .src, .src, .none, .none, true⟩
  | .sub => ⟨0, 1, .f2, .dst, .src, .src, .none, .none, true⟩
  | .addi => ⟨0, 2, .fi, .g, .zero, .none, .none, .none, true⟩
  | .and => ⟨0, 3, .f2, .dst, .src, .src, .none, .none, true⟩
  | .or => ⟨0, 4, .f2, .dst, .src, .src, .none, .none, true⟩
  | .xor => ⟨0, 5, .f2, .dst, .src, .src, .none, .none, true⟩
  | .andn => ⟨0, 6, .f2, .dst, .src, .src, .none, .none, true⟩
  | .shl => ⟨0, 7, .f2, .dst, .src, .src, .none, .none, true⟩
  | .shr => ⟨0, 8, .f2, .dst, .src, .src, .none, .none, true⟩
  | .sar => ⟨0, 9, .f2, .dst, .src, .src, .none, .none, true⟩
  | .shli => ⟨0, 10, .fi, .g, .zero, .none, .none, .none, true⟩
  | .shri => ⟨0, 11, .fi, .g, .zero, .none, .none, .none, true⟩
  | .sari => ⟨0, 12, .fi, .g, .zero, .none, .none, .none, true⟩
  | .mov => ⟨0, 13, .f2, .dst, .src, .none, .none, .none, true⟩
  | .li => ⟨0, 14, .fi, .dst, .zero, .none, .none, .none, true⟩
  | .lea => ⟨0, 15, .f2, .dst, .src, .src, .none, .none, true⟩
  | .cmpeq => ⟨0, 16, .f2, .p, .src, .src, .none, .none, true⟩
  | .cmpne => ⟨0, 17, .f2, .p, .src, .src, .none, .none, true⟩
  | .cmplt => ⟨0, 18, .f2, .p, .src, .src, .none, .none, true⟩
  | .cmpltu => ⟨0, 19, .f2, .p, .src, .src, .none, .none, true⟩
  | .cmpge => ⟨0, 20, .f2, .p, .src, .src, .none, .none, true⟩
  | .cmpgeu => ⟨0, 21, .f2, .p, .src, .src, .none, .none, true⟩
  | .sel => ⟨0, 22, .f2, .dst, .src, .src, .none, .none, true⟩
  | .ldb => ⟨0, 23, .f2, .g, .g, .g, .none, .none, true⟩
  | .ldbu => ⟨0, 24, .f2, .g, .g, .g, .none, .none, true⟩
  | .ldh => ⟨0, 25, .f2, .g, .g, .g, .none, .none, true⟩
  | .ldhu => ⟨0, 26, .f2, .g, .g, .g, .none, .none, true⟩
  | .ldw => ⟨0, 27, .f2, .g, .g, .g, .none, .none, true⟩
  | .ldwu => ⟨0, 28, .f2, .g, .g, .g, .none, .none, true⟩
  | .ldd => ⟨0, 29, .f2, .g, .g, .g, .none, .none, true⟩
  | .stb => ⟨0, 30, .f2, .g, .g, .g, .none, .none, true⟩
  | .sth => ⟨0, 31, .f2, .g, .g, .g, .none, .none, true⟩
  | .stw => ⟨0, 32, .f2, .g, .g, .g, .none, .none, true⟩
  | .std => ⟨0, 33, .f2, .g, .g, .g, .none, .none, true⟩
  | .br => ⟨0, 34, .fi, .zero, .zero, .none, .none, .none, true⟩
  | .brp => ⟨0, 35, .fi, .p, .zero, .none, .none, .none, true⟩
  | .brn => ⟨0, 36, .fi, .p, .zero, .none, .none, .none, true⟩
  | .jmp => ⟨0, 37, .f2, .zero, .src, .src, .none, .none, true⟩
  | .call => ⟨0, 38, .fi, .zero, .zero, .none, .none, .none, true⟩
  | .callr => ⟨0, 39, .f2, .zero, .src, .src, .none, .none, true⟩
  | .ret => ⟨0, 40, .f2, .zero, .link, .none, .none, .none, true⟩
  | .loop => ⟨0, 41, .fi, .g, .zero, .none, .none, .none, true⟩
  | .nop => ⟨0, 42, .f2, .zero, .zero, .none, .none, .none, true⟩
  | .movs => ⟨0, 43, .fi, .g, .zero, .none, .none, .none, false⟩
  | .movsw => ⟨0, 44, .fi, .g, .zero, .none, .none, .none, false⟩
  | .pand => ⟨0, 45, .f2, .p, .p, .p, .none, .none, true⟩
  | .por => ⟨0, 46, .f2, .p, .p, .p, .none, .none, true⟩
  | .pxor => ⟨0, 47, .f2, .p, .p, .p, .none, .none, true⟩
  | .pnot => ⟨0, 48, .f2, .p, .p, .none, .none, .none, true⟩
  | .pmovg => ⟨0, 49, .f2, .dst, .p, .none, .none, .none, true⟩
  | .pmovp => ⟨0, 50, .f2, .p, .src, .none, .none, .none, true⟩
  | .mul => ⟨1, 0, .f2, .dst, .src, .src, .none, .none, true⟩
  | .mulh => ⟨1, 1, .f2, .dst, .src, .src, .none, .none, true⟩
  | .mulhu => ⟨1, 2, .f2, .dst, .src, .src, .none, .none, true⟩
  | .div => ⟨1, 3, .f2, .dst, .src, .src, .none, .none, true⟩
  | .divu => ⟨1, 4, .f2, .dst, .src, .src, .none, .none, true⟩
  | .rem => ⟨1, 5, .f2, .dst, .src, .src, .none, .none, true⟩
  | .remu => ⟨1, 6, .f2, .dst, .src, .src, .none, .none, true⟩
  | .min => ⟨1, 7, .f2, .dst, .src, .src, .none, .none, true⟩
  | .max => ⟨1, 8, .f2, .dst, .src, .src, .none, .none, true⟩
  | .minu => ⟨1, 9, .f2, .dst, .src, .src, .none, .none, true⟩
  | .maxu => ⟨1, 10, .f2, .dst, .src, .src, .none, .none, true⟩
  | .clz => ⟨1, 11, .f2, .dst, .src, .none, .none, .none, true⟩
  | .ctz => ⟨1, 12, .f2, .dst, .src, .none, .none, .none, true⟩
  | .popc => ⟨1, 13, .f2, .dst, .src, .none, .none, .none, true⟩
  | .brev => ⟨1, 14, .f2, .dst, .src, .none, .none, .none, true⟩
  | .bswap => ⟨1, 15, .f2, .dst, .src, .none, .none, .none, true⟩
  | .rol => ⟨1, 16, .f2, .dst, .src, .src, .none, .none, true⟩
  | .ror => ⟨1, 17, .f2, .dst, .src, .src, .none, .none, true⟩
  | .ext => ⟨1, 18, .f2, .dst, .src, .src, .none, .none, true⟩
  | .ins => ⟨1, 19, .f2, .g, .src, .src, .none, .none, true⟩
  | .sxb => ⟨1, 20, .f2, .dst, .src, .none, .none, .none, true⟩
  | .sxh => ⟨1, 21, .f2, .dst, .src, .none, .none, .none, true⟩
  | .sxw => ⟨1, 22, .f2, .dst, .src, .none, .none, .none, true⟩
  | .zxb => ⟨1, 23, .f2, .dst, .src, .none, .none, .none, true⟩
  | .zxh => ⟨1, 24, .f2, .dst, .src, .none, .none, .none, true⟩
  | .zxw => ⟨1, 25, .f2, .dst, .src, .none, .none, .none, true⟩
  | .fadd => ⟨1, 26, .f2, .g, .src, .srcReg, .fp, .any, true⟩
  | .fsub => ⟨1, 27, .f2, .g, .src, .srcReg, .fp, .any, true⟩
  | .fmul => ⟨1, 28, .f2, .g, .src, .srcReg, .fp, .any, true⟩
  | .fma => ⟨1, 29, .f2, .g, .src, .srcReg, .fp, .any, true⟩
  | .fdiv => ⟨1, 30, .f2, .g, .src, .srcReg, .fp, .any, true⟩
  | .fsqrt => ⟨1, 31, .f2, .g, .src, .none, .fp, .any, true⟩
  | .fmin => ⟨1, 32, .f2, .g, .src, .srcReg, .fp, .none, true⟩
  | .fmax => ⟨1, 33, .f2, .g, .src, .srcReg, .fp, .none, true⟩
  | .fcmpeq => ⟨1, 34, .f2, .p, .src, .srcReg, .fp, .none, true⟩
  | .fcmplt => ⟨1, 35, .f2, .p, .src, .srcReg, .fp, .none, true⟩
  | .fcmple => ⟨1, 36, .f2, .p, .src, .srcReg, .fp, .none, true⟩
  | .fcvt => ⟨1, 37, .f2, .g, .src, .imm1, .none, .any, false⟩
  | .fclass => ⟨1, 38, .f2, .g, .src, .none, .fp, .none, true⟩
  | .ldfe => ⟨2, 0, .f2, .g, .g, .g, .scope, .none, true⟩
  | .ldff => ⟨2, 1, .f2, .g, .g, .g, .scope, .none, true⟩
  | .stef => ⟨2, 2, .f2, .g, .g, .g, .scope, .none, true⟩
  | .stff => ⟨2, 3, .f2, .g, .g, .g, .scope, .none, true⟩
  | .sete => ⟨2, 4, .f2, .zero, .g, .g, .scope, .none, true⟩
  | .probe => ⟨2, 5, .f2, .p, .g, .g, .none, .none, true⟩
  | .lda => ⟨2, 6, .f2, .g, .g, .g, .scope, .none, true⟩
  | .strl => ⟨2, 7, .f2, .g, .g, .g, .scope, .none, true⟩
  | .stp => ⟨2, 8, .f2, .g, .g, .g, .none, .none, true⟩
  | .ldm => ⟨2, 9, .f2, .g, .g, .g, .none, .none, true⟩
  | .stm => ⟨2, 10, .f2, .g, .g, .g, .none, .none, true⟩
  | .aadd => ⟨2, 11, .f2, .g, .g, .g, .scope, .none, true⟩
  | .aand => ⟨2, 12, .f2, .g, .g, .g, .scope, .none, true⟩
  | .aor => ⟨2, 13, .f2, .g, .g, .g, .scope, .none, true⟩
  | .axor => ⟨2, 14, .f2, .g, .g, .g, .scope, .none, true⟩
  | .amin => ⟨2, 15, .f2, .g, .g, .g, .scope, .none, true⟩
  | .amax => ⟨2, 16, .f2, .g, .g, .g, .scope, .none, true⟩
  | .aminu => ⟨2, 17, .f2, .g, .g, .g, .scope, .none, true⟩
  | .amaxu => ⟨2, 18, .f2, .g, .g, .g, .scope, .none, true⟩
  | .aswap => ⟨2, 19, .f2, .g, .g, .g, .scope, .none, true⟩
  | .acas => ⟨2, 20, .f2, .g, .g, .g, .scope, .none, true⟩
  | .fence => ⟨2, 21, .f2, .zero, .zero, .none, .scope, .none, true⟩
  | .watch => ⟨2, 22, .f2, .g, .g, .g, .none, .none, true⟩
  | .wait => ⟨2, 23, .f2, .g, .zero, .none, .none, .none, true⟩
  | .cpy => ⟨2, 24, .f2, .g, .g, .g, .all, .any, true⟩
  | .cpyt => ⟨2, 25, .blk, .zero, .zero, .none, .all, .any, true⟩
  | .cpyw => ⟨2, 26, .f2, .g, .g, .g, .none, .none, true⟩
  | .cpyc => ⟨2, 27, .f2, .g, .g, .g, .none, .none, true⟩
  | .uien => ⟨2, 28, .f2, .zero, .g, .none, .none, .none, true⟩
  | .uiret => ⟨2, 29, .f2, .zero, .zero, .none, .none, .none, true⟩
  | .vld => ⟨3, 0, .f2, .v, .g, .g, .none, .none, true⟩
  | .vst => ⟨3, 1, .f2, .v, .g, .g, .none, .none, true⟩
  | .vlds => ⟨3, 2, .f2, .v, .g, .g, .all, .none, true⟩
  | .vsts => ⟨3, 3, .f2, .v, .g, .g, .all, .none, true⟩
  | .vgath => ⟨3, 4, .f2, .v, .g, .vReq, .w, .none, true⟩
  | .vscat => ⟨3, 5, .f2, .v, .g, .vReq, .w, .none, true⟩
  | .vadd => ⟨3, 6, .f2, .v, .v, .vReq, .all, .fp, true⟩
  | .vsub => ⟨3, 7, .f2, .v, .v, .vReq, .all, .fp, true⟩
  | .vmul => ⟨3, 8, .f2, .v, .v, .vReq, .all, .fp, true⟩
  | .vfma => ⟨3, 9, .f2, .v, .v, .vReq, .all, .fp, true⟩
  | .vmin => ⟨3, 10, .f2, .v, .v, .vReq, .all, .none, true⟩
  | .vmax => ⟨3, 11, .f2, .v, .v, .vReq, .all, .none, true⟩
  | .vabs => ⟨3, 12, .f2, .v, .v, .none, .all, .none, true⟩
  | .vneg => ⟨3, 13, .f2, .v, .v, .none, .all, .none, true⟩
  | .vand => ⟨3, 14, .f2, .v, .v, .vReq, .none, .none, true⟩
  | .vor => ⟨3, 15, .f2, .v, .v, .vReq, .none, .none, true⟩
  | .vxor => ⟨3, 16, .f2, .v, .v, .vReq, .none, .none, true⟩
  | .vshl => ⟨3, 17, .f2, .v, .v, .vImm, .int, .none, true⟩
  | .vshr => ⟨3, 18, .f2, .v, .v, .vImm, .int, .none, true⟩
  | .vcmp => ⟨3, 19, .f2, .rel, .v, .vReq, .all, .none, true⟩
  | .vsel => ⟨3, 20, .f2, .v, .v, .gReq, .all, .none, true⟩
  | .vrsum => ⟨3, 21, .f2, .g, .v, .none, .all, .fp, true⟩
  | .vrmax => ⟨3, 22, .f2, .g, .v, .none, .all, .none, true⟩
  | .vrmin => ⟨3, 23, .f2, .g, .v, .none, .all, .none, true⟩
  | .vcvt => ⟨3, 24, .f2, .v, .v, .imm, .none, .any, false⟩
  | .vbcast => ⟨3, 25, .f2, .v, .g, .none, .all, .none, true⟩
  | .vperm => ⟨3, 26, .f2, .v, .v, .vReq, .all, .none, true⟩
  | .vext => ⟨3, 27, .f2, .g, .v, .g, .all, .none, false⟩
  | .vins => ⟨3, 28, .f2, .v, .g, .g, .all, .none, false⟩
  | .vdiv => ⟨3, 29, .f2, .v, .v, .vReq, .all, .fp, true⟩
  | .vsqrt => ⟨3, 30, .f2, .v, .v, .none, .fp, .fp, true⟩
  | .vdota => ⟨3, 31, .f2, .g, .v, .vReq, .dot, .none, true⟩
  | .mlease => ⟨4, 0, .f2, .g, .zero, .none, .none, .none, true⟩
  | .mrels => ⟨4, 1, .f2, .zero, .zero, .none, .none, .none, true⟩
  | .mldw => ⟨4, 2, .blk, .zero, .zero, .none, .none, .none, true⟩
  | .mmul => ⟨4, 3, .blk, .zero, .zero, .none, .none, .none, true⟩
  | .mmuls => ⟨4, 4, .blk, .zero, .zero, .none, .none, .none, true⟩
  | .mdrain => ⟨4, 5, .blk, .zero, .zero, .none, .none, .any, true⟩
  | .mstat => ⟨4, 6, .f2, .g, .zero, .g, .none, .none, false⟩
  | .mzero => ⟨4, 7, .f2, .zero, .zero, .none, .none, .none, true⟩
  | .accw => ⟨4, 8, .f2, .g, .g, .none, .all, .none, true⟩
  | .accr => ⟨4, 9, .f2, .g, .g, .none, .all, .any, true⟩
  | .accz => ⟨4, 10, .f2, .g, .zero, .none, .none, .none, true⟩
  | .bfmt => ⟨4, 11, .f2, .g, .g, .none, .none, .none, true⟩
  | .bfmtr => ⟨4, 12, .f2, .g, .g, .none, .none, .none, true⟩
  | .launch => ⟨5, 0, .blk, .g, .g, .none, .none, .none, true⟩
  | .spawn => ⟨5, 1, .f2, .g, .g, .g, .none, .none, true⟩
  | .exit => ⟨5, 2, .f2, .zero, .zero, .none, .none, .none, true⟩
  | .yield => ⟨5, 3, .f2, .zero, .zero, .g, .none, .none, false⟩
  | .migr => ⟨5, 4, .f2, .zero, .g, .none, .none, .none, true⟩
  | .tqpush => ⟨5, 5, .f2, .zero, .g4, .none, .none, .none, true⟩
  | .tqpop => ⟨5, 6, .f2, .g4, .p, .none, .none, .none, true⟩
  | .tqsteal => ⟨5, 7, .f2, .g4, .p, .none, .none, .none, true⟩
  | .ccinit => ⟨5, 8, .f2, .g, .g, .g, .none, .none, false⟩
  | .ccadd => ⟨5, 9, .f2, .g, .g, .g, .none, .none, true⟩
  | .ccwait => ⟨5, 10, .f2, .g, .g, .none, .none, .none, true⟩
  | .ccan => ⟨5, 11, .f2, .zero, .g, .none, .none, .none, true⟩
  | .bset => ⟨5, 12, .f2, .g, .g, .g, .none, .none, false⟩
  | .bar => ⟨5, 13, .f2, .zero, .zero, .g, .none, .none, false⟩
  | .barw => ⟨5, 14, .f2, .g, .zero, .g, .none, .none, false⟩
  | .graph => ⟨5, 15, .blk, .g, .zero, .none, .none, .none, true⟩
  | .pbind => ⟨6, 0, .f2, .k, .g, .g, .none, .none, false⟩
  | .punb => ⟨6, 1, .f2, .k, .zero, .none, .none, .none, true⟩
  | .pput => ⟨6, 2, .f2, .pp, .k, .g2Req, .none, .none, true⟩
  | .pget => ⟨6, 3, .f2, .g2, .k, .none, .none, .none, true⟩
  | .pputv => ⟨6, 4, .f2, .pp, .k, .vReq, .none, .none, true⟩
  | .pgetv => ⟨6, 5, .f2, .v, .k, .gReq, .none, .none, true⟩
  | .ptry => ⟨6, 6, .f2, .pp, .k, .g2Req, .none, .none, true⟩
  | .pwdr => ⟨6, 7, .f2, .p, .k, .none, .none, .none, true⟩
  | .cload => ⟨6, 8, .f2, .g, .g, .gReq, .none, .none, true⟩
  | .cstart => ⟨6, 9, .f2, .g, .g, .none, .none, .none, true⟩
  | .cstop => ⟨6, 10, .f2, .zero, .g, .g, .none, .none, false⟩
  | .cstat => ⟨6, 11, .f2, .g, .g, .g, .none, .none, false⟩
  | .wmark => ⟨6, 12, .f2, .k, .g, .none, .none, .none, true⟩
  | .widle => ⟨6, 13, .f2, .k, .g, .none, .none, .none, true⟩
  | .wbind => ⟨6, 14, .f2, .g, .g, .none, .none, .none, true⟩
  | .wnext => ⟨6, 15, .f2, .g4, .zero, .none, .none, .none, true⟩
  | .wpub => ⟨6, 16, .f2, .g, .g2, .none, .none, .none, true⟩
  | .wamend => ⟨6, 17, .f2, .g, .g2, .none, .none, .none, true⟩
  | .wclose => ⟨6, 18, .f2, .g, .g, .g, .none, .none, false⟩
  | .osend => ⟨7, 0, .f2, .g, .g, .src, .none, .none, false⟩
  | .oqcfg => ⟨7, 1, .f2, .g, .g, .src, .none, .none, false⟩
  | .ostat => ⟨7, 2, .f2, .g, .zero, .src, .none, .none, false⟩
  | .ocal => ⟨7, 3, .f2, .g, .g, .src, .none, .none, false⟩
  | .owait => ⟨7, 4, .f2, .g, .g, .src, .none, .none, false⟩
  | .trap => ⟨7, 5, .f2, .zero, .zero, .g, .none, .none, false⟩
  | .tret => ⟨7, 6, .f2, .zero, .zero, .g, .none, .none, false⟩
  | .brk => ⟨7, 7, .f2, .zero, .zero, .none, .none, .none, true⟩
  | .jrnl => ⟨7, 8, .f2, .g2, .zero, .g, .none, .none, false⟩
  | .jrcl => ⟨7, 9, .f2, .g, .g, .g, .none, .none, false⟩
  | .plbi => ⟨7, 10, .f2, .zero, .g, .g, .none, .none, false⟩
  | .ctxs => ⟨7, 11, .f2, .g, .g, .gReq, .none, .none, true⟩
  | .ctxl => ⟨7, 12, .f2, .g, .g, .gReq, .none, .none, true⟩
  | .halt => ⟨7, 13, .f2, .zero, .g, .g, .none, .none, false⟩
  | .domsw => ⟨7, 14, .f2, .g, .g, .none, .none, .none, true⟩
  | .waym => ⟨7, 15, .f2, .g, .g, .g, .none, .none, false⟩
  | .scrub => ⟨7, 16, .f2, .g, .g, .none, .none, .none, true⟩
  | .preempt => ⟨7, 17, .f2, .zero, .g, .g, .none, .none, false⟩


/-- The major form at an op6 of a page (R54). -/
def lookupOp (page op6 : Nat) : Option Mnem := (opMap page)[op6]?

/-- Whether the selector a function reads from an immediate T has a value. A register T has none before run time. -/
def selIs (t : Third) (f : Nat → Nat) (n : Nat) : Bool :=
  match t with
  | .imm v => f v.toNat == n
  | .reg _ => false

/-- The F2 instruction of a major form. Where the table splits a form by the selector in T, an immediate T decides; a
register T, or a selector the form does not have, gives the form's first row, whose meaning reads T at run time. -/
def buildF2 (m : Mnem) (o : Op) : Option Instr :=
  match m with
  | .add => some (.add o)
  | .sub => some (.sub o)
  | .and => some (.and o)
  | .or => some (.or o)
  | .xor => some (.xor o)
  | .andn => some (.andn o)
  | .shl => some (.shl o)
  | .shr => some (.shr o)
  | .sar => some (.sar o)
  | .mov => some (.mov o)
  | .lea => some (.lea o)
  | .cmpeq => some (.cmpeq o)
  | .cmpne => some (.cmpne o)
  | .cmplt => some (.cmplt o)
  | .cmpltu => some (.cmpltu o)
  | .cmpge => some (.cmpge o)
  | .cmpgeu => some (.cmpgeu o)
  | .sel => some (.sel o)
  | .ldb => some (.ldb o)
  | .ldbu => some (.ldbu o)
  | .ldh => some (.ldh o)
  | .ldhu => some (.ldhu o)
  | .ldw => some (.ldw o)
  | .ldwu => some (.ldwu o)
  | .ldd => some (.ldd o)
  | .stb => some (.stb o)
  | .sth => some (.sth o)
  | .stw => some (.stw o)
  | .std => some (.std o)
  | .jmp => some (.jmp o)
  | .callr => some (.callr o)
  | .ret => some .ret
  | .nop => some .nop
  | .pand => some (.pand o)
  | .por => some (.por o)
  | .pxor => some (.pxor o)
  | .pnot => some (.pnot o)
  | .pmovg => some (.pmovg o)
  | .pmovp => some (.pmovp o)
  | .mul => some (.mul o)
  | .mulh => some (.mulh o)
  | .mulhu => some (.mulhu o)
  | .div => some (.div o)
  | .divu => some (.divu o)
  | .rem => some (.rem o)
  | .remu => some (.remu o)
  | .min => some (.min o)
  | .max => some (.max o)
  | .minu => some (.minu o)
  | .maxu => some (.maxu o)
  | .clz => some (.clz o)
  | .ctz => some (.ctz o)
  | .popc => some (.popc o)
  | .brev => some (.brev o)
  | .bswap => some (.bswap o)
  | .rol => some (.rol o)
  | .ror => some (.ror o)
  | .ext => some (.ext o)
  | .ins => some (.ins o)
  | .sxb => some (.sxb o)
  | .sxh => some (.sxh o)
  | .sxw => some (.sxw o)
  | .zxb => some (.zxb o)
  | .zxh => some (.zxh o)
  | .zxw => some (.zxw o)
  | .fadd => some (.fadd o)
  | .fsub => some (.fsub o)
  | .fmul => some (.fmul o)
  | .fma => some (.fma o)
  | .fdiv => some (.fdiv o)
  | .fsqrt => some (.fsqrt o)
  | .fmin => some (.fmin o)
  | .fmax => some (.fmax o)
  | .fcmpeq => some (.fcmpeq o)
  | .fcmplt => some (.fcmplt o)
  | .fcmple => some (.fcmple o)
  | .fcvt => some (.fcvt o)
  | .fclass => some (.fclass o)
  | .ldfe => some (.ldfe o)
  | .ldff => some (.ldff o)
  | .stef => some (.stef o)
  | .stff => some (.stff o)
  | .sete => some (.sete o)
  | .probe => some (.probe o)
  | .lda => some (.lda o)
  | .strl => some (.strl o)
  | .stp => some (.stp o)
  | .ldm => some (.ldm o)
  | .stm => some (.stm o)
  | .aadd => some (.aadd o)
  | .aand => some (.aand o)
  | .aor => some (.aor o)
  | .axor => some (.axor o)
  | .amin => some (.amin o)
  | .amax => some (.amax o)
  | .aminu => some (.aminu o)
  | .amaxu => some (.amaxu o)
  | .aswap => some (.aswap o)
  | .acas => some (.acas o)
  | .fence => some (.fence o)
  | .watch => some (.watch o)
  | .wait => some (.wait o)
  | .cpy => some (.cpy o)
  | .cpyw => some (.cpyw o)
  | .cpyc => some (.cpyc o)
  | .uien => some (.uien o)
  | .uiret => some .uiret
  | .vld => some (.vld o)
  | .vst => some (.vst o)
  | .vlds => some (.vlds o)
  | .vsts => some (.vsts o)
  | .vgath => some (.vgath o)
  | .vscat => some (.vscat o)
  | .vadd => some (.vadd o)
  | .vsub => some (.vsub o)
  | .vmul => some (.vmul o)
  | .vfma => some (.vfma o)
  | .vmin => some (.vmin o)
  | .vmax => some (.vmax o)
  | .vabs => some (.vabs o)
  | .vneg => some (.vneg o)
  | .vand => some (.vand o)
  | .vor => some (.vor o)
  | .vxor => some (.vxor o)
  | .vshl => some (.vshl o)
  | .vshr => some (.vshr o)
  | .vcmp => some (.vcmp o)
  | .vsel => some (.vsel o)
  | .vrsum => some (.vrsum o)
  | .vrmax => some (.vrmax o)
  | .vrmin => some (.vrmin o)
  | .vcvt => some (.vcvt o)
  | .vbcast => some (.vbcast o)
  | .vperm => some (.vperm o)
  | .vext => some (.vext o)
  | .vins => some (.vins o)
  | .vdiv => some (.vdiv o)
  | .vsqrt => some (.vsqrt o)
  | .vdota => some (.vdota o)
  | .mlease => some (.mlease o)
  | .mrels => some .mrels
  | .mstat => some (if selIs o.t (fun t => t % 256) 1 then .mstatGovernor o else if selIs o.t (fun t => t % 256) 2 then .mstatCompleted o else if selIs o.t (fun t => t % 256) 3 then .mstatSegment o else .mstatStatus o)
  | .mzero => some .mzero
  | .accw => some (.accw o)
  | .accr => some (.accr o)
  | .accz => some (.accz o)
  | .bfmt => some (.bfmt o)
  | .bfmtr => some (.bfmtr o)
  | .spawn => some (.spawn o)
  | .exit => some .exit
  | .yield => some (if selIs o.t (fun t => min t 1) 1 then .yieldTimed o else .yieldSlot o)
  | .migr => some (.migr o)
  | .tqpush => some (.tqpush o)
  | .tqpop => some (.tqpop o)
  | .tqsteal => some (.tqsteal o)
  | .ccinit => some (if selIs o.t (fun t => t) 3 then .ccinitJob o else .ccinitPhase o)
  | .ccadd => some (.ccadd o)
  | .ccwait => some (.ccwait o)
  | .ccan => some (.ccan o)
  | .bset => some (if selIs o.t (fun t => t / 4 % 2) 1 then .bsetWrite o else .bsetRead o)
  | .bar => some (.bar o)
  | .barw => some (.barw o)
  | .pbind => some (.pbind o)
  | .punb => some (.punb o)
  | .pput => some (.pput o)
  | .pget => some (.pget o)
  | .pputv => some (.pputv o)
  | .pgetv => some (.pgetv o)
  | .ptry => some (.ptry o)
  | .pwdr => some (.pwdr o)
  | .cload => some (.cload o)
  | .cstart => some (.cstart o)
  | .cstop => some (if selIs o.t (fun t => t) 1 then .cstopFree o else .cstopStop o)
  | .cstat => some (if selIs o.t (fun t => t % 256) 1 then .cstatRegion o else if selIs o.t (fun t => t % 256) 2 then .cstatPort o else if selIs o.t (fun t => t % 256) 3 then .cstatBinding o else .cstatConnector o)
  | .wmark => some (.wmark o)
  | .widle => some (.widle o)
  | .wbind => some (.wbind o)
  | .wnext => some (.wnext o)
  | .wpub => some (.wpub o)
  | .wamend => some (.wamend o)
  | .wclose => some (if selIs o.t (fun t => t) 1 then .wcloseDiscard o else if selIs o.t (fun t => t) 2 then .wcloseStatus o else if selIs o.t (fun t => t) 3 then .wcloseWatermark o else .wcloseDrain o)
  | .osend => some (.osend o)
  | .oqcfg => some (if selIs o.t (fun t => t / 1024 % 2) 1 then .oqcfgWrite o else .oqcfgRead o)
  | .ostat => some (if selIs o.t (fun t => t / 1024 % 4) 1 then .ostatPort o else if selIs o.t (fun t => t / 1024 % 4) 2 then .ostatRelay o else .ostatQueue o)
  | .ocal => some (if selIs o.t (fun t => t / 2048 % 2) 1 then .ocalWrite o else .ocalRead o)
  | .owait => some (if selIs o.t (fun t => t / 32768 % 2) 1 then .owaitSlot o else .owaitTime o)
  | .trap => some (.trap o)
  | .tret => some (if selIs o.t (fun t => t) 1 then .tretSkip o else .tretReissue o)
  | .brk => some .brk
  | .jrnl => some (.jrnl o)
  | .jrcl => some (if selIs o.t (fun t => t / 64 % 4) 1 then .jrclReplay o else if selIs o.t (fun t => t / 64 % 4) 2 then .jrclRedirect o else .jrclFree o)
  | .plbi => some (if selIs o.t (fun t => t) 1 then .plbiCore o else if selIs o.t (fun t => t) 2 then .plbiModule o else .plbiAddress o)
  | .ctxs => some (.ctxs o)
  | .ctxl => some (.ctxl o)
  | .halt => some (if selIs o.t (fun t => t) 1 then .haltFence o else if selIs o.t (fun t => t) 2 then .haltUnfence o else .haltSelf o)
  | .domsw => some (.domsw o)
  | .waym => some (if selIs o.t (fun t => t / 65536 % 2) 1 then .waymRequest o else .waymRead o)
  | .scrub => some (.scrub o)
  | .preempt => some (if selIs o.t (fun t => t) 1 then .preemptHold o else if selIs o.t (fun t => t) 2 then .preemptRelease o else .preemptReady o)
  | _ => none

/-- The FI instruction of a major form. -/
def buildFI (m : Mnem) (o : OpI) : Option Instr :=
  match m with
  | .addi => some (.addi o)
  | .shli => some (.shli o)
  | .shri => some (.shri o)
  | .sari => some (.sari o)
  | .li => some (.li o)
  | .br => some (.br o)
  | .brp => some (.brp o)
  | .brn => some (.brn o)
  | .call => some (.call o)
  | .loop => some (.loop o)
  | .movs => some (.movs o)
  | .movsw => some (.movsw o)
  | _ => none

/-- The instruction with a parameter block of a major form. -/
def buildP (m : Mnem) (o : OpP) : Option Instr :=
  match m with
  | .cpyt => some (.cpyt o)
  | .mldw => some (.mldw o)
  | .mmul => some (.mmul o)
  | .mmuls => some (.mmuls o)
  | .mdrain => some (.mdrain o)
  | .launch => some (.launch o)
  | .graph => some (.graph o)
  | _ => none

/-- The major form and operands of an instruction; an event has no encoding. -/
def Instr.body : Instr → Option (Mnem × Body)
  | .add o => some (.add, .f2 o)
  | .sub o => some (.sub, .f2 o)
  | .addi o => some (.addi, .fi o)
  | .and o => some (.and, .f2 o)
  | .or o => some (.or, .f2 o)
  | .xor o => some (.xor, .f2 o)
  | .andn o => some (.andn, .f2 o)
  | .shl o => some (.shl, .f2 o)
  | .shr o => some (.shr, .f2 o)
  | .sar o => some (.sar, .f2 o)
  | .shli o => some (.shli, .fi o)
  | .shri o => some (.shri, .fi o)
  | .sari o => some (.sari, .fi o)
  | .mov o => some (.mov, .f2 o)
  | .li o => some (.li, .fi o)
  | .lea o => some (.lea, .f2 o)
  | .cmpeq o => some (.cmpeq, .f2 o)
  | .cmpne o => some (.cmpne, .f2 o)
  | .cmplt o => some (.cmplt, .f2 o)
  | .cmpltu o => some (.cmpltu, .f2 o)
  | .cmpge o => some (.cmpge, .f2 o)
  | .cmpgeu o => some (.cmpgeu, .f2 o)
  | .sel o => some (.sel, .f2 o)
  | .ldb o => some (.ldb, .f2 o)
  | .ldbu o => some (.ldbu, .f2 o)
  | .ldh o => some (.ldh, .f2 o)
  | .ldhu o => some (.ldhu, .f2 o)
  | .ldw o => some (.ldw, .f2 o)
  | .ldwu o => some (.ldwu, .f2 o)
  | .ldd o => some (.ldd, .f2 o)
  | .stb o => some (.stb, .f2 o)
  | .sth o => some (.sth, .f2 o)
  | .stw o => some (.stw, .f2 o)
  | .std o => some (.std, .f2 o)
  | .br o => some (.br, .fi o)
  | .brp o => some (.brp, .fi o)
  | .brn o => some (.brn, .fi o)
  | .jmp o => some (.jmp, .f2 o)
  | .call o => some (.call, .fi o)
  | .callr o => some (.callr, .f2 o)
  | .ret => some (.ret, .f2 ⟨0, 23, .imm 0, 0, 0, 0⟩)
  | .loop o => some (.loop, .fi o)
  | .nop => some (.nop, .f2 ⟨0, 0, .imm 0, 0, 0, 0⟩)
  | .movs o => some (.movs, .fi o)
  | .movsw o => some (.movsw, .fi o)
  | .pand o => some (.pand, .f2 o)
  | .por o => some (.por, .f2 o)
  | .pxor o => some (.pxor, .f2 o)
  | .pnot o => some (.pnot, .f2 o)
  | .pmovg o => some (.pmovg, .f2 o)
  | .pmovp o => some (.pmovp, .f2 o)
  | .mul o => some (.mul, .f2 o)
  | .mulh o => some (.mulh, .f2 o)
  | .mulhu o => some (.mulhu, .f2 o)
  | .div o => some (.div, .f2 o)
  | .divu o => some (.divu, .f2 o)
  | .rem o => some (.rem, .f2 o)
  | .remu o => some (.remu, .f2 o)
  | .min o => some (.min, .f2 o)
  | .max o => some (.max, .f2 o)
  | .minu o => some (.minu, .f2 o)
  | .maxu o => some (.maxu, .f2 o)
  | .clz o => some (.clz, .f2 o)
  | .ctz o => some (.ctz, .f2 o)
  | .popc o => some (.popc, .f2 o)
  | .brev o => some (.brev, .f2 o)
  | .bswap o => some (.bswap, .f2 o)
  | .rol o => some (.rol, .f2 o)
  | .ror o => some (.ror, .f2 o)
  | .ext o => some (.ext, .f2 o)
  | .ins o => some (.ins, .f2 o)
  | .sxb o => some (.sxb, .f2 o)
  | .sxh o => some (.sxh, .f2 o)
  | .sxw o => some (.sxw, .f2 o)
  | .zxb o => some (.zxb, .f2 o)
  | .zxh o => some (.zxh, .f2 o)
  | .zxw o => some (.zxw, .f2 o)
  | .fadd o => some (.fadd, .f2 o)
  | .fsub o => some (.fsub, .f2 o)
  | .fmul o => some (.fmul, .f2 o)
  | .fma o => some (.fma, .f2 o)
  | .fdiv o => some (.fdiv, .f2 o)
  | .fsqrt o => some (.fsqrt, .f2 o)
  | .fmin o => some (.fmin, .f2 o)
  | .fmax o => some (.fmax, .f2 o)
  | .fcmpeq o => some (.fcmpeq, .f2 o)
  | .fcmplt o => some (.fcmplt, .f2 o)
  | .fcmple o => some (.fcmple, .f2 o)
  | .fcvt o => some (.fcvt, .f2 o)
  | .fclass o => some (.fclass, .f2 o)
  | .ldfe o => some (.ldfe, .f2 o)
  | .ldff o => some (.ldff, .f2 o)
  | .stef o => some (.stef, .f2 o)
  | .stff o => some (.stff, .f2 o)
  | .sete o => some (.sete, .f2 o)
  | .probe o => some (.probe, .f2 o)
  | .lda o => some (.lda, .f2 o)
  | .strl o => some (.strl, .f2 o)
  | .stp o => some (.stp, .f2 o)
  | .ldm o => some (.ldm, .f2 o)
  | .stm o => some (.stm, .f2 o)
  | .aadd o => some (.aadd, .f2 o)
  | .aand o => some (.aand, .f2 o)
  | .aor o => some (.aor, .f2 o)
  | .axor o => some (.axor, .f2 o)
  | .amin o => some (.amin, .f2 o)
  | .amax o => some (.amax, .f2 o)
  | .aminu o => some (.aminu, .f2 o)
  | .amaxu o => some (.amaxu, .f2 o)
  | .aswap o => some (.aswap, .f2 o)
  | .acas o => some (.acas, .f2 o)
  | .fence o => some (.fence, .f2 o)
  | .watch o => some (.watch, .f2 o)
  | .wait o => some (.wait, .f2 o)
  | .cpy o => some (.cpy, .f2 o)
  | .cpyt o => some (.cpyt, .blk o)
  | .cpyw o => some (.cpyw, .f2 o)
  | .cpyc o => some (.cpyc, .f2 o)
  | .uien o => some (.uien, .f2 o)
  | .uiret => some (.uiret, .f2 ⟨0, 0, .imm 0, 0, 0, 0⟩)
  | .vld o => some (.vld, .f2 o)
  | .vst o => some (.vst, .f2 o)
  | .vlds o => some (.vlds, .f2 o)
  | .vsts o => some (.vsts, .f2 o)
  | .vgath o => some (.vgath, .f2 o)
  | .vscat o => some (.vscat, .f2 o)
  | .vadd o => some (.vadd, .f2 o)
  | .vsub o => some (.vsub, .f2 o)
  | .vmul o => some (.vmul, .f2 o)
  | .vfma o => some (.vfma, .f2 o)
  | .vmin o => some (.vmin, .f2 o)
  | .vmax o => some (.vmax, .f2 o)
  | .vabs o => some (.vabs, .f2 o)
  | .vneg o => some (.vneg, .f2 o)
  | .vand o => some (.vand, .f2 o)
  | .vor o => some (.vor, .f2 o)
  | .vxor o => some (.vxor, .f2 o)
  | .vshl o => some (.vshl, .f2 o)
  | .vshr o => some (.vshr, .f2 o)
  | .vcmp o => some (.vcmp, .f2 o)
  | .vsel o => some (.vsel, .f2 o)
  | .vrsum o => some (.vrsum, .f2 o)
  | .vrmax o => some (.vrmax, .f2 o)
  | .vrmin o => some (.vrmin, .f2 o)
  | .vcvt o => some (.vcvt, .f2 o)
  | .vbcast o => some (.vbcast, .f2 o)
  | .vperm o => some (.vperm, .f2 o)
  | .vext o => some (.vext, .f2 o)
  | .vins o => some (.vins, .f2 o)
  | .vdiv o => some (.vdiv, .f2 o)
  | .vsqrt o => some (.vsqrt, .f2 o)
  | .vdota o => some (.vdota, .f2 o)
  | .mlease o => some (.mlease, .f2 o)
  | .mrels => some (.mrels, .f2 ⟨0, 0, .imm 0, 0, 0, 0⟩)
  | .mldw o => some (.mldw, .blk o)
  | .mmul o => some (.mmul, .blk o)
  | .mmuls o => some (.mmuls, .blk o)
  | .mdrain o => some (.mdrain, .blk o)
  | .mstatStatus o => some (.mstat, .f2 o)
  | .mstatGovernor o => some (.mstat, .f2 o)
  | .mstatCompleted o => some (.mstat, .f2 o)
  | .mstatSegment o => some (.mstat, .f2 o)
  | .mzero => some (.mzero, .f2 ⟨0, 0, .imm 0, 0, 0, 0⟩)
  | .accw o => some (.accw, .f2 o)
  | .accr o => some (.accr, .f2 o)
  | .accz o => some (.accz, .f2 o)
  | .bfmt o => some (.bfmt, .f2 o)
  | .bfmtr o => some (.bfmtr, .f2 o)
  | .launch o => some (.launch, .blk o)
  | .spawn o => some (.spawn, .f2 o)
  | .exit => some (.exit, .f2 ⟨0, 0, .imm 0, 0, 0, 0⟩)
  | .yieldSlot o => some (.yield, .f2 o)
  | .yieldTimed o => some (.yield, .f2 o)
  | .migr o => some (.migr, .f2 o)
  | .tqpush o => some (.tqpush, .f2 o)
  | .tqpop o => some (.tqpop, .f2 o)
  | .tqsteal o => some (.tqsteal, .f2 o)
  | .ccinitPhase o => some (.ccinit, .f2 o)
  | .ccinitJob o => some (.ccinit, .f2 o)
  | .ccadd o => some (.ccadd, .f2 o)
  | .ccwait o => some (.ccwait, .f2 o)
  | .ccan o => some (.ccan, .f2 o)
  | .bsetRead o => some (.bset, .f2 o)
  | .bsetWrite o => some (.bset, .f2 o)
  | .bar o => some (.bar, .f2 o)
  | .barw o => some (.barw, .f2 o)
  | .graph o => some (.graph, .blk o)
  | .pbind o => some (.pbind, .f2 o)
  | .punb o => some (.punb, .f2 o)
  | .pput o => some (.pput, .f2 o)
  | .pget o => some (.pget, .f2 o)
  | .pputv o => some (.pputv, .f2 o)
  | .pgetv o => some (.pgetv, .f2 o)
  | .ptry o => some (.ptry, .f2 o)
  | .pwdr o => some (.pwdr, .f2 o)
  | .cload o => some (.cload, .f2 o)
  | .cstart o => some (.cstart, .f2 o)
  | .cstopStop o => some (.cstop, .f2 o)
  | .cstopFree o => some (.cstop, .f2 o)
  | .cstatConnector o => some (.cstat, .f2 o)
  | .cstatRegion o => some (.cstat, .f2 o)
  | .cstatPort o => some (.cstat, .f2 o)
  | .cstatBinding o => some (.cstat, .f2 o)
  | .wmark o => some (.wmark, .f2 o)
  | .widle o => some (.widle, .f2 o)
  | .wbind o => some (.wbind, .f2 o)
  | .wnext o => some (.wnext, .f2 o)
  | .wpub o => some (.wpub, .f2 o)
  | .wamend o => some (.wamend, .f2 o)
  | .wcloseDrain o => some (.wclose, .f2 o)
  | .wcloseDiscard o => some (.wclose, .f2 o)
  | .wcloseStatus o => some (.wclose, .f2 o)
  | .wcloseWatermark o => some (.wclose, .f2 o)
  | .osend o => some (.osend, .f2 o)
  | .oqcfgRead o => some (.oqcfg, .f2 o)
  | .oqcfgWrite o => some (.oqcfg, .f2 o)
  | .ostatQueue o => some (.ostat, .f2 o)
  | .ostatPort o => some (.ostat, .f2 o)
  | .ostatRelay o => some (.ostat, .f2 o)
  | .ocalRead o => some (.ocal, .f2 o)
  | .ocalWrite o => some (.ocal, .f2 o)
  | .owaitTime o => some (.owait, .f2 o)
  | .owaitSlot o => some (.owait, .f2 o)
  | .trap o => some (.trap, .f2 o)
  | .tretReissue o => some (.tret, .f2 o)
  | .tretSkip o => some (.tret, .f2 o)
  | .brk => some (.brk, .f2 ⟨0, 0, .imm 0, 0, 0, 0⟩)
  | .jrnl o => some (.jrnl, .f2 o)
  | .jrclFree o => some (.jrcl, .f2 o)
  | .jrclReplay o => some (.jrcl, .f2 o)
  | .jrclRedirect o => some (.jrcl, .f2 o)
  | .plbiAddress o => some (.plbi, .f2 o)
  | .plbiCore o => some (.plbi, .f2 o)
  | .plbiModule o => some (.plbi, .f2 o)
  | .ctxs o => some (.ctxs, .f2 o)
  | .ctxl o => some (.ctxl, .f2 o)
  | .haltSelf o => some (.halt, .f2 o)
  | .haltFence o => some (.halt, .f2 o)
  | .haltUnfence o => some (.halt, .f2 o)
  | .domsw o => some (.domsw, .f2 o)
  | .waymRead o => some (.waym, .f2 o)
  | .waymRequest o => some (.waym, .f2 o)
  | .scrub o => some (.scrub, .f2 o)
  | .preemptReady o => some (.preempt, .f2 o)
  | .preemptHold o => some (.preempt, .f2 o)
  | .preemptRelease o => some (.preempt, .f2 o)
  | _ => none

/-- The instruction of a major form with operands of its format. -/
def build (m : Mnem) : Body → Option Instr
  | .f2 o => buildF2 m o
  | .fi o => buildFI m o
  | .blk o => buildP m o

/-! ## Field legality (R22, R46, R47, R50) -/

/-- Whether a d or s field's register number is of its kind. Numbers 56 and 57 are the service core's (R25); the step refuses
them on a compute core. -/
def FKind.ok (fk : FKind) (n : Nat) : Bool :=
  match fk with
  | .zero => n == 0
  | .link => n == 23
  | .src => n < 44 || n == 56
  | .dst => n < 28 || (32 ≤ n && n < 56) || n == 57
  | .g => n < 24
  | .g4 => n ≤ 20
  | .g2 => n ≤ 22
  | .p => n < 32
  | .pp => n ≤ 30
  | .v => n ≤ 7
  | .k => (24 ≤ n && n < 28) || (32 ≤ n && n < 44)
  | .rel => n < 24

/-- Whether a form's third source can be a register (R46). -/
def TKind.takesReg : TKind → Bool
  | .none | .imm1 | .imm => false
  | _ => true

/-- Whether a form accepts an IMM halfword (R45, R61). -/
def TKind.takesImm : TKind → Bool
  | .src | .g | .vImm | .imm1 | .imm => true
  | _ => false

/-- Whether a form's REG halfword is required (R190, R299). -/
def TKind.needsReg : TKind → Bool
  | .gReq | .g2Req | .vReq => true
  | _ => false

/-- The kind of register t. -/
def TKind.regKind : TKind → FKind
  | .src | .srcReg => .src
  | .g2Req => .g2
  | .vReq | .vImm => .v
  | .p => .p
  | _ => .g

/-- FCVT's conversion codes (R75): two codes 0 to 10, not both integer, not the same floating-point format. -/
def fcvtOk (v : Nat) : Bool :=
  let dst := v / 16 % 16
  let src := v % 16
  let int := fun c => c < 4 || c == 10
  v < 256 && dst ≤ 10 && src ≤ 10 && !(int dst && int src) && dst != src

/-- Whether a third source is one the form accepts: a register of its kind, or an immediate where it may have one; a form
that accepts no IMM reads the immediate 0 without a REG halfword. -/
def thirdOk (k : TKind) : Third → Bool
  | .reg r => k.takesReg && k.regKind.ok r.toNat
  | .imm v => !k.needsReg && (k.takesImm || v.toNat == 0) && (k != .imm1 || fcvtOk v.toNat)

/-- Whether an etype code is one of the form's (R47, R190). -/
def EtKind.ok (k : EtKind) (e : Nat) : Bool :=
  match k with
  | .none => e == 0
  | .scope => e < 7
  | .all => true
  | .fp => 4 ≤ e
  | .int => e < 4
  | .w => e % 4 == 2 || e % 4 == 3
  | .dot => e < 7

/-- Whether a rounding code is legal (R47, R192). -/
def RndKind.ok (k : RndKind) (rnd e : Nat) : Bool :=
  rnd == 0 || (rnd ≤ 5 && (match k with
    | .none => false
    | .any => true
    | .fp => 4 ≤ e))

/-- The legality of an F2 opcode's operands (R50): field kinds, third source, element type, rounding, and a scale only on
LEA with a register index (R46, R62). -/
def legalOp (m : Mnem) (o : Op) : Bool :=
  let r := m.row
  r.d.ok o.d.toNat && r.s.ok o.s.toNat && thirdOk r.t o.t && r.et.ok o.et.toNat && r.rnd.ok o.rnd.toNat o.et.toNat &&
  (match o.t with
    | .reg _ => o.scale == 0 || m == .lea
    | .imm _ => o.scale == 0)

/-- A named or reserved field of a parameter block (R53): its word, whether it is the high half, its width, and what it may
hold: `val` any value or a marker, `lit` an 8-bit pair that is never a marker, `res` zero, `bits` a marker or a value with
only the low n bits. -/
inductive BKind where
  | val | lit | res | bits (n : Nat)
deriving DecidableEq, Repr

/-- A field of a parameter block: word, low bit, width, kind. -/
structure BField where
  word : Nat
  lo : Nat
  w : Nat
  kind : BKind
deriving DecidableEq, Repr

/-- The fields of each block, low field of a word first (R135, R226, R227, R228, R256, R258). -/
def Mnem.block : Mnem → List BField
  | .cpyt => [⟨0, 0, 32, .val⟩, ⟨1, 0, 32, .val⟩, ⟨2, 0, 16, .val⟩, ⟨2, 16, 16, .val⟩, ⟨3, 0, 16, .val⟩, ⟨3, 16, 16, .val⟩]
  | .mldw => [⟨0, 0, 32, .val⟩, ⟨1, 0, 32, .val⟩, ⟨2, 0, 16, .val⟩, ⟨2, 16, 16, .res⟩, ⟨3, 0, 32, .res⟩]
  | .mmul | .mmuls => [⟨0, 0, 32, .val⟩, ⟨1, 0, 16, .val⟩, ⟨1, 16, 16, .val⟩, ⟨2, 0, 16, .lit⟩, ⟨2, 16, 16, .val⟩,
      ⟨3, 0, 16, .val⟩, ⟨3, 16, 16, .bits 2⟩]
  | .mdrain => [⟨0, 0, 32, .val⟩, ⟨1, 0, 16, .lit⟩, ⟨1, 16, 16, .val⟩, ⟨2, 0, 16, .res⟩, ⟨2, 16, 16, .bits 3⟩,
      ⟨3, 0, 32, .res⟩]
  | .launch => [⟨0, 0, 32, .val⟩, ⟨1, 0, 32, .val⟩, ⟨2, 0, 16, .val⟩, ⟨2, 16, 16, .val⟩, ⟨3, 0, 32, .val⟩]
  | .graph => [⟨0, 0, 32, .val⟩, ⟨1, 0, 32, .val⟩, ⟨2, 0, 32, .res⟩, ⟨3, 0, 32, .res⟩]
  | _ => []

/-- Word n of a block. -/
def OpP.word (o : OpP) (n : Nat) : Nat :=
  match n with
  | 0 => o.w0.toNat
  | 1 => o.w1.toNat
  | 2 => o.w2.toNat
  | _ => o.w3.toNat

/-- The value a field of a block holds. -/
def BField.get (f : BField) (o : OpP) : Nat := o.word f.word / 2 ^ f.lo % 2 ^ f.w

/-- Whether a field value is a substitution marker (R53): top nibble 0xF in a 16- or 32-bit field that may hold one. -/
def BField.isMark (f : BField) (x : Nat) : Bool :=
  match f.kind with
  | .val | .bits _ => x / 2 ^ (f.w - 4) == 15
  | _ => false

/-- Whether a block field is legal (R3, R50, R53): a marker names g0 to g23 and has zero bits between. -/
def BField.ok (f : BField) (x : Nat) : Bool :=
  if f.isMark x then x / 64 % 2 ^ (f.w - 10) == 0 && x % 64 < 24
  else match f.kind with
    | .val | .lit => true
    | .res => x == 0
    | .bits n => x < 2 ^ n

/-- Whether a third source is a register. -/
def Third.isReg : Third → Bool
  | .reg _ => true
  | .imm _ => false

/-- The static legality of an instruction's operands (R50). -/
def legal (m : Mnem) : Body → Bool
  | .f2 o => m.row.form == .f2 && legalOp m o
  | .fi o => m.row.form == .fi && m.row.d.ok o.d.toNat
  | .blk o => m.row.form == .blk && legalOp m o.o && m.block.all (fun f => f.ok (f.get o))

/-- Whether trap-if-empty bits stand where they may (R48): tt only with a register t, ts not on FI. -/
def legalQ (q : Quals) : Body → Bool
  | .f2 o => !q.tt || o.t.isReg
  | .fi _ => !q.ts && !q.tt
  | .blk o => !q.tt || o.o.t.isReg

/-! ## Reading the halfwords (R43 to R49) -/

/-- What the chain before the opcode holds: the payloads of SRC, PAGE and REG, and the IMM payloads, outermost first. -/
structure Chain where
  n : Nat
  src : Option Nat
  page : Option Nat
  reg : Option Nat
  imms : List Nat
deriving DecidableEq, Repr

/-- An empty chain. -/
def Chain.empty : Chain := ⟨0, none, none, none, []⟩

/-- R49's loop: ranks SRC 0, PAGE 1, REG 2, IMM 3; `low` is the lowest rank that may come next. Answers the chain, the opcode
halfword and what follows it. -/
def readChain (low : Nat) (c : Chain) : List Half → Except DecodeError (Chain × Nat × List Half)
  | [] => .error .truncated
  | h :: hs =>
    let x := h.toNat
    if x < 0xF000 then .ok (c, x, hs)
    else if c.n = 4 then .error .chain
    else
      let pay := x % 1024
      match x / 1024 % 4 with
      | 3 => if 0 < low then .error .chain else readChain 1 { c with n := c.n + 1, src := some pay } hs
      | 2 => if 1 < low then .error .chain else readChain 2 { c with n := c.n + 1, page := some pay } hs
      | 1 => if 2 < low then .error .chain else readChain 3 { c with n := c.n + 1, reg := some pay } hs
      | _ => if 2 ≤ c.imms.length then .error .chain
             else readChain 3 { c with n := c.n + 1, imms := c.imms ++ [pay] } hs

/-- SRC's fields (R43). -/
def qualsOf (src : Nat) : Quals :=
  ⟨BitVec.ofNat 5 (src / 32), src / 16 % 2 == 1, src / 8 % 2 == 1, src / 4 % 2 == 1, src / 2 % 2 == 1⟩

/-- The assembled immediate (R45): base bits, then the IMM next to the opcode, then the outer one; the width and the value. -/
def assemble (w v : Nat) : List Nat → Nat × Nat
  | [] => (w, v)
  | [i] => (w + 10, v + i * 2 ^ w)
  | o :: i :: _ => (w + 20, v + i * 2 ^ w + o * 2 ^ (w + 10))

/-- An immediate of w bits widened to n bits, by its sign or with zeros. -/
def widen (n : Nat) (sx : Bool) (wv : Nat × Nat) : BitVec n :=
  if sx && 2 ^ (wv.1 - 1) ≤ wv.2 then BitVec.ofNat n (wv.2 + (2 ^ n - 2 ^ wv.1)) else BitVec.ofNat n wv.2

/-- Register t of a REG payload (R43). -/
def regT (reg : Nat) : Nat := reg / 32 + 32 * (reg / 4 % 2)

/-- The third source (R46) as the chain gives it. -/
def readThird (k : TKind) (sx : Bool) (c : Chain) : Except DecodeError Third :=
  let reg := c.reg.getD 0
  if c.imms.isEmpty then
    if k == .imm1 || k == .imm then .error .immediate
    else if c.reg.isSome && k.takesReg then .ok (.reg (BitVec.ofNat 6 (regT reg)))
    else if regT reg = 0 then .ok (.imm 0) else .error .fieldZero
  else if !k.takesImm || (k == .imm1 && c.imms.length != 1) then .error .immediate
  else if regT reg = 0 then .ok (.imm (widen 20 sx (assemble 0 0 c.imms))) else .error .fieldZero

/-- The operands of an F2 opcode halfword (R38, R43, R46). -/
def readOp (r : Row) (c : Chain) (x : Nat) : Except DecodeError Op :=
  match readThird r.t r.sx c with
  | .error e => .error e
  | .ok t =>
    let reg := c.reg.getD 0
    let pg := c.page.getD 0
    .ok ⟨BitVec.ofNat 6 (x / 32 % 32 + 32 * (reg / 16 % 2)),
      BitVec.ofNat 6 (x % 32 + 32 * (reg / 8 % 2)), t, BitVec.ofNat 2 (reg % 4), BitVec.ofNat 3 (pg / 8 % 8),
      BitVec.ofNat 3 (pg % 8)⟩

/-- The operands of an FI opcode halfword (R38, R45, R46): t, th, sh and scale are zero. -/
def readOpI (r : Row) (c : Chain) (x : Nat) : Except DecodeError OpI :=
  let reg := c.reg.getD 0
  if regT reg = 0 ∧ reg / 8 % 2 = 0 ∧ reg % 4 = 0 then
    .ok ⟨BitVec.ofNat 6 (x / 32 % 32 + 32 * (reg / 16 % 2)),
      widen 25 r.sx (assemble 5 (x % 32) c.imms)⟩
  else .error .fieldZero

/-- A word of a block, low halfword first (R53). -/
def wordOf (lo hi : Half) : BitVec 32 := BitVec.ofNat 32 (lo.toNat + 65536 * hi.toNat)

/-- The operands of an opcode and its block, if one follows (R39). -/
def readBody (r : Row) (c : Chain) (x : Nat) (hs : List Half) : Except DecodeError (Body × Nat) :=
  match r.form with
  | .f2 => (readOp r c x).map (fun o => (.f2 o, c.n + 1))
  | .fi => (readOpI r c x).map (fun o => (.fi o, c.n + 1))
  | .blk =>
    match hs with
    | h0 :: h1 :: h2 :: h3 :: h4 :: h5 :: h6 :: h7 :: _ =>
      (readOp r c x).map (fun o => (.blk ⟨o, wordOf h0 h1, wordOf h2 h3, wordOf h4 h5, wordOf h6 h7⟩, c.n + 9))
    | _ => .error .truncated

/-- The page a chain selects (R47, R49). -/
def pageOf (c : Chain) : Except DecodeError Nat :=
  match c.page with
  | none => .ok 0
  | some p => if p / 64 = 0 ∨ 8 ≤ p / 64 then .error .page else .ok (p / 64)

/-- A decoded instruction: what SRC gives it, the instruction, and its length in halfwords (R39). -/
structure Decoded where
  q : Quals
  i : Instr
  len : Nat
deriving DecidableEq, Repr

/-- R49 and R50: the instruction at the head of a halfword sequence. -/
def decode (hs : List Half) : Except DecodeError Decoded :=
  match readChain 0 .empty hs with
  | .error e => .error e
  | .ok (c, x, rest) =>
    match pageOf c with
    | .error e => .error e
    | .ok page =>
      match lookupOp page (x / 1024) with
      | none => .error .unassigned
      | some m =>
        match readBody m.row c x rest with
        | .error e => .error e
        | .ok (b, n) =>
          let q := qualsOf (c.src.getD 0)
          if c.src.getD 0 % 2 = 1 then .error .reserved
          else if legal m b && legalQ q b then
            match build m b with
            | some i => .ok ⟨q, i, n⟩
            | none => .error .operand
          else .error .operand

/-- A halfword of two bytes, low byte first. -/
def halfOf (lo hi : Byte) : Half := BitVec.ofNat 16 (lo.toNat + 256 * hi.toNat)

/-- The halfwords of a byte sequence; an odd last byte is left over. -/
def halves : List Byte → List Half
  | lo :: hi :: bs => halfOf lo hi :: halves bs
  | _ => []

/-- The two bytes of a halfword, low byte first. -/
def bytesOfHalf (h : Half) : List Byte := [BitVec.ofNat 8 h.toNat, BitVec.ofNat 8 (h.toNat / 256)]

/-- The decoder on the bytes of memory. -/
def decodeBytes (bs : List Byte) : Except DecodeError Decoded := decode (halves bs)

/-- The halfwords of a table word of n halfwords, most significant first: the table numbers the first halfword of a
two-halfword row (its PAGE halfword) as bits 31:16 (log 13). -/
def tableHalves : Nat → Nat → List Half
  | 0, _ => []
  | n + 1, w => BitVec.ofNat 16 (w / 65536 ^ n) :: tableHalves n w

/-- What the decoder reads from an instruction whose bits are w, numbered as spec/opcode_table.json numbers them (log 13);
what the row gives no bits is zero. -/
def decodeTableWord (nbits w : Nat) : Option Instr :=
  match decode (tableHalves ((nbits + 15) / 16) w ++ List.replicate 12 0) with
  | .ok x => some x.i
  | .error _ => none

/-! ## The encoder (R58) -/

/-- SRC's payload. -/
def srcPayload (q : Quals) : Nat :=
  q.pred.toNat * 32 + q.inv.toNat * 16 + q.ts.toNat * 8 + q.tt.toNat * 4 + q.td.toNat * 2

/-- The SRC halfword, only if there is a predicate or a trap-if-empty bit. -/
def encSrc (q : Quals) : List Half := if q = .plain then [] else [BitVec.ofNat 16 (0xFC00 + srcPayload q)]

/-- The PAGE halfword, exactly when the page is not 0. -/
def encPage (page rnd et : Nat) : List Half :=
  if page = 0 then [] else [BitVec.ofNat 16 (0xF800 + page * 64 + rnd * 8 + et)]

/-- Whether a REG halfword is needed: a register number above 31, a register t, or a scale. -/
def needsReg (d s : Nat) (t : Third) (scale : Nat) : Bool := 32 ≤ d || 32 ≤ s || scale != 0 || t.isReg

/-- The number of register t, 0 for an immediate. -/
def Third.regNum : Third → Nat
  | .reg r => r.toNat
  | .imm _ => 0

/-- The REG halfword. -/
def encReg (need : Bool) (d s t scale : Nat) : List Half :=
  if need then [BitVec.ofNat 16 (0xF400 + t % 32 * 32 + d / 32 * 16 + s / 32 * 8 + t / 32 * 4 + scale)] else []

/-- Whether an n-bit value is the widening of its low w bits. -/
def fits (n w : Nat) (sx : Bool) (v : Nat) : Bool :=
  if sx then v < 2 ^ (w - 1) || 2 ^ n - 2 ^ (w - 1) ≤ v else v < 2 ^ w

/-- How many IMM halfwords an F2 immediate needs: none for an absent third source, else the fewest that hold it. -/
def immCount (k : TKind) (need : Bool) (sx : Bool) (t : Third) : Nat :=
  match t with
  | .reg _ => 0
  | .imm v =>
    if !k.takesImm then 0
    else if v.toNat = 0 ∧ !need ∧ k != .imm1 ∧ k != .imm then 0
    else if fits 20 10 sx v.toNat then 1 else 2

/-- How many IMM halfwords an FI immediate needs. -/
def immCountI (sx : Bool) (v : Nat) : Nat := if fits 25 5 sx v then 0 else if fits 25 15 sx v then 1 else 2

/-- The IMM halfwords that carry a value's bits from bit w up, outermost first. -/
def encImm (cnt w v : Nat) : List Half :=
  match cnt with
  | 0 => []
  | 1 => [BitVec.ofNat 16 (0xF000 + v / 2 ^ w % 1024)]
  | _ => [BitVec.ofNat 16 (0xF000 + v / 2 ^ (w + 10) % 1024), BitVec.ofNat 16 (0xF000 + v / 2 ^ w % 1024)]

/-- The immediate's value, 0 for a register t. -/
def Third.immNat : Third → Nat
  | .reg _ => 0
  | .imm v => v.toNat

/-- The halfwords of an F2 opcode with its chain. -/
def encOp (q : Quals) (r : Row) (o : Op) : List Half :=
  let need := needsReg o.d.toNat o.s.toNat o.t o.scale.toNat
  encSrc q ++ encPage r.page o.rnd.toNat o.et.toNat ++
  encReg need o.d.toNat o.s.toNat o.t.regNum o.scale.toNat ++
  encImm (immCount r.t need r.sx o.t) 0 o.t.immNat ++
  [BitVec.ofNat 16 (r.op6 * 1024 + o.d.toNat % 32 * 32 + o.s.toNat % 32)]

/-- The halfwords of an FI opcode with its chain. -/
def encOpI (q : Quals) (r : Row) (o : OpI) : List Half :=
  encSrc q ++ encPage r.page 0 0 ++ encReg (32 ≤ o.d.toNat) o.d.toNat 0 0 0 ++
  encImm (immCountI r.sx o.imm.toNat) 5 o.imm.toNat ++
  [BitVec.ofNat 16 (r.op6 * 1024 + o.d.toNat % 32 * 32 + o.imm.toNat % 32)]

/-- A block word's two halfwords. -/
def encWord (w : BitVec 32) : List Half := [BitVec.ofNat 16 w.toNat, BitVec.ofNat 16 (w.toNat / 65536)]

/-- The halfwords of an instruction's operands. -/
def encBody (q : Quals) (r : Row) : Body → List Half
  | .f2 o => encOp q r o
  | .fi o => encOpI q r o
  | .blk o => encOp q r o.o ++ encWord o.w0 ++ encWord o.w1 ++ encWord o.w2 ++ encWord o.w3

/-- The canonical encoding of an instruction with its SRC fields (R58); an event has none. -/
def encode (q : Quals) (i : Instr) : List Half :=
  match i.body with
  | some (m, b) => encBody q m.row b
  | none => []

/-- The length of the chain that the canonical encoding of an F2 opcode has. -/
def chainLen (q : Quals) (r : Row) (o : Op) : Nat :=
  let need := needsReg o.d.toNat o.s.toNat o.t o.scale.toNat
  (encSrc q).length + (if r.page = 0 then 0 else 1) + (if need then 1 else 0) + immCount r.t need r.sx o.t

/-- Whether the canonical chain exists: at most four halfwords (R44), and no REG beside an absent third source that a REG
would turn into a register (R46). -/
def encodableOp (q : Quals) (r : Row) (o : Op) : Bool :=
  chainLen q r o ≤ 4 &&
  (match o.t with
    | .reg _ => true
    | .imm _ => !(needsReg o.d.toNat o.s.toNat o.t o.scale.toNat && r.t.takesReg && !r.t.takesImm))

/-- Whether an instruction's operands have a canonical encoding. -/
def encodable (q : Quals) (r : Row) : Body → Bool
  | .f2 o => encodableOp q r o
  | .fi o => (encSrc q).length + (if r.page = 0 then 0 else 1) + (if 32 ≤ o.d.toNat then 1 else 0) +
      immCountI r.sx o.imm.toNat ≤ 4
  | .blk o => encodableOp q r o.o

end Sys2Proof
end

