-- ==== Sys2Proof/Config.lean ====
section
/-! DEFINITION. What an implementation fixes and the manual leaves open: opaque constants, so that no proof can lean on a
value of them (logs 8 and 9), and the fixed counts the manual states. -/

namespace Sys2Proof.Config

/-- SHA-384 of a measurement register joined with an image digest (25_host_and_boot R402). DESIGN CHOICE (log 8): the digest
function is a free value here; safe, because no number is chosen. -/
opaque sha384 : BitVec 384 → BitVec 384 → BitVec 384

/-- The signature pair of an attestation (R402): nonce, M1, M3, package id, version, LMS leaf. DESIGN CHOICE (log 8). -/
opaque attestSign : List Byte → BitVec 384 → BitVec 384 → Nat → Nat → Nat → List Byte

/-- A value the manual leaves open, one per index (log 9): the model applies it to a counter it advances. -/
opaque freeValue : Nat → DW

/-- What the root of trust finds of a firmware image (R401): whether it is the loader rather than Plynvas, whether each signature
verifies (ECDSA, LMS), its security version and its digest. DESIGN CHOICE (log 8). -/
opaque judge : List Byte → Bool × Bool × Bool × Nat × BitVec 384

/-- The estimated draw, in watts, of a running multiply command (R18, R222): FP64 mode, rows, columns and K. No rule gives it
(log 9). -/
opaque commandDraw : Bool → Nat → Nat → Nat → Nat

/-- The room of a die's connector store beyond one image of the greatest length (R293, R304); no rule gives its size (log 23). -/
opaque storeExtra : Nat

/-- The entries of a PLB beyond four; no rule gives its size (R344, log 121). -/
opaque plbExtra : Nat

/-- The entries of a PLB. -/
def plbEntries : Nat := 4 + plbExtra

/-- The entries that a group's write queue can hold; no rule gives its size (R89, log 123). -/
opaque writeQueueRoom : Nat

/-- The row of a channel that a byte of it lies in; no rule gives it (R388, R390, log 12). -/
opaque rowOf : Nat → Nat

/-- The bank of a channel's row; no rule gives it (R390, log 12). -/
opaque bankOf : Nat → Nat

/-- The estimated draw of everything else in a cycle (R18), in watts; no rule gives it (log 9). -/
opaque otherDraw : Nat → Nat

/-- The bytes of a partition's image in the Bandbox, by the number of its save and the place: their layout is not given (R353, log 75). -/
opaque imageByte : Nat → Nat → Byte

/-- The cycles that reading an image from DRAM adds to an exchange (R353), by the number of the exchange (log 75). -/
opaque restoreExtra : Nat → Nat

/-- How many links up a switch has beyond one; no rule gives their number (R13, R394, log 120). -/
opaque upExtra : Nat

/-- Which link up leads a switch's packets to a destination: a fixed function of the destination, which no rule gives (R13, log 120). -/
opaque upLink : Nat → Nat → Nat

/-- The links up of a switch. -/
def upLinks : Nat := 1 + upExtra % 31

end Sys2Proof.Config
end

