-- ==== Sys2Proof/Machine/State.lean ====
section
/-! DEFINITION. The state of the module as plain data: everything the manual gives the machine (INVENTORY.md, State). -/

namespace Sys2Proof.Machine

/-- A sparse table: entries in rising key order, an absent key meaning the default its reader names. -/
abbrev Map (α : Type) := List (Nat × α)

/-! ## Registers and threads -/

/-- A register with its full/empty bit (R23), its mark (R414), and whether a result is owed to it (R23). -/
structure RegCell (w : Nat) where
  val : BitVec w
  full : Bool
  mark : Bool
  owed : Bool
deriving DecidableEq, Repr

/-- The name of a register with a full/empty bit (R23). -/
inductive RegRef where
  | g (n : Nat)
  | p (n : Nat)
  | v (n : Nat)
deriving DecidableEq, Repr

/-- An item (R273): data part and meta. -/
structure Item where
  data : VReg
  tag : DW
deriving DecidableEq, Repr

/-- What k0-k15 of a slot is bound to (R275) and the item delivered to it (R24). -/
structure Binding where
  handle : BitVec 32
  port : PortId
  isIn : Bool
  isV : Bool
  item : Option Item
  taking : Bool
deriving DecidableEq, Repr

/-- The shadow set of the user completion handler (R139). -/
structure Shadow where
  pc : Addr
  p : Vector (RegCell 1) 32
  g : Vector (RegCell 64) 4
deriving DecidableEq, Repr

/-- The thread's one watch (R131, R132): none, armed at an address with a request id, a held wake, or a held refusal. -/
inductive Watch where
  | none
  | armed (id : Nat) (a : Addr)
  | wake (v : DW)
  | refused (a : Addr)
deriving DecidableEq, Repr

/-- Lease states (R217). -/
inductive Lease where
  | none
  | requested
  | held
  | lapsed
deriving DecidableEq, Repr

/-- Release scopes (R103), in widening order. -/
inductive Scope where
  | thread
  | core
  | cluster
  | die
  | package
  | system
deriving DecidableEq, Repr

/-- What a thread waits for. Constructors that hold the thread (its boundary comes only when the instruction ends) are told
apart by `Park.holds`. -/
inductive Park where
  | reg (r : RegRef)             -- a register to become full (R26)
  | queue (n : Nat)              -- a record in q0-q3 (R26)
  | port (n : Nat)               -- the pending operation of the port k register n is bound to (R275)
  | take (n : Nat)               -- the take sent for k register n (R24)
  | fifo (code : Nat)            -- room in an operand FIFO (R33)
  | fill (line : Nat)            -- an instruction-cache line (R41)
  | plb (va : Addr)              -- a PLB fill (R344)
  | release (sc : Scope)         -- release conditions (R103)
  | acquire                      -- an acquire still to return (R102)
  | storeBuffer (n : Nat)        -- room for n stores (R117)
  | journal                      -- a FREE journal entry (R124)
  | owedAny                      -- no result owed to any register (R21, R260)
  | owedFlags                    -- no result owed that can set FMODE flags (R71)
  | owedRegs                     -- none owed to g20-g23 or p1-p31 (R140, R369, R380)
  | loc (va : Addr) (n : Nat)    -- an own write to these bytes to be performed (R124, R206)
  | gate (d : Nat)               -- a home die's knowledge of the own die's clock (R106)
  | sync (id : Nat)              -- a synchronising access at its home (R119); holds
  | word (va : Addr) (want : Bool) -- a swapped waiter (R120)
  | watch                        -- the watch's wake (R132)
  | copyAccept                   -- acceptance by the copy engine (R133); holds
  | plankAccept                  -- acceptance by the Plank (R220); holds
  | lease                        -- the grant (R225)
  | answer (id : Nat)            -- the answer of a home or record (R232, R234, R300); holds
  | launchRec (die : Nat)        -- a free launch record (R257)
  | graphRec (die : Nat)         -- a free graph record (R258)
  | phaseRec (part : Nat)        -- a free phase record (R265)
  | seedRoom (c : Key)           -- room in a seed area (R259)
  | taskRoom (c : Key)           -- room in a task area (R247)
  | counter (h : BitVec 32)      -- a counter to be DONE (R267); holds
  | counterFull (h : BitVec 32)  -- a refused CCWAIT (R267); holds
  | barrier (n : Nat) (e : Nat)  -- the release of an epoch (R270)
  | barrierArrival (n : Nat)     -- the release that frees a second arrival (R270)
  | cycle (t : Nat)              -- CYCLE reaching a deadline (R261)
  | yield (id : Nat)             -- a yielded context (R261)
  | conRec (die len : Nat)       -- a free connector record, and room for len bytes of image (R304)
  | brimFree (c : Key)           -- a free Brim binding (R333)
  | wake2                        -- a wake record in q2 (R334)
  | pubEntry (c : Key) (b : Nat) -- an emptied publication entry (R335)
  | queueRoom (q : Nat)          -- a send queue holding 64 messages (R160)
  | pushRoom (q : Nat)           -- the same, for a command completed by a push (R33)
  | bytesHeld (id : Nat)         -- an OSEND descriptor (R160)
  | rotor (d : Nat) (was : Bool) (w : Option (Nat × Nat)) -- RTIME, or the guard end of a slot of a port, for a register that was full or not (R164)
  | wayPend (c : Key)            -- WMASK.PEND (R91)
  | evq                          -- an event (R25)
  | msg                          -- an outgoing message still being sent (R25)
  | halt                         -- HALT mode 0 (R361)
  | migrate (cl : Key)           -- a migration reservation (R248)
  | owedV                        -- no result owed to a vector register (R207)
  | quiet (k : Key) (tid : Nat)  -- a slot's thread to stand where its context may leave (R360)
  | punb (n : Nat)               -- the completion PUNB waits for (R300); holds
deriving DecidableEq, Repr

/-- Whether the wait holds its thread: then the thread stands at no boundary (R367). -/
def Park.holds : Park → Bool
  | .sync _ | .copyAccept | .plankAccept | .answer _ | .counter _ | .counterFull _ | .release _ | .launchRec _
  | .graphRec _ | .conRec _ _ | .brimFree _ | .bytesHeld _ | .punb _ => true
  | _ => false

/-- A trap still to be entered (R369): its cause, address value and operand index. -/
structure Entry where
  cause : Nat
  a : Nat
  src : Nat
deriving DecidableEq, Repr

/-- How a slot's thread stands toward its issue turns (R34, R36, R371): ready; ready to issue again an instruction that still
holds it, so that no boundary comes first (R367); parked; dropped by a page fault, of its instruction or of the frame of a trap that
it enters; waiting to enter a trap handler whose cause, address and operand index are given (R369); or ending (R260). -/
inductive Run where
  | ready
  | again
  | parked (p : Park)
  | dropped (va : Addr) (w : Bool) (trap : Option Entry)
  | entering (cause addr src : Nat)
  | ending
deriving DecidableEq, Repr

/-- An accepted copy command (R133): issuing slot, number, tags; for a fill its value and the full/empty bit it leaves
(R136); rows of cnt elements each, `dpitch` and `spitch` bytes apart (R135); the formats in use, in the layout of R178 (R180,
R182); its progress as the current row and the elements and bytes done in it; the status of R137 once it failed; the
address of a page fault it is stalled on (R413); and the 256-byte blocks that bursts have brought for its current unit (R88). -/
structure CopyCmd where
  k : Key
  tid : Nat
  seq : BitVec 32
  part : Nat
  dom : Nat
  launch : BitVec 32
  fill : Option (DW × Bool)
  dst : Nat
  src : Nat
  cnt : Nat
  rows : Nat
  dpitch : Nat
  spitch : Nat
  dfmt : DW
  sfmt : DW
  row : Nat
  done : Nat
  dpos : Nat
  spos : Nat
  status : Byte
  stalled : Option Addr
  got : List (Nat × Nat)
deriving DecidableEq, Repr

/-- Plank commands (R226 to R229) with the operands read at issue and acceptance. -/
inductive PlankOp where
  | ldw (src len woff : Nat)
  | mul (sparse zero : Bool) (a apitch bpitch k rows cols woff : Nat)
  | drain (dst dpitch rows cols rnd : Nat) (round clear : Bool)
  | zero
deriving DecidableEq, Repr

/-- An accepted Plank command (R220, R221): fa is A's or the source's or the destination's format, fb the
weights'; the bytes or units it has written, the flags its roundings have set, and the 256-byte blocks that bursts have brought for
its current access (R88), and the status it has ended with while its last writes drain (R111). -/
structure PlankCmd where
  k : Key
  tid : Nat
  seq : BitVec 32
  part : Nat
  dom : Nat
  launch : BitVec 32
  op : PlankOp
  fa : DW
  fb : DW
  started : Bool
  done : Nat
  flags : BitVec 5
  stalled : Option Addr
  got : List (Nat × Nat)
  ended : Option Nat
deriving DecidableEq, Repr

/-- A command that its thread has issued and that is not yet accepted (R133, R160, R220), with the registers it read at issue
(R114): a copy command whose formats are still those of its suffix, a Plank command whose address is still to be popped from the
operand FIFO when `fifo` is set (R224), or an OSEND with the descriptor it read. -/
inductive Pend where
  | copy (c : CopyCmd)
  | plank (c : PlankCmd) (fifo : Bool)
  | osend (queue src len : Nat) (rdst rcw : Addr)
deriving DecidableEq, Repr

/-- A thread: its context packet (R19) and its slot state (R20); `tid` is the model's own name of it, by which records, wakes
and completions find it wherever its context stands. `declined` holds the address of an instruction whose page fault Plynvas
declined and that of the fault (R371); `took` the register numbers whose records and items a push that still holds its thread will
use up when its command is accepted (R24, R33). `leaving` is set while a swap out of its slot is under way (R245, R252), to true
when PREEMPT mode 1 asked for it. -/
structure Thread where
  tid : Nat
  g : Vector (RegCell 64) 24
  p : Vector (RegCell 1) 32
  v : Vector (RegCell 512) 8
  pc : Addr
  fmode : BitVec 32
  ths : DW
  waitlim : BitVec 40
  retrylim : BitVec 16
  launchid : BitVec 32
  graphid : BitVec 32
  trapcause : BitVec 16
  trappc : Addr
  trapaddr : Addr
  uivec : Addr
  qmap : BitVec 48
  pmeta : DW
  part : BitVec 5
  domain : BitVec 12
  k : Vector (Option Binding) 16
  fifo : Vector (List DW) 4
  shadow : Shadow
  tgt : Vector (Option Nat) 4
  watch : Watch
  lease : Lease
  leaseOwe : Option (Nat × Nat)
  q0 : List DW
  q1 : List DW
  q2 : List (List DW)
  q2pos : Nat
  q3 : List DW
  copySeq : BitVec 32
  plankSeq : BitVec 32
  asyncTraps : List (Byte × Addr)
  duty : List (Nat × Nat)
  declined : Option (Addr × Addr)
  run : Run
  pend : Option Pend
  took : List Nat
  leaving : Option Bool
  npc : Addr
  waitId : Nat
  readyAt : Nat
  lastIssue : Option Nat
  tries : Nat
deriving DecidableEq, Repr

/-! ## Cores -/

/-- One aligned piece of a memory access: virtual address, physical place, width in bytes, and for a write its data. -/
structure Piece where
  va : Nat
  loc : Nat
  n : Nat
  data : VReg
deriving DecidableEq, Repr

/-- An entry of the core's store buffer (R100): the storing slot and thread, its pieces in draining order (R194), and whether a
sibling slot has read it (R104). -/
structure StoreEnt where
  id : Nat
  k : Key
  tid : Nat
  launch : BitVec 32
  part : Nat
  dom : Nat
  pieces : List Piece
  bad : Option Byte
  sent : Bool
  seen : Bool
deriving DecidableEq, Repr

/-- Journal entry states (R374). -/
inductive JState where
  | pending
  | refused (cause : Byte)
deriving DecidableEq, Repr

/-- A journal entry that is not FREE (R374), with its place, its domain, its number in the order of issue, and whether
its write was sent. -/
structure JEnt where
  k : Key
  tid : Nat
  dom : Nat
  loc : Nat
  id : Nat
  left : Bool
  part : Nat
  launch : BitVec 32
  a : Addr
  data : DW
  st : JState
  replay : Option Nat
deriving DecidableEq, Repr

/-- A range table entry (R343), as the PLB holds it. -/
structure Range where
  dom : Nat
  base : Nat
  last : Nat
  hdie : Nat
  hgrp : Nat
  span4 : Bool
  x : Bool
  w : Bool
  rd : Bool
deriving DecidableEq, Repr

/-- Barrier register b0-b3 of a core (R249) with what its arrival sweep has received (R250, R270). -/
structure Barrier where
  reg : DW
  arrived : Bool
  heldArr : Bool
  rowIn : Bool
  colIn : Bool
deriving DecidableEq, Repr

/-- A context in the context cache or backing area (R252): where it came from, whether it is ready and since when, and
whether PREEMPT mode 1 holds it. -/
structure Ctx where
  id : Nat
  slot : Key
  th : Thread
  ready : Option Nat
  hold : Bool
deriving DecidableEq, Repr

/-- A step of the machine that is due, with its operands. -/
structure Ev where
  i : Instr
  arg : Arg
deriving DecidableEq, Repr

/-- A line of a core's data cache (R87): domain, virtual line number and place (R81), its 32 bytes, and the full/empty bits of its
four words as they stood when it was filled (R93). -/
structure DLine where
  dom : Nat
  tag : Nat
  loc : Nat
  data : BitVec 256
  fe : BitVec 4
deriving DecidableEq, Repr

/-- A line of a core's instruction cache (R41, R87). -/
structure ILine where
  dom : Nat
  tag : Nat
  data : BitVec 256
deriving DecidableEq, Repr

/-- A line of a vault slice's cache ways (R86): domain, virtual line number and place (R81), the way that holds it, and whether it
is dirty. Its bytes are those of memory at its place (log 10). -/
structure VLine where
  dom : Nat
  tag : Nat
  loc : Nat
  way : Nat
  dirty : Bool
deriving DecidableEq, Repr

/-- A core (R19, R34, R87, R100, R249, R252, R368, R374). Slots are kept in `State.threads`. Both caches list their lines with the
one used last first. -/
structure Core where
  sbuf : List StoreEnt
  journal : Map JEnt
  bars : Vector Barrier 4
  tvec : Addr
  tframe : Addr
  plb : List Range
  icache : List ILine
  dcache : List DLine
  cache : List Ctx
  backing : List Ctx
  stopped : Bool
  evq : List DW
  msgOut : List DW
  msgBusy : Bool
deriving DecidableEq, Repr

/-! ## Requests in flight and owed results -/

/-- Atomic operations (R127). -/
inductive Aop where
  | add | and | or | xor | min | max | minu | maxu | swap | cas
deriving DecidableEq, Repr

/-- Synchronising accesses (R119). -/
inductive Sop where
  | ldfe | ldff | stef | stff
deriving DecidableEq, Repr

/-- An exact operand of an accumulation (R185): a value num / 2^exp with sign in num, an infinity, or NaN. -/
inductive Exact where
  | fin (neg : Bool) (mant : Nat) (exp : Int)
  | inf (neg : Bool)
  | nan (signalling : Bool)
deriving DecidableEq, Repr

/-- What a request asks of its home; a word of an LDM gives its register, its index and the number of words. -/
inductive ReqKind where
  | load (dest : Nat) (n : Nat) (signed : Bool) (acq : Bool)
  | vload (dest : Nat) (w : Nat)
  | ldm (dest i n : Nat)
  | store (rel : Bool)
  | strl
  | stp (j : Nat)
  | sync (op : Sop) (reg : Nat) (data : DW) (final : Bool)
  | sete
  | probe (p : Nat)
  | atomic (op : Aop) (reg : Nat) (t cmp : DW)
  | accr (reg et rm : Nat)
  | acc (xs : List Exact)
  | accz
  | watch (rel : Nat) (cmp : DW)
  | fetch (va : Addr)
deriving DecidableEq, Repr

/-- What a home answers a request (R97): the value of its destination and the FMODE flags, or the exact trap that it ends in. -/
structure Ret where
  v : VReg
  flags : BitVec 5
  trap : Option (Nat × Nat)
deriving DecidableEq, Repr

/-- A request in flight: issuing slot and thread, tags, pieces, the release scope it must meet before it leaves (R103), the die clock it
carries (R105), the address of its instruction and of the next one, whether the register it owes was full at issue, whether it has
left its core, its die, and reached its home, the cycle and the number of its arrival there (R128: its clock condition having held),
whether it missed the vault and, if so, whether its burst has come (R88), whether it stands in the home's waiter table (R121), and its
answer once it is performed and on its way back. -/
structure Req where
  id : Nat
  k : Key
  tid : Nat
  launch : BitVec 32
  part : Nat
  dom : Nat
  kind : ReqKind
  pieces : List Piece
  rel : Option Scope
  clk : List Nat
  ipc : Addr
  npc : Addr
  was : Bool
  left : Bool
  out : Bool
  here : Bool
  arr : Option (Nat × Nat)
  miss : Option Bool
  waiting : Bool
  fin : Option Ret
deriving DecidableEq, Repr

/-- A write performed at its home whose acknowledgement has not reached its core yet (R97, R103): its number, core, journal entry if it
was posted (R124), thread, domain, partition and launch. -/
structure AckDue where
  id : Nat
  core : Key
  jent : Option Nat
  tid : Nat
  dom : Nat
  part : Nat
  launch : BitVec 32
deriving DecidableEq, Repr

/-- Where an owed result outside the register files goes when it is produced (R276, R33). -/
inductive OutDest where
  | kreg (n : Nat)
  | qreg (n : Nat)
deriving DecidableEq, Repr

/-- A counter's adjustment on its way to the record (R266, R340): handle, partition, amount, the core that made it and when. -/
structure Adj where
  h : BitVec 32
  part : Nat
  t : Int
  core : Key
  cyc : Nat
deriving DecidableEq, Repr

/-- A result owed (R23): its register writes, its offer or push if the destination is a k or q register, its FMODE flags,
whether its instruction can set flags (R71), whether its return is an acquire (R102), and the adjustment whose old COUNT it is to be, if
that is still to be applied (R340). -/
structure Owed where
  id : Nat
  k : Key
  writes : List (RegRef × VReg)
  out : Option (OutDest × DW)
  flags : BitVec 5
  fp : Bool
  acq : Bool
  adj : Option Adj
deriving DecidableEq, Repr

/-- An armed watch in a home's watch table (R130). -/
structure WatchEnt where
  id : Nat
  tid : Nat
  loc : Nat
  rel : Nat
  cmp : DW
deriving DecidableEq, Repr

/-- A swapped waiter in a home's waiter table (R120): the thread tid, of a core, waits for the word to become
full (or empty). -/
structure Waiter where
  tid : Nat
  core : Key
  loc : Nat
  want : Bool
deriving DecidableEq, Repr

/-! ## Engines -/

/-- Accumulator states (R211). -/
inductive Accu where
  | exact (hdr : BitVec 4) (v : BitVec 640)
  | f64 (x : DW)
deriving DecidableEq, Repr

/-- A Plank (R209 to R222): absent accumulators are EMPTY, absent weight bytes and segment formats 0. `granted` is the cycle of the
grant (R225), `since` the cycle from which the lease's cycles count (R218), `govAt` the last cycle that `govDelay` counted. -/
structure Plank where
  acc : Map Accu
  wbuf : List Host.Cell
  segFmt : Map DW
  queue : List PlankCmd
  holder : Option Nat
  granted : Nat
  since : Nat
  cmds : Nat
  lastKey : Nat
  govDelay : Nat
  govAt : Nat
  completed : Nat
  gov : Bool
  retired : Bool
deriving DecidableEq, Repr

/-- Window states (R326); an absent window is OPEN. An amending window holds the number its publication must carry. -/
inductive Win where
  | woken
  | published (n : Nat)
  | amending (n : Nat)
deriving DecidableEq, Repr

/-- What reaches a Brim for a binding (R320, R324, R325): a record, or a watermark message. -/
inductive BrimIn where
  | item (x : Item)
  | mark (w : BitVec 48) (idle : Bool)
deriving DecidableEq, Repr

/-- A Brim binding in use (R322 to R336); `dead` once a pane header could not be written (R392). -/
structure BrimB where
  tid : Nat
  part : Nat
  dom : Nat
  port : PortId
  tlPort : Option PortId
  isV : Bool
  slide : Nat
  npw : Nat
  late : Nat
  paneBase : Nat
  cap : Nat
  npane : Nat
  pubBase : Nat
  npub : Nat
  wb : BitVec 48
  idle : Bool
  p0 : Nat
  counts : Map Nat
  wins : Map Win
  maxPane : Option Nat
  drop : Nat
  ovf : Nat
  lateCnt : Nat
  hold : Option Item
  waiting : List BrimIn
  tlWait : Bool
  drain : Bool
  dead : Bool
  tail : Nat
deriving DecidableEq, Repr

/-- A record slot of a Brim: its generation (R333) and the binding if it is in use. -/
structure BrimRec where
  gen : BitVec 11
  b : Option BrimB
deriving DecidableEq, Repr

/-- An entry of a vault write buffer or a DRAM write queue (R113): the domain of its writer, its place, the writing thread and the
number of the write (both 0 for an engine's), the engine that made it, the cycle in which it became the oldest of its domain, and what
is due when it drains. -/
structure WEnt where
  dom : Nat
  loc : Nat
  tid : Nat
  id : Nat
  eng : Option Key
  ready : Option Nat
  due : List Ev
deriving DecidableEq, Repr

/-- Who waits for a burst at a group's memory port (R88): a request, a cluster's copy engine, a group's Plank, the rotor
interface reading the source of a message of a send queue, or the module's rotor and Ethernet units for what comes from outside. -/
inductive Asks where
  | req (id : Nat)
  | copy (cl : Key)
  | plank (g : Key)
  | osend (q seq : Nat)
  | io
deriving DecidableEq, Repr

/-- One that waits for a burst, with the domain and address of its access. -/
structure Ask where
  who : Asks
  dom : Nat
  va : Nat
deriving DecidableEq, Repr

/-- A cluster (R11). Absent WSHARE masks are 0; absent format registers hold their reset value while the way is scratch. `lines` are
the lines of its cache ways, the one used last first (R86); `wbuf` its vault write buffer and the domain it served last (R113);
`grants` gives for each way the source last granted and the cycle of that access, `near` the core last granted at the near port, and
`atomAt` the cycle of the last atomic (R95, R128). -/
structure Cluster where
  wmask : DW
  wshare : Map (BitVec 16)
  bfmt : Map DW
  copyq : List CopyCmd
  copyRR : Nat
  swapped : List Waiter
  watches : List WatchEnt
  seeds : List Seed
  tasks : List (List DW)
  inbox : List Ctx
  resSlots : List Key
  resInbox : Nat
  brim : Map BrimRec
  spareUsed : Bool
  lines : List VLine
  wbuf : List WEnt
  wbufLast : Nat
  grants : Map (Nat × Nat)
  near : Nat
  atomAt : Option Nat
deriving DecidableEq, Repr

/-- Frame states (R349); an absent frame is CLEAN. -/
inductive FrameSt where
  | dirty
  | owned (dom : Nat)
deriving DecidableEq, Repr

/-- A group (R11): Plank, page-table root, gang schedule with a write awaiting its tick, frame states, the memory port's
open windows and outstanding bursts with the cycle from which each is ready (R88, R89), the DRAM write queue with the domain it
served last (R113), whether write-backs go first (R89), and the
spare rows left of a bank where not all 16 are (R390). -/
structure Group where
  plank : Plank
  ptroot : DW
  gsched : DW
  gpend : Option DW
  frames : Map FrameSt
  windows : Map (List Ask)
  bursts : Map Nat
  wq : List WEnt
  wqLast : Nat
  wqFirst : Bool
  owner : Nat
  incoming : Option Nat
  spareRows : Map Nat
deriving DecidableEq, Repr

/-! ## Work -/

/-- A completion counter (R238, R239) in a record slot with its generation (R254). -/
structure Counter where
  gen : BitVec 17
  used : Bool
  part : Nat
  count : Nat
  done : Bool
  can : Bool
  fault : Bool
  fcause : Byte
  fcnt : Nat
  waiters : List Nat
deriving DecidableEq, Repr

/-- Where a launch stands (R242): it waits for others, it is due to enter its queue in a cycle, it stands there, or it has started. -/
inductive LStage where
  | waiting
  | due (t : Nat)
  | queued
  | started
deriving DecidableEq, Repr

/-- A launch record (R240, R257). -/
structure Launch where
  c : Counter
  parent : BitVec 32
  member : Nat
  deps : BitVec 32
  prio : Nat
  x0 : Nat
  y0 : Nat
  w : Nat
  h : Nat
  entry : Addr
  arg : DW
  next : Nat
  stage : LStage
deriving DecidableEq, Repr

/-- A graph record (R258): parent phase, member count, next member index, the handles of its members, and which of them have
ended (R242) and have been flushed (R244). -/
structure Graph where
  c : Counter
  parent : BitVec 32
  nlaunch : Nat
  next : Nat
  members : List (BitVec 32)
  ended : BitVec 32
  flushed : BitVec 32
deriving DecidableEq, Repr

/-- A release flush still to complete (R244): the ended launch, its die, and the handles of the levels that contain it. -/
structure FlushDue where
  part : Nat
  launch : BitVec 32
  die : Nat
  levels : List (BitVec 32)
deriving DecidableEq, Repr

/-! ## Connectors -/

/-- A filter of a region (R294). -/
structure Filter where
  off : Nat
  sel : Bool
  width : Nat
  rel : Nat
  const : DW
  mask : DW
deriving DecidableEq, Repr

/-- A guard of a region (R295): fired endpoints as a mask, routes sink and source, conditions truth, filter and source. -/
structure Guard where
  inhib : DW
  confl : DW
  fire : Nat
  routes : List (Nat × Nat)
  conds : List (Bool × Nat × Nat)
deriving DecidableEq, Repr

/-- A port of an image (R293). -/
structure PortDesc where
  region : Nat
  endpt : Nat
  isV : Bool
  isIn : Bool
deriving DecidableEq, Repr

/-- A buffered link of an image (R293). -/
structure BufDesc where
  ireg : Nat
  iend : Nat
  oreg : Nat
  oend : Nat
  cap : Nat
deriving DecidableEq, Repr

/-- A region of an image (R293, R294). -/
structure RegionDesc where
  nend : Nat
  nlink : Nat
  filters : List Filter
  guards : List Guard
deriving DecidableEq, Repr

/-- A connector image, parsed (R293). -/
structure Image where
  ports : List PortDesc
  bufs : List BufDesc
  regions : List RegionDesc
  len : Nat
deriving DecidableEq, Repr

/-- Who holds a port (R275, R300, R333, R399). -/
inductive Holder where
  | slot (tid : Nat) (n : Nat)
  | brim (c : Key) (b : Nat)
  | brimLate (c : Key) (b : Nat)
  | ingress (h : Nat)
deriving DecidableEq, Repr

/-- What a port operation asks (R275, R314). -/
inductive PAct where
  | offer (x : Item) (once : Bool)
  | take
  | wmark (v : BitVec 48)
  | widle (v : DW)
deriving DecidableEq, Repr

/-- Where a completion writes (R301, R302, R24). -/
inductive PDest where
  | none
  | preds (p : Nat)
  | getg (g : Nat)
  | getv (v : Nat) (g : Nat)
  | deliver (n : Nat)
deriving DecidableEq, Repr

/-- How an operation completed (R287, R288). -/
inductive PDone where
  | fired (delivered : Bool) (x : Option Item)
  | notFired
deriving DecidableEq, Repr

/-- A pending port operation (R275): its id, whether it has left its core and reached the Carder, whether a withdrawal has
reached the Carder, whether expiry marks its destinations (R301), its clock (R289), and its completion once decided. -/
structure POp where
  id : Nat
  act : PAct
  dest : PDest
  sent : Bool
  seen : Bool
  wd : Bool
  wdDest : List Nat
  tie : Bool
  expired : Bool
  clk : List Nat
  fin : Option PDone
deriving DecidableEq, Repr

/-- A port of a loaded connector (R307, R313). -/
structure PortSt where
  place : Key
  holder : Option Holder
  op : Option POp
  fired : Nat
  disc : Nat
  wdr : Nat
  wm : BitVec 48
  idle : Bool
  tmo : Option Nat
  last : Nat
deriving DecidableEq, Repr

/-- What stands in a buffer (R283, R319): an item with its clock, or a watermark token. -/
inductive BufEnt where
  | item (x : Item) (clk : List Nat)
  | token (w : BitVec 48) (idle : Bool)
deriving DecidableEq, Repr

/-- A buffered link's state (R283, R310, R319): credits at the input end, credits on their way, entries on their way, entries
held at the output end, the pair last sent and the output end's pair. -/
structure BufSt where
  credits : Nat
  creditsIn : Nat
  flight : List BufEnt
  held : List BufEnt
  sentW : BitVec 48
  sentI : Bool
  outW : BitVec 48
  outI : Bool
deriving DecidableEq, Repr

/-- A running region (R282, R285, R307, R316). -/
structure RegionSt where
  carder : CarderId
  ptr : Nat
  steps : BitVec 32
  marks : Map (BitVec 48 × Bool)
deriving DecidableEq, Repr

/-- A loaded connector (R298). -/
structure Conn where
  part : Nat
  running : Bool
  fcode : Nat
  image : Image
  ports : Map PortSt
  bufs : Map BufSt
  regions : Map RegionSt
deriving DecidableEq, Repr

/-- A connector record slot: generation and connector if in use (R298). -/
structure ConRec where
  gen : BitVec 16
  con : Option Conn
deriving DecidableEq, Repr

/-- A die: launch engine, connector records, clocks, fence and gang-switch state. `launchAt` is one more than the cycle in which a launch last
started (R242); `halves` says for each half of the Bandbox whose image it holds, with the number of the save that wrote it (R353). -/
structure Die where
  start : Nat
  launchAt : Nat
  clk : List Nat
  known : List Nat
  launches : Map Launch
  graphs : Map Graph
  endedLaunches : Map (BitVec 32)
  endedGraphs : Map Graph
  lqueues : Vector (List Nat) 4
  conns : Map ConRec
  fenced : Bool
  joining : Bool
  swapTick : Nat
  swapNs : Nat
  bandbox : List Host.Cell
  halves : Vector (Option (Nat × Nat)) 2
  spareUsed : Bool
  spareChan : Bool
  storeUsed : Nat
deriving DecidableEq, Repr

/-- A partition's image of a group on which it is not resident (R352, R353): its slots, cores, clusters and Plank, and what is
kept for them meanwhile, each event with the cycles it still has to wait, and the RTIME at which it left. -/
structure GImage where
  threads : Map Thread
  cores : Map Core
  clusters : Map Cluster
  plank : Plank
  held : List (Nat × Ev)
  since : Nat
deriving DecidableEq, Repr

/-- A partition (R341) with its phases and job counter (R240), and once PNEXT was written the group mask as it stood then (R355). -/
structure Partition where
  pcfg : DW
  pgrp : Vector DW 2
  pnext : Vector DW 2
  resize : Option (Vector DW 2)
  psave : DW
  phases : Map Counter
  job : Counter
  gone : List Key
  images : Map GImage
deriving DecidableEq, Repr

/-! ## Rotor -/

/-- A calendar (R145): GUARD, LAST and the entries, an absent one being VALID 0, PEER 0, LEN 500. -/
structure Calendar where
  guard : Nat
  last : Nat
  slots : Map (Bool × Nat × Nat)
deriving DecidableEq, Repr

/-- A frame as its sender keeps it (R156): where its sending stands (rotation times 64 plus slot, on its port's count), whether it
is due for resend, and whether it went to a relay. -/
structure TxFrame where
  idx : Nat
  sent : Option Nat
  due : Bool
  resends : Nat
  relayed : Bool
  acked : Bool
deriving DecidableEq, Repr

/-- What a port is sending (R144, R149, R151): an ack frame; a frame of the module's own queues, formed with its header, beside what it
was before; a relayed frame. -/
inductive TxItem where
  | acks (a : AckFrame)
  | own (q : Nat) (seq : BitVec 32) (old : TxFrame) (f : Frame)
  | relay (arr : Nat) (f : Frame)
deriving DecidableEq, Repr

/-- A rotor port (R143 to R153): calendars, lock and marker counts, the current slot, whether a marker has begun one, and its start, rotations completed since lock and before, peers' relay credits, relayed
frames held and those forwarded but still kept (R157), acknowledgements owed, payload started per queue in this slot, and what is
being sent until when. -/
structure RPort where
  act : Calendar
  shad : Calendar
  pending : Bool
  lock : Bool
  missed : Nat
  late : Nat
  good : Nat
  rot0 : Nat
  rot : Nat
  slot : Nat
  seen : Bool
  slotAt : Nat
  misroute : Nat
  credit : Map Nat
  relay : List (Nat × Frame)
  fwd : List (Nat × Frame)
  owedAcks : List (Nat × Ack)
  used : Map Nat
  sending : Option TxItem
  busyUntil : Nat
  rr4 : Nat
  rr5 : Nat
deriving DecidableEq, Repr

/-- An accepted message without a record (R147, R160); `endNo` orders the acceptance of messages, and of those that have ended the ends
(R158). -/
structure Msg where
  seq : BitVec 32
  k : Key
  tid : Nat
  part : Nat
  dom : Nat
  launch : BitVec 32
  src : Nat
  len : Nat
  rdst : Addr
  rcw : Addr
  dest : Option Nat
  held : Bool
  data : List Byte
  frames : List TxFrame
  ended : Bool
  endNo : Nat
  status : Byte
  stalled : Option Addr
  got : List (Nat × Nat)
deriving DecidableEq, Repr

/-- A send queue (R147, R161). -/
structure SendQ where
  valid : Bool
  part : Nat
  cfg : DW
  liveCfg : DW
  next : BitVec 32
  msgs : List Msg
  halt : Bool
deriving DecidableEq, Repr

/-- What a receiver keeps of a message (R154, R155). -/
structure RxMsg where
  seq : BitVec 32
  got : List Nat
  cnt : Nat
  rcw : Addr
  lpart : Nat
deriving DecidableEq, Repr

/-- A receiver's state for one sender queue (R155, R156). -/
structure RxQ where
  expect : BitVec 32
  msgs : List RxMsg
deriving DecidableEq, Repr

/-! ## Host side -/

/-- An image slot of boot flash (R401): what each signature check and the version fuse say of it, and its digest. -/
structure FlashImg where
  ecdsa : Bool
  lms : Bool
  version : Nat
  digest : BitVec 384
deriving DecidableEq, Repr

/-- Boot and identity (R400 to R402). -/
structure Boot where
  stage : Nat
  tested : Bool
  ready : Bool
  failImage : Nat
  failSig : Nat
  stopped : Bool
  loader : Vector (Option FlashImg) 2
  plynvas : Vector (Option FlashImg) 2
  bootedL : Nat
  bootedP : Nat
  minVersion : Nat
  m1 : BitVec 384
  m3 : BitVec 384
  leaf : Nat
  updating : Option (Nat × Nat × FlashImg)
deriving DecidableEq, Repr

/-- An operation that an Ethernet queue's port has started (R398): its ring index, whether its connection is ROD, the local
buffer, the completion word's address, and once it has ended the value due there. -/
structure EthOp where
  num : Nat
  rod : Bool
  op : Nat
  laddr : Nat
  len : Nat
  cw : Nat
  fin : Option DW
deriving DecidableEq, Repr

/-- An Ethernet queue (R82, R398): the configuration doublewords, the counts of send and receive entries its port has read, the
receive entries it has read and not used, the operations it has under way, and the receives whose completion word is due. -/
structure EthQ where
  w0 : DW
  qcb : DW
  staken : Nat
  rtaken : Nat
  posted : List Nat
  ops : List EthOp
  rcvs : List EthOp
deriving DecidableEq, Repr

/-- An operation that a peer sent (R396, R398). -/
inductive EthIn where
  | write (w : EthWrite)
  | read (x : EthRead)
  | send (x : EthSend)
deriving DecidableEq, Repr

/-- A UET connection (R395, R397): its delivery mode, its partition, and, of a ROD connection, the operations that wait to be performed in
order. -/
structure EthConn where
  mode : Nat
  part : Nat
  backlog : List EthIn
deriving DecidableEq, Repr

/-- How an Ethernet port answers a peer (R395, R396, R398): done, an error, or receiver not ready. -/
inductive EthCode where
  | ok
  | err
  | notReady
deriving DecidableEq, Repr

/-- An answer sent to a peer, with the bytes an RMA read asked for. -/
structure EthAnswer where
  port : Nat
  conn : Nat
  code : EthCode
  data : List Byte
deriving DecidableEq, Repr

/-- One entry of an ingress payload (R399), or the end of a send's payload, at which it is acknowledged on its connection. -/
inductive IngEnt where
  | record (x : Item)
  | wmark (v : BitVec 48)
  | widle (v : BitVec 48)
  | fin (port conn bytes : Nat)
deriving DecidableEq, Repr

/-- A stream ingress channel (R399), with the port it is bound to. -/
structure Ingress where
  bound : Option PortId
  valid : Bool
  eq : Nat
  handle : BitVec 32
  port : Nat
  offered : Nat
  disc : Nat
  held : Nat
  err : Bool
  ents : List IngEnt
deriving DecidableEq, Repr

/-- A response of the service endpoint (R397): port, connection, TAG, STATUS and the rest. -/
structure SvcResp where
  port : Nat
  conn : Nat
  tag : BitVec 16
  status : Byte
  body : List Byte
deriving DecidableEq, Repr

/-- A link (R394): lanes in use and spare lanes left. -/
structure Link where
  width : Nat
  spares : Nat
  fenced : Bool
deriving DecidableEq, Repr

/-- Everything outside the compute dies, the fault counters, and power (R143 to R163, R350, R386 to R403). `got` are the 256-byte blocks that
bursts have brought for the rotor and Ethernet units' accesses (R88). -/
structure Io where
  pkgid : DW
  sqbase : DW
  rlybase : DW
  svcbuf : DW
  svcPort : Nat
  svcConns : Map Nat
  doms : Map (DW × DW)
  grants : Map (DW × DW × DW)
  sendqs : Map SendQ
  rports : Map RPort
  rx : Map RxQ
  eths : Map EthQ
  conns : Map EthConn
  ingress : Map Ingress
  resps : List SvcResp
  answers : List EthAnswer
  resets : List (Nat × Nat × BitVec 32)
  evCore : Nat
  boot : Boot
  budget : Nat
  cooling : Bool
  faults : List (HwUnit × List Nat)
  replacing : List HwUnit
  retired : List HwUnit
  links : Map Link
  got : List (Nat × Nat)
deriving DecidableEq, Repr

/-- Memory (R80 to R94): listed bytes by physical place in rising order, none equal to 0, which an unlisted byte reads as
(R94); the words that are full, every other being empty (R94); the words holding an uncorrectable error (R392). -/
structure Mem where
  cells : List Host.Cell
  full : List Nat
  poison : List Nat
deriving DecidableEq, Repr

/-- A hop of a packet (R13, R14): an output of a switch and the input of that switch at which the packet comes in. -/
structure Hop where
  out : Nat
  inp : Nat
deriving DecidableEq, Repr

/-- A fabric packet under way (R13, R14): its flits, the hops still to be made and the output it came by, the die clock it carries
once it has left its die (R105), the request it is and whether that writes, the cycle in which it came where it stands, and the event
of its arrival. -/
structure Packet where
  flits : Nat
  hops : List Hop
  via : Option Nat
  clk : List Nat
  req : Option Nat
  writes : Bool
  came : Nat
  ev : Ev
deriving DecidableEq, Repr

/-- A switch output (R14): the input last granted, the cycle until which it sends the packet last granted, the stop signal of the
link's far end as the switch sees it, and the flits in that end's skid buffer. -/
structure SwOut where
  last : Nat
  busy : Nat
  stop : Bool
  skid : Nat
deriving DecidableEq, Repr

/-- The machine. `alarms` are events due at an RTIME; `slew` is what RTIME has still to be moved by to follow the locked ports
(R144), in 130,000ths of a ns, as `frac` is. -/
structure State where
  mem : Mem
  threads : Map Thread
  cores : Map Core
  clusters : Map Cluster
  groups : Map Group
  dies : Map Die
  parts : Map Partition
  io : Io
  reqs : List Req
  acks : List AckDue
  flushes : List FlushDue
  owed : List Owed
  agenda : List Ev
  timers : List (Nat × Ev)
  alarms : List (Nat × Ev)
  fabric : List Packet
  outs : Map SwOut
  cycle : Nat
  rtime : Nat
  frac : Nat
  slew : Int
  cursor : Nat
  nextId : Nat
  free : Nat
  cur : Key
  ilen : Nat
  q : Quals
  arg : Arg
deriving DecidableEq, Repr

/-- Why the machine stops with a fault. -/
inductive Fault where
  /-- `exec` was asked to run an instruction in a slot that holds no thread. No step of `step` raises it; safe (log 11). -/
  | noThread
deriving DecidableEq, Repr

/-- Why an instruction has no meaning here. -/
inductive Refusal where
  /-- An arm of `exec` without a meaning yet. Safe. -/
  | notModelled (mnemonic : String)
deriving DecidableEq, Repr

/-! ## Reset values -/

/-- A register that is zero and full (R243). -/
def RegCell.zero (w : Nat) : RegCell w := ⟨0, true, false, false⟩

/-- The predicates at thread start: p0 true, p1-p31 zero and full (R23, R243). -/
def predsReset : Vector (RegCell 1) 32 := (Vector.replicate 32 (RegCell.zero 1)).setIfInBounds 0 ⟨1, true, false, false⟩

/-- A thread at the values of thread start (R28, R243). -/
def Thread.start : Thread where
  tid := 0
  g := Vector.replicate 24 (RegCell.zero 64)
  p := predsReset
  v := Vector.replicate 8 (RegCell.zero 512)
  pc := 0
  fmode := 0x120
  ths := 0
  waitlim := 0
  retrylim := 64
  launchid := 0
  graphid := 0
  trapcause := 0
  trappc := 0
  trapaddr := 0
  uivec := 0
  qmap := 0
  pmeta := 0
  part := 0
  domain := 0
  k := Vector.replicate 16 none
  fifo := Vector.replicate 4 []
  shadow := ⟨0, predsReset, Vector.replicate 4 (RegCell.zero 64)⟩
  tgt := Vector.replicate 4 none
  watch := .none
  lease := .none
  leaseOwe := none
  q0 := []
  q1 := []
  q2 := []
  q2pos := 0
  q3 := []
  copySeq := 0
  plankSeq := 0
  asyncTraps := []
  duty := []
  declined := none
  run := .ready
  pend := none
  took := []
  leaving := none
  npc := 0
  waitId := 0
  readyAt := 0
  lastIssue := none
  tries := 0

/-- A barrier register at reset (R249). -/
def Barrier.reset : Barrier := ⟨0, false, false, false, false⟩

/-- A core at reset. -/
def Core.reset : Core where
  sbuf := []
  journal := []
  bars := Vector.replicate 4 Barrier.reset
  tvec := 0
  tframe := 0
  plb := []
  icache := []
  dcache := []
  cache := []
  backing := []
  stopped := false
  evq := []
  msgOut := []
  msgBusy := false

/-- A cluster at reset: every way is a cache way (R90). -/
def Cluster.reset : Cluster where
  wmask := 0
  wshare := []
  bfmt := []
  copyq := []
  copyRR := 0
  swapped := []
  watches := []
  seeds := []
  tasks := []
  inbox := []
  resSlots := []
  resInbox := 0
  brim := []
  spareUsed := false
  lines := []
  wbuf := []
  wbufLast := 0
  grants := []
  near := 0
  atomAt := none

/-- A Plank at reset (R211, R216); the lease rotation starts after key 511 (log 5). -/
def Plank.reset : Plank where
  acc := []
  wbuf := []
  segFmt := []
  queue := []
  holder := none
  granted := 0
  since := 0
  cmds := 0
  lastKey := 511
  govDelay := 0
  govAt := 0
  completed := 0
  gov := false
  retired := false

/-- A group at reset; its 16 spare rows per bank are counted as one pool (R390, log 12). The write queue serves
the domain after 0 first (R113, log 123). -/
def Group.reset : Group where
  plank := Plank.reset
  ptroot := 0
  gsched := 0
  gpend := none
  frames := []
  windows := []
  bursts := []
  wq := []
  wqLast := 0
  wqFirst := false
  owner := 0
  incoming := none
  spareRows := []

/-- A free record slot's counter (R240, R254). -/
def Counter.reset : Counter := ⟨0, false, 0, 0, false, false, false, 0, 0, []⟩

/-- A free launch record that was never used. -/
def Launch.reset : Launch := ⟨Counter.reset, 0, 0, 0, 0, 0, 0, 0, 0, 0, 0, 0, .waiting⟩

/-- A free graph record that was never used. -/
def Graph.reset : Graph := ⟨Counter.reset, 0, 0, 0, [], 0, 0⟩

/-- A die at reset. -/
def Die.reset : Die where
  start := 0
  launchAt := 0
  clk := List.replicate 8 0
  known := List.replicate 8 0
  launches := []
  graphs := []
  endedLaunches := []
  endedGraphs := []
  lqueues := Vector.replicate 4 []
  conns := []
  fenced := false
  joining := false
  swapTick := 0
  swapNs := 0
  bandbox := []
  halves := Vector.replicate 2 none
  spareUsed := false
  spareChan := false
  storeUsed := 0

/-- A partition record at reset (R341). -/
def Partition.reset : Partition where
  pcfg := 0
  pgrp := Vector.replicate 2 0
  pnext := Vector.replicate 2 0
  resize := none
  psave := 0
  phases := []
  job := Counter.reset
  gone := []
  images := []

/-- A calendar at reset (R145). -/
def Calendar.reset : Calendar := ⟨300, 0, []⟩

/-- A rotor port at reset (R145, R162). -/
def RPort.reset : RPort where
  act := Calendar.reset
  shad := Calendar.reset
  pending := false
  lock := false
  missed := 0
  late := 0
  good := 0
  rot0 := 0
  rot := 0
  slot := 0
  seen := false
  slotAt := 0
  misroute := 0
  credit := []
  relay := []
  fwd := []
  owedAcks := []
  used := []
  sending := none
  busyUntil := 0
  rr4 := 1023
  rr5 := 1023

/-- A send queue that Plynvas has not assigned (R147). -/
def SendQ.reset : SendQ := ⟨false, 0, 0, 0, 0, [], false⟩

/-- Boot at power-up (R400): stage 0, boot flash empty (log 7). -/
def Boot.reset : Boot where
  stage := 0
  ready := false
  failImage := 0
  failSig := 0
  stopped := false
  loader := Vector.replicate 2 none
  plynvas := Vector.replicate 2 none
  bootedL := 0
  bootedP := 0
  minVersion := 0
  m1 := 0
  m3 := 0
  leaf := 0
  updating := none
  tested := false

/-- The I/O side at power-up. -/
def Io.reset : Io where
  pkgid := 0
  sqbase := 0
  rlybase := 0
  svcbuf := 0
  svcPort := 7
  svcConns := []
  doms := []
  grants := []
  sendqs := []
  rports := []
  rx := []
  eths := []
  conns := []
  ingress := []
  resps := []
  answers := []
  resets := []
  evCore := 8192
  boot := Boot.reset
  budget := 4200
  cooling := false
  faults := []
  replacing := []
  retired := []
  links := []
  got := []

/-- Memory at power-up: every word zero and empty (R94). -/
def Mem.reset : Mem := ⟨[], [], []⟩

/-- The module right after power-up (R94, R400): no thread runs, and the boot stages are due in order (log 7). -/
def State.reset : State where
  mem := Mem.reset
  threads := []
  cores := []
  clusters := []
  groups := []
  dies := []
  parts := []
  io := Io.reset
  reqs := []
  acks := []
  flushes := []
  owed := []
  agenda := [⟨.powerUp, .none⟩, ⟨.rootSelfTest, .none⟩, ⟨.loaderCopy, .none⟩, ⟨.linkTraining, .n1 0⟩, ⟨.plynvasLoad, .none⟩,
    ⟨.readyReport, .none⟩]
  timers := []
  alarms := []
  fabric := []
  outs := []
  cycle := 0
  rtime := 0
  frac := 0
  slew := 0
  cursor := 0
  nextId := 1
  free := 0
  cur := 0
  ilen := 1
  q := .plain
  arg := .none

end Sys2Proof.Machine
end

