-- ==== Sys2Proof/Machine/Maps.lean ====
section
/-! DEFINITION. Sparse tables, bit fields, and the places of the grid (01_device R9, R10). -/

namespace Sys2Proof.Machine

/-! ## Sparse tables -/

/-- The entry at a key. -/
def mget {α : Type} : Map α → Nat → Option α
  | [], _ => none
  | (k', v) :: m, k => if k' = k then some v else mget m k

/-- The table with an entry set, keys in rising order. -/
def mput {α : Type} : Map α → Nat → α → Map α
  | [], k, v => [(k, v)]
  | (k', v') :: m, k, v =>
    if k < k' then (k, v) :: (k', v') :: m
    else if k' = k then (k, v) :: m
    else (k', v') :: mput m k v

/-- The table without a key. -/
def mdel {α : Type} (m : Map α) (k : Nat) : Map α := m.filter (fun e => e.1 != k)

/-- A sorted list of numbers with one added. -/
def nadd : List Nat → Nat → List Nat
  | [], k => [k]
  | a :: m, k => if k < a then k :: a :: m else if a = k then a :: m else a :: nadd m k

/-- A list of numbers without one. -/
def ndel (m : List Nat) (k : Nat) : List Nat := m.filter (fun a => a != k)

/-- The lowest number below n that is no key of a table: the lowest free record slot. -/
def lowestFree (used : Nat → Bool) : Nat → Nat → Option Nat
  | 0, _ => none
  | fuel + 1, i => if used i then lowestFree used fuel (i + 1) else some i

/-! ## Bit fields -/

/-- Bits h down to l of a number. -/
def bits (x h l : Nat) : Nat := x / 2 ^ l % 2 ^ (h + 1 - l)

/-- One bit of a number. -/
def bit (x l : Nat) : Bool := x / 2 ^ l % 2 == 1

/-- A number as a doubleword, modulo 2^64. -/
def dw (x : Nat) : DW := BitVec.ofNat 64 x

/-- A number as an address, modulo 2^56. -/
def addr (x : Nat) : Addr := BitVec.ofNat 56 x

/-- The low n bits of a doubleword sign-extended (R55). -/
def sextTo (n : Nat) (x : Nat) : DW := ((BitVec.ofNat n x).signExtend 64)

/-- The signed value of the low n bits of a number. -/
def sval (n x : Nat) : Int := (BitVec.ofNat n x).toInt

/-- An integer as n bits of two's complement. -/
def ofIntN (n : Nat) (x : Int) : Nat := (BitVec.ofInt n x).toNat

/-! ## The grid (R9, R11) -/

/-- The core of a slot. -/
def coreOf (k : Key) : Key := k / 8

/-- The slot number within its core. -/
def slotOf (k : Key) : Nat := k % 8

/-- The die of a core; 8 and 9 are the I/O dies (R30). -/
def dieOfCore (c : Key) : Nat := c / 1024

/-- The core number within its die (R9), or a service core's index. -/
def coreNum (c : Key) : Nat := c % 1024

/-- Whether a core is a service core (R8). -/
def isService (c : Key) : Bool := 8192 ≤ c

/-- A core's column. -/
def coreX (c : Key) : Nat := c % 32

/-- A core's row. -/
def coreY (c : Key) : Nat := c % 1024 / 32

/-- The cluster of a core (R9). -/
def clusterOf (c : Key) : Key := dieOfCore c * 64 + coreY c / 4 * 8 + coreX c / 4

/-- The group of a core (R9). -/
def groupOf (c : Key) : Key := dieOfCore c * 16 + coreY c / 8 * 4 + coreX c / 8

/-- The quadrant number within its die of a group key (R9). -/
def quadOf (g : Key) : Nat := g % 16 / 8 * 2 + g % 4 / 2

/-- The die of a cluster. -/
def dieOfCluster (cl : Key) : Nat := cl / 64

/-- The die of a group. -/
def dieOfGroup (g : Key) : Nat := g / 16

/-- The group of a cluster (R9): the cluster at column x, row y of the 8 by 8 cluster grid. -/
def groupOfCluster (cl : Key) : Key := cl / 64 * 16 + cl % 64 / 8 / 2 * 4 + cl % 8 / 2

/-- The cluster of a group whose index, counted in ascending cluster number, is i (R85). -/
def clusterInGroup (g i : Nat) : Key := g / 16 * 64 + (g % 16 / 4 * 2 + i / 2) * 8 + g % 4 * 2 + i % 2

/-- The k-th group, in ascending number, of the quadrant that holds a group (R344). -/
def groupInQuad (g k : Nat) : Key := g / 16 * 16 + (g % 16 / 8 * 2 + k / 2) * 4 + g % 4 / 2 * 2 + k % 2

/-- The core of a cluster whose index, in ascending core number, is i. -/
def coreInCluster (cl i : Nat) : Key := cl / 64 * 1024 + (cl % 64 / 8 * 4 + i / 4) * 32 + cl % 8 * 4 + i % 4

/-- The slot a TCOORD-laid value names (R30): a service core's index is X, its slot 0. -/
def slotOfCoord (x : Nat) : Key :=
  let die := bits x 19 16
  if 8 ≤ die then (die * 1024 + bits x 10 6) * 8
  else (die * 1024 + bits x 15 11 * 32 + bits x 10 6) * 8 + bits x 2 0

/-- Whether a TCOORD-laid value has a reserved bit set (R30). -/
def coordReserved (x : Nat) : Bool := bits x 63 20 != 0 || bits x 5 3 != 0

/-- The TCOORD value of a slot (R30). -/
def coordOf (k : Key) : Nat :=
  let c := coreOf k
  if isService c then dieOfCore c * 65536 + coreNum c * 64
  else dieOfCore c * 65536 + coreY c * 2048 + coreX c * 64 + slotOf k

/-! ## Places of the state -/

/-- A core's state. -/
def State.core (s : State) (c : Key) : Core := (mget s.cores c).getD Core.reset

/-- The state with a core changed. -/
def State.modCore (s : State) (c : Key) (f : Core → Core) : State := { s with cores := mput s.cores c (f (s.core c)) }

/-- A cluster's state. -/
def State.cluster (s : State) (c : Key) : Cluster := (mget s.clusters c).getD Cluster.reset

/-- The state with a cluster changed. -/
def State.modCluster (s : State) (c : Key) (f : Cluster → Cluster) : State :=
  { s with clusters := mput s.clusters c (f (s.cluster c)) }

/-- A group's state. -/
def State.group (s : State) (g : Key) : Group := (mget s.groups g).getD Group.reset

/-- The state with a group changed. -/
def State.modGroup (s : State) (g : Key) (f : Group → Group) : State :=
  { s with groups := mput s.groups g (f (s.group g)) }

/-- The state with a group's Plank changed. -/
def State.modPlank (s : State) (g : Key) (f : Plank → Plank) : State :=
  s.modGroup g (fun x => { x with plank := f x.plank })

/-- A die's state. -/
def State.die (s : State) (d : Nat) : Die := (mget s.dies d).getD Die.reset

/-- The state with a die changed. -/
def State.modDie (s : State) (d : Nat) (f : Die → Die) : State := { s with dies := mput s.dies d (f (s.die d)) }

/-- A partition's state. -/
def State.partn (s : State) (p : Nat) : Partition := (mget s.parts p).getD Partition.reset

/-- The state with a partition changed. -/
def State.modPart (s : State) (p : Nat) (f : Partition → Partition) : State :=
  { s with parts := mput s.parts p (f (s.partn p)) }

/-- The state with the I/O side changed. -/
def State.modIo (s : State) (f : Io → Io) : State := { s with io := f s.io }

/-- The thread of a slot. -/
def State.thread (s : State) (k : Key) : Option Thread := mget s.threads k

/-- The state with a slot's thread changed, if there is one. -/
def State.modT (s : State) (k : Key) (f : Thread → Thread) : State :=
  match s.thread k with
  | none => s
  | some t => { s with threads := mput s.threads k (f t) }

/-- A context with its thread changed, if it is the one named. -/
def Ctx.modTid (c : Ctx) (tid : Nat) (f : Thread → Thread) : Ctx := if c.th.tid = tid then { c with th := f c.th } else c

/-- The threads of slots with the named one changed. -/
def threadsModTid (m : Map Thread) (tid : Nat) (f : Thread → Thread) : Map Thread :=
  m.map (fun e => if e.2.tid = tid then (e.1, f e.2) else e)

/-- Every context changed by a function of contexts: those of cores. -/
def coresMapCtx (m : Map Core) (f : Ctx → Ctx) : Map Core :=
  m.map (fun e => (e.1, { e.2 with cache := e.2.cache.map f, backing := e.2.backing.map f }))

/-- Those of migration inboxes. -/
def clustersMapCtx (m : Map Cluster) (f : Ctx → Ctx) : Map Cluster :=
  m.map (fun e => (e.1, { e.2 with inbox := e.2.inbox.map f }))

/-- An image with its slots' threads and its contexts changed. -/
def GImage.mapT (x : GImage) (f : Thread → Thread) : GImage :=
  { x with
    threads := x.threads.map (fun e => (e.1, f e.2))
    cores := coresMapCtx x.cores (fun c => { c with th := f c.th })
    clusters := clustersMapCtx x.clusters (fun c => { c with th := f c.th }) }

/-- The state with the named thread changed, wherever its context stands (R252, R352): a slot, a context cache or backing area,
a migration inbox, or an image of a partition that is not resident. -/
def State.modTid (s : State) (tid : Nat) (f : Thread → Thread) : State :=
  { s with
    threads := threadsModTid s.threads tid f
    cores := coresMapCtx s.cores (·.modTid tid f)
    clusters := clustersMapCtx s.clusters (·.modTid tid f)
    parts := s.parts.map (fun e => (e.1, { e.2 with
      images := e.2.images.map (fun x => (x.1, x.2.mapT (fun t => if t.tid = tid then f t else t))) })) }

/-- The slot the named thread stands in. -/
def State.slotOfTid (s : State) (tid : Nat) : Option Key := (s.threads.find? (fun e => e.2.tid == tid)).map (·.1)

/-- Every context that stands outside a slot, of partitions that are resident there. -/
def State.contexts (s : State) : List Ctx :=
  s.cores.flatMap (fun e => e.2.cache ++ e.2.backing) ++ s.clusters.flatMap (fun e => e.2.inbox)

/-- The threads of an image. -/
def GImage.all (x : GImage) : List Thread :=
  x.threads.map (·.2) ++ x.cores.flatMap (fun e => (e.2.cache ++ e.2.backing).map (·.th)) ++
  x.clusters.flatMap (fun e => e.2.inbox.map (·.th))

/-- The threads of the images of partitions that are not resident. -/
def State.imaged (s : State) : List Thread := s.parts.flatMap (fun p => p.2.images.flatMap (fun x => x.2.all))

/-- The named thread, wherever its context stands; none once it has ended. -/
def State.threadOf (s : State) (tid : Nat) : Option Thread :=
  match s.threads.find? (fun e => e.2.tid == tid) with
  | some e => some e.2
  | none => match s.contexts.find? (fun c => c.th.tid == tid) with
    | some c => some c.th
    | none => s.imaged.find? (fun t => t.tid == tid)

/-! ## Residency (R351, R352) -/

/-- Whether a partition is resident on a group. -/
def State.residentOn (s : State) (part : Nat) (g : Key) : Bool := 128 ≤ g || (s.group g).owner == part

/-- A partition's image of a group where it is not resident; an absent one is empty (R216, R355). -/
def State.image (s : State) (part : Nat) (g : Key) : GImage := (mget (s.partn part).images g).getD ⟨[], [], [], Plank.reset, [], s.rtime⟩

/-- The state with such an image changed. -/
def State.modImage (s : State) (part : Nat) (g : Key) (f : GImage → GImage) : State :=
  s.modPart part (fun p => { p with images := mput p.images g (f (s.image part g)) })

/-- A partition's cluster as it stands, there or in the image of its group. -/
def State.clusterFor (s : State) (part : Nat) (cl : Key) : Cluster :=
  if s.residentOn part (groupOfCluster cl) then s.cluster cl
  else (mget (s.image part (groupOfCluster cl)).clusters cl).getD Cluster.reset

/-- The state with a partition's cluster changed, there or in the image. -/
def State.modClusterFor (s : State) (part : Nat) (cl : Key) (f : Cluster → Cluster) : State :=
  if s.residentOn part (groupOfCluster cl) then s.modCluster cl f
  else s.modImage part (groupOfCluster cl) (fun x => { x with clusters := mput x.clusters cl (f (s.clusterFor part cl)) })

/-- Whether a group's partitions are being exchanged (R352). -/
def State.switching (s : State) (g : Key) : Bool := (s.group g).incoming.isSome

/-- A partition's core as it stands, there or in the image of its group. -/
def State.coreFor (s : State) (part : Nat) (c : Key) : Core :=
  if isService c || s.residentOn part (groupOf c) then s.core c
  else (mget (s.image part (groupOf c)).cores c).getD Core.reset

/-- Whether a core is stopped: for a tick or a replacement, or its die is fenced (R352, R361, R390). -/
def State.coreStopped (s : State) (c : Key) : Bool :=
  (s.core c).stopped || (s.die (dieOfCore c)).fenced || (!isService c && s.switching (groupOf c))

/-- Whether a die can take packets from another: it has joined its slice (R354). -/
def State.joined (s : State) (d : Nat) : Bool := !(s.die d).joining

/-- The state with one more event due, after those already due. -/
def State.push (s : State) (i : Instr) (a : Arg) : State := { s with agenda := s.agenda ++ [⟨i, a⟩] }

/-- Whether an event comes before another that is due at the same time: a Carder's step before what is none, because it considers what
arrived before its cycle only (R284); and of two watermark messages to one Brim the one to the lower binding (R325). -/
def Ev.first (e f : Ev) : Bool :=
  (e.i == .carderStep && f.i != .carderStep) ||
  (match e.arg, f.arg with
  | .wm c b _ _, .wm c' b' _ _ => c == c' && b < b'
  | _, _ => false)

/-- A timer list with an entry, in rising order of its time. -/
def addTimer : List (Nat × Ev) → Nat → Ev → List (Nat × Ev)
  | [], t, e => [(t, e)]
  | (t', e') :: l, t, e =>
    if t < t' || (t == t' && e.first e') then (t, e) :: (t', e') :: l
    else (t', e') :: addTimer l t e

/-- The state with an event due at a cycle. -/
def State.at (s : State) (t : Nat) (i : Instr) (a : Arg) : State := { s with timers := addTimer s.timers t ⟨i, a⟩ }

/-- The state with an event due at an RTIME (R17). -/
def State.atNs (s : State) (r : Nat) (i : Instr) (a : Arg) : State := { s with alarms := addTimer s.alarms r ⟨i, a⟩ }

/-- An event for a partition's things in a group: due at once, or kept with its image until it is resident (R352). -/
def State.pushFor (s : State) (part : Nat) (g : Key) (i : Instr) (a : Arg) : State :=
  if s.residentOn part g then s.push i a else s.modImage part g (fun x => { x with held := x.held ++ [(0, ⟨i, a⟩)] })

/-- A fresh number for a request, an owed result or a wait. -/
def State.fresh (s : State) : Nat × State := (s.nextId, { s with nextId := s.nextId + 1 })

/-- A free value (log 9), and the state with the counter advanced. -/
def State.freeVal (s : State) : DW × State := (Config.freeValue s.free, { s with free := s.free + 1 })

/-- CYCLE as the cores of a die read it (R28). -/
def State.cycleOf (s : State) (c : Key) : Nat := s.cycle - (s.die (dieOfCore c)).start

end Sys2Proof.Machine
end

