-- ==== Sys2Proof/Machine/Float.lean ====
section
/-! DEFINITION. Number formats and rounding (10_number_formats R170 to R173, 03_encoding R55): values are exact dyadic numbers,
converted to, computed with, and rounded once. -/

namespace Sys2Proof.Machine

/-! ## Flags (R31) -/

/-- The sticky flags as FMODE bits 4:0: NV, DZ, OF, UF, NX. -/
abbrev Flags := BitVec 5

/-- Invalid operation. -/
def flagNV : Flags := 16
/-- Division by zero. -/
def flagDZ : Flags := 8
/-- Overflow. -/
def flagOF : Flags := 4
/-- Underflow. -/
def flagUF : Flags := 2
/-- Inexact. -/
def flagNX : Flags := 1

/-- A flag if a condition holds. -/
def flagIf (c : Bool) (f : Flags) : Flags := if c then f else 0

/-! ## Formats (R170) -/

/-- A floating-point format: exponent width, fraction width, and whether it is E4M3, which has no infinity. -/
structure Fmt where
  ew : Nat
  fw : Nat
  e4m3 : Bool
deriving DecidableEq, Repr

/-- binary16. -/
def fmt16 : Fmt := ⟨5, 10, false⟩
/-- bfloat16. -/
def fmtB16 : Fmt := ⟨8, 7, false⟩
/-- binary32. -/
def fmt32 : Fmt := ⟨8, 23, false⟩
/-- binary64. -/
def fmt64 : Fmt := ⟨11, 52, false⟩
/-- OCP E4M3. -/
def fmtE4M3 : Fmt := ⟨4, 3, true⟩
/-- OCP E5M2. -/
def fmtE5M2 : Fmt := ⟨5, 2, false⟩

/-- A format's width in bits. -/
def Fmt.w (f : Fmt) : Nat := 1 + f.ew + f.fw

/-- A format's exponent bias. -/
def Fmt.bias (f : Fmt) : Int := 2 ^ (f.ew - 1) - 1

/-- The exponent of the smallest subnormal (R170). -/
def Fmt.qmin (f : Fmt) : Int := 1 - f.bias - f.fw

/-- The exponent field of all ones, in place. -/
def Fmt.infBits (f : Fmt) : Nat := (2 ^ f.ew - 1) * 2 ^ f.fw

/-- The bits of the largest finite value (R170, R172). -/
def Fmt.maxBits (f : Fmt) : Nat := if f.e4m3 then 2 ^ (f.ew + f.fw) - 2 else f.infBits - 1

/-- The default NaN (R72, R170). -/
def Fmt.nanBits (f : Fmt) : Nat := if f.e4m3 then 2 ^ (f.ew + f.fw) - 1 else f.infBits + 2 ^ (f.fw - 1)

/-- What stands for an infinity of a sign (R172): in E4M3 0x7F, whatever its sign. -/
def Fmt.infOf (f : Fmt) (neg : Bool) : Nat :=
  if f.e4m3 then f.nanBits else f.infBits + (if neg then 2 ^ (f.ew + f.fw) else 0)

/-- The sign bit of a format, if negative. -/
def Fmt.sign (f : Fmt) (neg : Bool) : Nat := if neg then 2 ^ (f.ew + f.fw) else 0

/-- The exact value of a format's bits (R170, R171); bits above the width are ignored. -/
def Fmt.decode (f : Fmt) (x : Nat) : Exact :=
  let neg := bit x (f.ew + f.fw)
  let e := x / 2 ^ f.fw % 2 ^ f.ew
  let m := x % 2 ^ f.fw
  if e = 2 ^ f.ew - 1 ∧ !f.e4m3 then
    if m = 0 then .inf neg else .nan (m < 2 ^ (f.fw - 1))
  else if e = 2 ^ f.ew - 1 ∧ m = 2 ^ f.fw - 1 then .nan false
  else if e = 0 then .fin neg m f.qmin
  else .fin neg (2 ^ f.fw + m) (f.qmin + (e - 1))

/-! ## Rounding (R173) -/

/-- The rounding codes of R173. -/
inductive RMode where
  | rne | rtz | rup | rdn | rna
deriving DecidableEq, Repr

/-- A rounding code 0b001 to 0b101; other codes read as RNE (R31 stores no other). -/
def rmode (c : Nat) : RMode :=
  match c with
  | 2 => .rtz
  | 3 => .rup
  | 4 => .rdn
  | 5 => .rna
  | _ => .rne

/-- A magnitude m / 2^sh of a sign rounded to an integer in a mode, and whether it is inexact. -/
def roundShift (md : RMode) (neg : Bool) (m sh : Nat) : Nat × Bool :=
  let q := m / 2 ^ sh
  let r := m % 2 ^ sh
  let up := match md with
    | .rne => 2 ^ sh < 2 * r || (2 * r == 2 ^ sh && q % 2 == 1)
    | .rtz => false
    | .rup => !neg && r != 0
    | .rdn => neg && r != 0
    | .rna => r != 0 && 2 ^ sh ≤ 2 * r
  (if up then q + 1 else q, r != 0)

/-- The magnitude m * 2^e of a sign rounded to a multiple of 2^q: the multiple, and whether it is inexact. -/
def roundAt (md : RMode) (neg : Bool) (m : Nat) (e q : Int) : Nat × Bool :=
  if q ≤ e then (m * 2 ^ (e - q).toNat, false) else roundShift md neg m (q - e).toNat

/-- RINT(x, mode) for a finite value (R173), as an integer, and whether it is inexact. -/
def rint (md : RMode) (neg : Bool) (m : Nat) (e : Int) : Int × Bool :=
  let r := roundAt md neg m e 0
  (if neg then -(r.1 : Int) else r.1, r.2)

/-- Whether an overflow in a mode goes to the infinity of the sign (R172). -/
def overflowsAway (md : RMode) (neg : Bool) : Bool :=
  match md with
  | .rne | .rna => true
  | .rtz => false
  | .rup => !neg
  | .rdn => neg

/-- A nonzero finite magnitude rounded to a format (R55, R172): bits and flags, tininess detected after rounding. -/
def roundFin (f : Fmt) (md : RMode) (sat : Bool) (neg : Bool) (m : Nat) (e : Int) : Nat × Flags :=
  let e0 : Int := e + m.log2
  let q := max (e0 - f.fw) f.qmin
  let r := roundAt md neg m e q
  let mag := (q - f.qmin).toNat * 2 ^ f.fw + r.1
  if f.maxBits < mag then
    if sat || !overflowsAway md neg then (f.maxBits + f.sign neg, flagOF ||| flagNX)
    else (f.infOf neg, flagOF ||| flagNX)
  else
    let free := roundAt md neg m e (e0 - f.fw)
    let emin := f.qmin + f.fw
    let tiny := e0 < emin && !(e0 == emin - 1 && free.1 == 2 ^ (f.fw + 1))
    (mag + f.sign neg, flagIf r.2 flagNX ||| flagIf (r.2 && tiny) flagUF)

/-- ROUND(v, f, m) (R55, R171, R172), with saturation if sat: bits and flags OF, UF and NX. -/
def roundTo (f : Fmt) (md : RMode) (sat : Bool) (v : Exact) : Nat × Flags :=
  match v with
  | .nan _ => (f.nanBits, 0)
  | .inf neg => (if sat then f.maxBits + f.sign neg else f.infOf neg, 0)
  | .fin neg 0 _ => (f.sign neg, 0)
  | .fin neg m e => roundFin f md sat neg m e

/-! ## Exact arithmetic -/

/-- Whether a value is a signalling NaN. -/
def Exact.isSnan : Exact → Bool
  | .nan sig => sig
  | _ => false

/-- Whether a value is a NaN. -/
def Exact.isNan : Exact → Bool
  | .nan _ => true
  | _ => false

/-- A value with its sign inverted. -/
def Exact.neg : Exact → Exact
  | .fin n m e => .fin (!n) m e
  | .inf n => .inf (!n)
  | .nan s => .nan s

/-- The signed mantissa of a finite value at an exponent no greater than its own. -/
def signedAt (neg : Bool) (m : Nat) (e q : Int) : Int :=
  let x : Int := m * 2 ^ (e - q).toNat
  if neg then -x else x

/-- The sum of two exact values and NV (IEEE 754-2019): a zero sum of opposite signs is -0 only in RDN. -/
def Exact.add (md : RMode) (x y : Exact) : Exact × Flags :=
  match x, y with
  | .nan a, .nan b => (.nan false, flagIf (a || b) flagNV)
  | .nan a, _ => (.nan false, flagIf a flagNV)
  | _, .nan b => (.nan false, flagIf b flagNV)
  | .inf a, .inf b => if a = b then (.inf a, 0) else (.nan false, flagNV)
  | .inf a, _ => (.inf a, 0)
  | _, .inf b => (.inf b, 0)
  | .fin a m e, .fin b n g =>
    let q := min e g
    let z := signedAt a m e q + signedAt b n g q
    if z = 0 then (.fin (if m = 0 ∧ n = 0 ∧ a = b then a else md == .rdn) 0 q, 0)
    else (.fin (z < 0) z.natAbs q, 0)

/-- The product of two exact values and NV. -/
def Exact.mul (x y : Exact) : Exact × Flags :=
  match x, y with
  | .nan a, .nan b => (.nan false, flagIf (a || b) flagNV)
  | .nan a, _ => (.nan false, flagIf a flagNV)
  | _, .nan b => (.nan false, flagIf b flagNV)
  | .inf a, .inf b => (.inf (a != b), 0)
  | .inf a, .fin b n _ => if n = 0 then (.nan false, flagNV) else (.inf (a != b), 0)
  | .fin a m _, .inf b => if m = 0 then (.nan false, flagNV) else (.inf (a != b), 0)
  | .fin a m e, .fin b n g => (.fin (a != b) (m * n) (e + g), 0)

/-- s * t + d with the product exact (R73): a NaN addend does not hide an invalid product (log 14). -/
def Exact.fma (md : RMode) (x y z : Exact) : Exact × Flags :=
  let p := x.mul y
  let r := p.1.add md z
  (r.1, p.2 ||| r.2)

/-- The quotient of two exact values with NV and DZ; a finite quotient is kept to 70 bits and a sticky bit, which decides
every rounding of R173 to a format of at most 53 bits. -/
def Exact.div (x y : Exact) : Exact × Flags :=
  match x, y with
  | .nan a, .nan b => (.nan false, flagIf (a || b) flagNV)
  | .nan a, _ => (.nan false, flagIf a flagNV)
  | _, .nan b => (.nan false, flagIf b flagNV)
  | .inf _, .inf _ => (.nan false, flagNV)
  | .inf a, .fin b _ _ => (.inf (a != b), 0)
  | .fin a _ _, .inf b => (.fin (a != b) 0 0, 0)
  | .fin a m e, .fin b n g =>
    if n = 0 then (if m = 0 then (.nan false, flagNV) else (.inf (a != b), flagDZ))
    else if m = 0 then (.fin (a != b) 0 0, 0)
    else
      let k := 70 + n.log2
      let q := m * 2 ^ k / n
      let r := m * 2 ^ k % n
      (.fin (a != b) (2 * q + (if r = 0 then 0 else 1)) (e - g - k - 1), 0)

/-- The integer square root, deciding one bit of the root at a time from bit b down. -/
def isqrtFrom : Nat → Nat → Nat → Nat
  | 0, _, r => r
  | b + 1, n, r => isqrtFrom b n (if (r + 2 ^ b) * (r + 2 ^ b) ≤ n then r + 2 ^ b else r)

/-- The integer square root. -/
def isqrt (n : Nat) : Nat := isqrtFrom (n.log2 / 2 + 1) n 0

/-- The square root of an exact value with NV, kept to more than 70 bits and a sticky bit. -/
def Exact.sqrt (x : Exact) : Exact × Flags :=
  match x with
  | .nan a => (.nan false, flagIf a flagNV)
  | .inf true => (.nan false, flagNV)
  | .inf false => (.inf false, 0)
  | .fin neg m e =>
    if m = 0 then (.fin neg 0 0, 0)
    else if neg then (.nan false, flagNV)
    else
      let k : Nat := 150 + (e % 2).toNat
      let n := m * 2 ^ k
      let r := isqrt n
      (.fin false (2 * r + (if r * r = n then 0 else 1)) ((e - k) / 2 - 1), 0)

/-- Whether x is less than y, both finite or infinite; -0 equals +0. -/
def Exact.lt (x y : Exact) : Bool :=
  match x, y with
  | .fin a m e, .fin b n g => let q := min e g; decide (signedAt a m e q < signedAt b n g q)
  | .inf a, .inf b => a && !b
  | .inf a, .fin _ _ _ => a
  | .fin _ _ _, .inf b => !b
  | _, _ => false

/-- Whether two values, no NaN among them, are equal; -0 equals +0. -/
def Exact.eq (x y : Exact) : Bool :=
  match x, y with
  | .fin a m e, .fin b n g => let q := min e g; decide (signedAt a m e q = signedAt b n g q)
  | .inf a, .inf b => a == b
  | _, _ => false

/-- Whether a value is negative or -0. -/
def Exact.signBit : Exact → Bool
  | .fin n _ _ => n
  | .inf n => n
  | .nan _ => false

/-! ## The operations of R73 to R76 on the bits of a format -/

/-- An exact result rounded once, with the operation's flags ORed in. -/
def finishOp (f : Fmt) (md : RMode) (r : Exact × Flags) : Nat × Flags :=
  let x := roundTo f md false r.1
  (x.1, r.2 ||| x.2)

/-- minimumNumber or maximumNumber (R74): the bits chosen, and NV for a signalling NaN. -/
def minMaxNum (f : Fmt) (wantMax : Bool) (a b : Nat) : Nat × Flags :=
  let x := f.decode a
  let y := f.decode b
  let fl := flagIf (x.isSnan || y.isSnan) flagNV
  let a := a % 2 ^ f.w
  let b := b % 2 ^ f.w
  if x.isNan && y.isNan then (f.nanBits, fl)
  else if x.isNan then (b, fl)
  else if y.isNan then (a, fl)
  else
    let less := x.lt y || (x.eq y && x.signBit && !y.signBit)
    (if less != wantMax then a else b, fl)

/-- FCMPEQ (R74). -/
def fcmpEq (f : Fmt) (a b : Nat) : Bool × Flags :=
  let x := f.decode a
  let y := f.decode b
  (x.eq y, flagIf (x.isSnan || y.isSnan) flagNV)

/-- FCMPLT (R74). -/
def fcmpLt (f : Fmt) (a b : Nat) : Bool × Flags :=
  let x := f.decode a
  let y := f.decode b
  (x.lt y, flagIf (x.isNan || y.isNan) flagNV)

/-- FCMPLE (R74). -/
def fcmpLe (f : Fmt) (a b : Nat) : Bool × Flags :=
  let x := f.decode a
  let y := f.decode b
  (x.lt y || x.eq y, flagIf (x.isNan || y.isNan) flagNV)

/-- FCLASS (R76): the number of the bit set. -/
def fclassBit (f : Fmt) (a : Nat) : Nat :=
  let neg := bit a (f.ew + f.fw)
  match f.decode a with
  | .nan true => 8
  | .nan false => 9
  | .inf true => 0
  | .inf false => 7
  | .fin _ m _ =>
    if m = 0 then (if neg then 3 else 4)
    else if a / 2 ^ f.fw % 2 ^ f.ew = 0 then (if neg then 2 else 5)
    else (if neg then 1 else 6)

/-! ## Element types and conversion codes (R75) -/

/-- A conversion code's type: signed of a width, UINT64, or a floating-point format. -/
inductive NumTy where
  | int (w : Nat)
  | u64
  | fp (f : Fmt)
deriving DecidableEq, Repr

/-- The type of a code of R75; codes 0 to 7 are also the etype codes of R47. -/
def numTy (c : Nat) : NumTy :=
  match c with
  | 0 => .int 8
  | 1 => .int 16
  | 2 => .int 32
  | 3 => .int 64
  | 4 => .fp fmt16
  | 5 => .fp fmtB16
  | 6 => .fp fmt32
  | 7 => .fp fmt64
  | 8 => .fp fmtE4M3
  | 9 => .fp fmtE5M2
  | _ => .u64

/-- A type's width in bits. -/
def NumTy.w : NumTy → Nat
  | .int w => w
  | .u64 => 64
  | .fp f => f.w

/-- The floating-point format of an FP etype (R47, R72). -/
def fmtOfEt (et : Nat) : Fmt :=
  match et with
  | 4 => fmt16
  | 5 => fmtB16
  | 6 => fmt32
  | _ => fmt64

/-- An integer as an exact value. -/
def exactOfInt (x : Int) : Exact := .fin (x < 0) x.natAbs 0

/-- The exact value of a type's low bits. -/
def NumTy.decode (t : NumTy) (x : Nat) : Exact :=
  match t with
  | .int w => exactOfInt (sval w x)
  | .u64 => .fin false (x % 2 ^ 64) 0
  | .fp f => f.decode x

/-- An exact value converted to an integer of a range (R75): the value, NX if inexact and in range, NV out of range or for a
NaN, which gives 0. -/
def toIntRange (md : RMode) (lo hi : Int) (v : Exact) : Int × Flags :=
  match v with
  | .nan _ => (0, flagNV)
  | .inf neg => (if neg then lo else hi, flagNV)
  | .fin neg m e =>
    let r := rint md neg m e
    if r.1 < lo then (lo, flagNV) else if hi < r.1 then (hi, flagNV) else (r.1, flagIf r.2 flagNX)

/-- The range of an integer type. -/
def NumTy.range : NumTy → Int × Int
  | .int w => (-(2 ^ (w - 1)), 2 ^ (w - 1) - 1)
  | _ => (0, 2 ^ 64 - 1)

/-- An 8-bit type: E4M3 or E5M2, which FMODE.SATF8 governs (R31, R172), or INT8, which no saturation bit touches. -/
def NumTy.narrow (t : NumTy) : Bool := t.w == 8

/-- A conversion of an exact value to a type (R75), saturating if sat (R172): the type's bits and the flags; a signalling
NaN source sets NV (log 134). -/
def NumTy.encode (t : NumTy) (md : RMode) (sat : Bool) (v : Exact) : Nat × Flags :=
  match t with
  | .fp f =>
    let r := roundTo f md sat v
    (r.1, r.2 ||| flagIf v.isSnan flagNV)
  | t =>
    let r := toIntRange md t.range.1 t.range.2 v
    (ofIntN t.w r.1, r.2)

end Sys2Proof.Machine
end

