-- ==== Sys2Proof/Machine/Mem.lean ====
section
/-! DEFINITION. Memory by physical place (05_memory_spaces R80 to R94): bytes, doublewords, full/empty bits, and the canonical
form. A DRAM byte's place is its channel's group key times 2^32 plus its physical address (R346); a scratch byte's place is
2^40 plus its way's number times 2^19 plus its offset (R83). -/

namespace Sys2Proof.Machine

/-- The place of a DRAM byte. -/
def dramLoc (g pa : Nat) : Nat := g * 2 ^ 32 + pa % 2 ^ 32

/-- The place of a scratch byte. -/
def scratchLoc (cl way off : Nat) : Nat := 2 ^ 40 + (cl * 16 + way) * 2 ^ 19 + off % 2 ^ 19

/-- The cluster whose vault slice is a place's home (R85). -/
def homeCluster (loc : Nat) : Key :=
  if 2 ^ 40 ≤ loc then (loc - 2 ^ 40) / 2 ^ 23 else clusterInGroup (loc / 2 ^ 32) (loc / 256 % 4)

/-- The die of a place's home. -/
def homeDie (loc : Nat) : Nat := dieOfCluster (homeCluster loc)

/-- What an unlisted byte reads as: 0, the contents at power-up (R94). -/
def unlistedByte : Byte := 0

/-- The byte at a place in a list of cells. -/
def cellGet : List Host.Cell → Nat → Byte
  | [], _ => unlistedByte
  | (a, b) :: m, x => if a = x then b else cellGet m x

/-- A list of cells with one byte set, in canonical form: places strictly rising, none holding what an unlisted place reads
as. -/
def cellPut : List Host.Cell → Nat → Byte → List Host.Cell
  | [], x, b => if b = unlistedByte then [] else [(x, b)]
  | (a, c) :: m, x, b =>
    if x < a then (if b = unlistedByte then (a, c) :: m else (x, b) :: (a, c) :: m)
    else if a = x then (if b = unlistedByte then m else (x, b) :: m)
    else (a, c) :: cellPut m x b

/-- Whether the cells are in canonical form, every place being above a bound. -/
def cellsWf : Nat → List Host.Cell → Bool
  | _, [] => true
  | lo, (a, b) :: m => lo ≤ a && b != unlistedByte && cellsWf (a + 1) m

/-- Whether a list of numbers rises strictly from a bound. -/
def risesFrom : Nat → List Nat → Bool
  | _, [] => true
  | lo, a :: m => lo ≤ a && risesFrom (a + 1) m

/-- The canonical form of memory. -/
def Mem.wf (m : Mem) : Bool := cellsWf 0 m.cells && risesFrom 0 m.full && risesFrom 0 m.poison

/-- The byte at a place. -/
def Mem.byte (m : Mem) (loc : Nat) : Byte := cellGet m.cells loc

/-- The memory with a byte written; full/empty bits and errors as they were (R93). -/
def Mem.setByte (m : Mem) (loc : Nat) (b : Byte) : Mem := { m with cells := cellPut m.cells loc b }

/-- n bytes from a place, as a little-endian number. -/
def Mem.readN (m : Mem) (loc : Nat) : Nat → Nat
  | 0 => 0
  | n + 1 => (m.byte loc).toNat + 256 * Mem.readN m (loc + 1) n

/-- The low n bytes of a number written from a place, little-endian. -/
def Mem.writeN (m : Mem) (loc : Nat) : Nat → Nat → Mem
  | 0, _ => m
  | n + 1, v => Mem.writeN (m.setByte loc (BitVec.ofNat 8 v)) (loc + 1) n (v / 256)

/-- The doubleword at a place (R55). -/
def Mem.word (m : Mem) (loc : Nat) : DW := dw (m.readN loc 8)

/-- The full/empty bit of the word that holds a place (R93). -/
def Mem.fe (m : Mem) (loc : Nat) : Bool := m.full.contains (loc / 8)

/-- The memory with a word's full/empty bit set. -/
def Mem.setFe (m : Mem) (loc : Nat) (b : Bool) : Mem :=
  { m with full := if b then nadd m.full (loc / 8) else ndel m.full (loc / 8) }

/-- Whether some word that n bytes from a place touch holds an uncorrectable error (R392); the first such word. -/
def Mem.badWord (m : Mem) (loc n : Nat) : Option Nat :=
  m.poison.find? (fun w => loc / 8 ≤ w && w ≤ (loc + n - 1) / 8)

/-- The memory with uncorrectable errors in words, each named by its place divided by 8 (R388, R392). -/
def Mem.strike (m : Mem) (ws : List Nat) : Mem := { m with poison := ws.foldl nadd m.poison }

/-- The n words from a place without an error (R392), rewritten whole by a fill. -/
def Mem.heal (m : Mem) (loc n : Nat) : Mem :=
  { m with poison := m.poison.filter (fun w => !(loc / 8 ≤ w && w < loc / 8 + n)) }

/-- Every word from a place, n words, zero and empty, without error (R92, R94, R363). -/
def Mem.wipe (m : Mem) (loc n : Nat) : Mem :=
  { cells := m.cells.filter (fun c => !(loc ≤ c.1 && c.1 < loc + 8 * n))
    full := m.full.filter (fun w => !(loc / 8 ≤ w && w < loc / 8 + n))
    poison := m.poison.filter (fun w => !(loc / 8 ≤ w && w < loc / 8 + n)) }

/-- The state with memory changed. -/
def State.modMem (s : State) (f : Mem → Mem) : State := { s with mem := f s.mem }

end Sys2Proof.Machine
end

