-- ==== Sys2Proof/Machine/Fabric.lean ====
section
/-! DEFINITION. The fabric (01_device R13, R14), its links (24_recovery R394) and the die clocks its packets carry (06_ordering_cases
R105): the path of a packet, the switches' grants, the replay of a packet, and the clock that a packet takes as it leaves its die. -/

namespace Sys2Proof.Machine

/-! ## Die clocks (R105, R106) -/

/-- A die's clock; I/O dies have none (R105). -/
def State.clockOf (s : State) (d : Nat) : List Nat := if d < 8 then (s.die d).clk else List.replicate 8 0

/-- A die's clock with its own count moved on by one (R105): answers the new clock. -/
def State.leaveDie (s : State) (d : Nat) : List Nat × State :=
  let c := (s.die d).clk
  let c' := c.set d (c.getD d 0 + 1)
  (c', s.modDie d (fun x => { x with clk := c' }))

/-- The larger of two clocks, counter by counter. -/
def clkMax (a b : List Nat) : List Nat := (a.zip b).map (fun x => max x.1 x.2)

/-- A clock merged into a die's (R105). -/
def State.mergeClk (s : State) (d : Nat) (c : List Nat) : State :=
  if d < 8 then s.modDie d (fun x => { x with clk := clkMax x.clk c }) else s

/-- A packet of die j carrying a clock has arrived at die d (R105, R106). -/
def State.heard (s : State) (d j : Nat) (c : List Nat) : State :=
  if d < 8 ∧ j < 8 then
    s.modDie d (fun x => { x with clk := clkMax x.clk c, known := x.known.set j (max (x.known.getD j 0) (c.getD j 0)) })
  else s

/-! ## Links (R394) -/

/-- A link: 16 lanes and two spares until lanes fail. -/
def State.fabricLink (s : State) (l : Nat) : Link := (mget s.io.links l).getD ⟨16, 2, false⟩

/-- A link that loses a lane: a spare takes its place, else the width halves; below four lanes the link is fenced. -/
def Link.loseLane (l : Link) : Link :=
  if 0 < l.spares then { l with spares := l.spares - 1 }
  else if l.width = 4 then { l with width := 2, fenced := true }
  else if l.fenced then l
  else { l with width := l.width / 2 }

/-- The state with a link changed. -/
def State.modLink (s : State) (l : Nat) (f : Link → Link) : State :=
  s.modIo (fun io => { io with links := mput io.links l (f (s.fabricLink l)) })

/-- How long flits take on a link: each halving of its width halves its rate. -/
def Link.time (l : Link) (flits : Nat) : Nat := flits * 16 / l.width

/-! ## Paths (R13) -/

/-- A switch's port at its link up of a number. -/
def upPort (i : Nat) : Nat := 32 + i

/-- The input of a switch that its link down from the next level ends in. -/
def fromAbove : Nat := 31

/-- The port of a cluster's switch at its vault slice (R95), and that of a die's switch at the die's own units. -/
def unitPort : Nat := 16

/-- The numbers of a cluster from its die down (R9): die, quadrant, group in the quadrant, cluster in the group. -/
def clusterPath (cl : Key) : List Nat :=
  let x := cl % 8
  let y := cl % 64 / 8
  [cl / 64, y / 4 * 2 + x / 4, y % 4 / 2 * 2 + x % 4 / 2, y % 2 * 2 + x % 2]

/-- A core's place in the tree: its cluster's, then its index in the cluster; a service core hangs on its I/O die. -/
def corePath (c : Key) : List Nat :=
  if isService c then [dieOfCore c, coreNum c] else clusterPath (clusterOf c) ++ [coreY c % 4 * 4 + coreX c % 4]

/-- A vault slice's place in the tree. -/
def slicePath (cl : Key) : List Nat := clusterPath cl ++ [unitPort]

/-- A die's own units in the tree. -/
def diePath (d : Nat) : List Nat := [d, unitPort]

/-- The number of a switch, which the numbers from the die down to it name; that of the package has none and is 0. -/
def switchNum (p : List Nat) : Nat := p.foldl (fun x a => x * 64 + a + 1) 0

/-- The number of an output of a switch: requests and responses are two classes (R97). -/
def outNum (p : List Nat) (port cls : Nat) : Nat := (switchNum p * 64 + port) * 2 + cls

/-- The link that an output sends on: the two classes of packets share it (R97). -/
def linkOf (o : Nat) : Nat := o / 2

/-- The output of the other class on an output's link. -/
def otherClass (o : Nat) : Nat := if o % 2 = 0 then o + 1 else o - 1

/-- Whether an output is one of the package switch, and the die it leads to. -/
def packageOut (o : Nat) : Bool := o < 128

/-- The number of an output's link up, if it is one. -/
def upNum (o : Nat) : Option Nat := if 32 ≤ o / 2 % 64 then some (o / 2 % 64 - 32) else none

/-- The length of the common beginning of two places. -/
def shared : List Nat → List Nat → Nat
  | a :: l, b :: m => if a = b then shared l m + 1 else 0
  | _, _ => 0

/-- The link up by which a switch sends a packet to a destination, a fixed function of the destination (R13, log 120). -/
def upTo (p b : List Nat) : Nat := Config.upLink (switchNum p) (switchNum b) % Config.upLinks

/-- The input at which a packet comes into a switch from below: the number of the switch or unit there, and of the link up that
the packet took. -/
def inputFrom (below link : Nat) : Nat := below + 32 * link

/-- The input of the switch n levels down a place's path at which a packet from that place to another comes in from below. -/
def climbInput (a b : List Nat) (n : Nat) : Nat :=
  inputFrom (a.getD n 0) (if n + 1 < a.length then upTo (a.take (n + 1)) b else 0)

/-- The hops of a packet (R13): up to the lowest switch that covers both places, then down. -/
def route (cls : Nat) (a b : List Nat) : List Hop :=
  let n := shared a b
  (List.range (a.length - 1 - n)).map (fun i =>
    let m := a.length - 1 - i
    ⟨outNum (a.take m) (upPort (upTo (a.take m) b)) cls, climbInput a b m⟩) ++
  [⟨outNum (a.take n) (b.getD n 0) cls, climbInput a b n⟩] ++
  (List.range (b.length - 1 - n)).map (fun i => ⟨outNum (b.take (n + 1 + i)) (b.getD (n + 1 + i) 0) cls, fromAbove⟩)

/-- The first link up of a switch, from a number on in cyclic order, that is not fenced (R394): of `fuel` links the next ones. -/
def State.openUp (s : State) (o i : Nat) : Nat → Nat
  | 0 => o
  | fuel + 1 =>
    let j := (i + 1) % Config.upLinks
    let o' := o - 2 * i + 2 * j
    if (s.fabricLink (linkOf o')).fenced then s.openUp o' j fuel else o'

/-- The hops of a packet round the fenced links: its traffic takes the other links up of the switch (R394). -/
def State.avoid (s : State) : List Hop → List Hop
  | [] => []
  | h :: l =>
    match upNum h.out, (s.fabricLink (linkOf h.out)).fenced with
    | some i, true =>
      let o := s.openUp h.out i (Config.upLinks - 1)
      ⟨o, h.inp⟩ :: (match s.avoid l with
        | [] => []
        | x :: l => { x with inp := inputFrom (x.inp % 32) ((upNum o).getD 0) } :: l)
    | _, _ => h :: s.avoid l

/-- The flits of a packet with n bytes of data (R14). -/
def flitsOf (n : Nat) : Nat := 1 + (n + 31) / 32

/-- A packet given to the fabric: of a class, from one place to another, with n bytes of data. -/
def State.packet (s : State) (cls : Nat) (a b : List Nat) (n : Nat) (req : Option Nat) (writes : Bool) (ev : Ev) : State :=
  { s with fabric := s.fabric ++ [⟨flitsOf n, s.avoid (route cls a b), none, [], req, writes, s.cycle, ev⟩] }

/-- A packet between cores, slices and dies, or at once where no switch lies between (R95). -/
def State.carry (s : State) (cls : Nat) (a b : List Nat) (near : Bool) (n : Nat) (ev : Ev) : State :=
  if near then s.push ev.i ev.arg else s.packet cls a b n none false ev

/-! ## Switches (R14) -/

/-- An output as it stands. -/
def State.swOut (s : State) (o : Nat) : SwOut := (mget s.outs o).getD ⟨1023, 0, false, 0⟩

/-- Whether a packet waits at an output. -/
def Packet.waitsAt (p : Packet) (o cycle : Nat) : Bool := p.came ≤ cycle && (match p.hops with
  | h :: _ => h.out == o
  | [] => false)

/-- Of the packets that wait at an output, the one it grants: of each input the first, and of the inputs the first after the one last
granted, in cyclic order. -/
def grantOf (last : Nat) : List Packet → Option Packet
  | [] => none
  | p :: l =>
    let key (x : Packet) : Nat := ((x.hops.headD ⟨0, 0⟩).inp + 1023 - last) % 1024
    match grantOf last l with
    | none => some p
    | some q => if key p ≤ key q then some p else some q

/-- The die that a packet leaves with its next hop, if that leads to the package switch and it has not left it before (R387). -/
def Packet.leaves (p : Packet) : Option Nat :=
  match p.hops with
  | _ :: h :: _ => if packageOut h.out && p.clk.isEmpty then some (h.inp % 32) else none
  | _ => none

/-- A packet that leaves its die takes the die's clock, a write its number (R105). -/
def State.depart (s : State) (p : Packet) : Packet × State :=
  match p.leaves with
  | none => (p, s)
  | some d =>
    let x := if p.writes && d < 8 then s.leaveDie d else (s.clockOf d, s)
    ({ p with clk := x.1 }, match p.req with
      | some id => { x.2 with
          reqs := x.2.reqs.map (fun r => if r.id = id then { r with out := true, clk := clkMax r.clk x.1 } else r)
          cores := x.2.cores.map (fun c => (c.1, { c.2 with sbuf := c.2.sbuf.filter (fun e => e.id != id) })) }
      | none => x.2)

/-- Whether an output gives its link to the other class of packets: that one sends, or has waited longer to. -/
def State.linkTaken (s : State) (o : Nat) : Bool :=
  let w := s.swOut o
  let v := s.swOut (otherClass o)
  s.cycle < v.busy || (!v.stop && decide (v.busy < w.busy) && s.fabric.any (fun p => p.waitsAt (otherClass o) s.cycle))

/-- Whether an output can send: its link is not fenced, no packet is on it, and its far end raises no stop signal (R14, R394). -/
def State.canSend (s : State) (o : Nat) : Bool :=
  decide ((s.swOut o).busy ≤ s.cycle) && !(s.swOut o).stop && !s.linkTaken o && !(s.fabricLink (linkOf o)).fenced

/-- One output's turn: the granted packet goes to the link's far end, where it stands once its flits have passed. A packet that comes out
of the package switch is heard by its die (R105, R106). -/
def State.moveOut (s : State) (o : Nat) : State :=
  if !s.canSend o then s
  else match grantOf (s.swOut o).last (s.fabric.filter (fun p => p.waitsAt o s.cycle)) with
    | none => s
    | some p =>
      let x := s.depart p
      let h := p.hops.headD ⟨0, 0⟩
      let t := s.cycle + (s.fabricLink (linkOf o)).time p.flits
      let s := if packageOut o then x.2.heard (o / 2) (h.inp % 32) p.clk else x.2
      { s with
        outs := mput s.outs o { s.swOut o with last := h.inp, busy := t }
        fabric := s.fabric.erase p ++ [{ x.1 with hops := p.hops.drop 1, via := some o, came := t }] }

/-- The stop signal of a link's far end, which the switch sees a cycle late: it stands while packets wait there, of which the skid buffer
holds 8 flits (log 120). -/
def State.skidOf (s : State) (o : Nat) : Nat :=
  min 8 ((s.fabric.filter (fun p => p.via == some o && p.came ≤ s.cycle)).foldl (fun n p => n + p.flits) 0)

/-- Whether a packet stands at its destination with the next cycle. -/
def Packet.arrives (p : Packet) (cycle : Nat) : Bool := p.hops.isEmpty && decide (p.came ≤ cycle + 1)

/-- The packets that have made their hops arrive. -/
def State.packetsIn (s : State) : State :=
  (s.fabric.filter (fun p => p.arrives s.cycle)).foldl (fun s p => s.at (s.cycle + 1) p.ev.i p.ev.arg)
    { s with fabric := s.fabric.filter (fun p => !p.arrives s.cycle) }

/-- One cycle of the fabric: every output at which a packet waits, in rising number. -/
def State.moveFabric (s : State) : State :=
  let os := s.fabric.foldl (fun l p => match p.hops with
    | h :: _ => nadd l h.out
    | [] => l) []
  let s := (os.foldl State.moveOut s).packetsIn
  { s with outs := s.outs.map (fun e => (e.1, { e.2 with stop := e.2.skid != 0, skid := s.skidOf e.1 })) }

/-! ## Replay (R386, R387, R394) -/

/-- Whether a packet is on a link and has not come out of it. -/
def Packet.onLink (p : Packet) (l cycle : Nat) : Bool := p.via.map linkOf == some l && decide (cycle < p.came)

/-- A packet on a link sent whole again, at the link's lanes and width of now; where the link is fenced, it stands at the switch before
it once more. -/
def State.resend (s : State) (l : Nat) (p : Packet) : Packet :=
  match p.via with
  | some o =>
    if (s.fabricLink l).fenced then { p with hops := ⟨o, (s.swOut o).last⟩ :: p.hops, via := none, came := s.cycle }
    else { p with came := s.cycle + (s.fabricLink l).time p.flits }
  | none => p

/-- The packet in flight on a link replayed; the others keep their order behind it, and take another way round a fenced link. -/
def State.replayLink (s : State) (l : Nat) : State :=
  let ps := (s.fabric.filter (fun p => p.onLink l s.cycle)).map (s.resend l)
  let free := ((ps.map (·.came)).head?).getD s.cycle
  { s with
    fabric := (ps ++ s.fabric.filter (fun p => !p.onLink l s.cycle)).map (fun p => { p with hops := s.avoid p.hops })
    outs := s.outs.map (fun e => if linkOf e.1 = l ∧ s.cycle < e.2.busy then (e.1, { e.2 with busy := free }) else e) }

/-- A link that loses a lane (R394): the change takes effect at a packet boundary, and the packet in flight is replayed. -/
def State.laneLost (s : State) (l : Nat) : State := (s.modLink l Link.loseLane).replayLink l

end Sys2Proof.Machine
end

