-- ==== Sys2Proof/Machine/Regs.lean ====
section
/-! DEFINITION. The registers of a thread: reading, writing, owing and marking (02_machine_state R22, R23, R414). -/

namespace Sys2Proof.Machine

/-- A register written (R23): full, its mark and debt cleared. -/
def RegCell.fill {w : Nat} (_ : RegCell w) (v : BitVec w) : RegCell w := ⟨v, true, false, false⟩

/-- A register that is owed a result (R23): empty; its mark stays until the result is written (R414; log 133). -/
def RegCell.owe {w : Nat} (c : RegCell w) : RegCell w := { c with full := false, owed := true }

/-- A register left empty and marked (R414). -/
def RegCell.leaveMarked {w : Nat} (c : RegCell w) : RegCell w := { c with full := false, owed := false, mark := true }

/-- A register left empty, nothing owed to it. -/
def RegCell.leaveEmpty {w : Nat} (c : RegCell w) : RegCell w := { c with full := false, owed := false }

/-- General register n; out of range, a full zero. -/
def Thread.gcell (t : Thread) (n : Nat) : RegCell 64 := t.g.toList.getD n (RegCell.zero 64)

/-- Predicate n. -/
def Thread.pcell (t : Thread) (n : Nat) : RegCell 1 := t.p.toList.getD n (RegCell.zero 1)

/-- Vector register n. -/
def Thread.vcell (t : Thread) (n : Nat) : RegCell 512 := t.v.toList.getD n (RegCell.zero 512)

/-- The value of general register n. -/
def Thread.gv (t : Thread) (n : Nat) : DW := (t.gcell n).val

/-- The value of predicate n; p0 reads as true (R23). -/
def Thread.pv (t : Thread) (n : Nat) : Bool := n == 0 || (t.pcell n).val == 1

/-- The value of vector register n. -/
def Thread.vv (t : Thread) (n : Nat) : VReg := (t.vcell n).val

/-- The thread with general register n changed. -/
def Thread.modG (t : Thread) (n : Nat) (f : RegCell 64 → RegCell 64) : Thread :=
  { t with g := t.g.setIfInBounds n (f (t.gcell n)) }

/-- The thread with predicate n changed; p0 ignores writes (R23). -/
def Thread.modP (t : Thread) (n : Nat) (f : RegCell 1 → RegCell 1) : Thread :=
  if n = 0 then t else { t with p := t.p.setIfInBounds n (f (t.pcell n)) }

/-- The thread with vector register n changed. -/
def Thread.modV (t : Thread) (n : Nat) (f : RegCell 512 → RegCell 512) : Thread :=
  { t with v := t.v.setIfInBounds n (f (t.vcell n)) }

/-- General register n written. -/
def Thread.setG (t : Thread) (n : Nat) (v : DW) : Thread := t.modG n (fun c => c.fill v)

/-- Predicate n written. -/
def Thread.setP (t : Thread) (n : Nat) (b : Bool) : Thread := t.modP n (fun c => c.fill (if b then 1 else 0))

/-- THS.VLIVE set (R29). -/
def Thread.setVlive (t : Thread) : Thread := { t with ths := t.ths ||| 0x800 }

/-- Vector register n written, which sets THS.VLIVE (R189). -/
def Thread.setV (t : Thread) (n : Nat) (v : VReg) : Thread := (t.modV n (fun c => c.fill v)).setVlive

/-- Whether a register is full (R23); p0 always is. -/
def Thread.isFull (t : Thread) : RegRef → Bool
  | .g n => (t.gcell n).full
  | .p n => n == 0 || (t.pcell n).full
  | .v n => (t.vcell n).full

/-- Whether a register is marked (R414). -/
def Thread.isMarked (t : Thread) : RegRef → Bool
  | .g n => (t.gcell n).mark
  | .p n => n != 0 && (t.pcell n).mark
  | .v n => (t.vcell n).mark

/-- Whether a result is owed to a register (R23). -/
def Thread.isOwed (t : Thread) : RegRef → Bool
  | .g n => (t.gcell n).owed
  | .p n => n != 0 && (t.pcell n).owed
  | .v n => (t.vcell n).owed

/-- A register set empty and owed a result (R23); a v register's debt sets THS.VLIVE (R189). -/
def Thread.oweReg (t : Thread) : RegRef → Thread
  | .g n => t.modG n RegCell.owe
  | .p n => t.modP n RegCell.owe
  | .v n => (t.modV n RegCell.owe).setVlive

/-- A register written with the low bits of a value. -/
def Thread.fillReg (t : Thread) (r : RegRef) (x : VReg) : Thread :=
  match r with
  | .g n => t.setG n (x.setWidth 64)
  | .p n => t.setP n (x.getLsbD 0)
  | .v n => t.setV n x

/-- A register left empty and marked (R414). -/
def Thread.markReg (t : Thread) : RegRef → Thread
  | .g n => t.modG n RegCell.leaveMarked
  | .p n => t.modP n RegCell.leaveMarked
  | .v n => t.modV n RegCell.leaveMarked

/-- A register left empty, nothing owed to it. -/
def Thread.emptyReg (t : Thread) : RegRef → Thread
  | .g n => t.modG n RegCell.leaveEmpty
  | .p n => t.modP n RegCell.leaveEmpty
  | .v n => t.modV n RegCell.leaveEmpty

/-- What TRAPADDR holds for a marked register (R414). -/
def RegRef.trapNum : RegRef → Nat
  | .g n => n
  | .p n => 0x40 + n
  | .v n => 0x80 + n

/-- Whether any result is owed to the thread's registers (R21). -/
def Thread.owesAny (t : Thread) : Bool :=
  t.g.toList.any (·.owed) || t.p.toList.any (·.owed) || t.v.toList.any (·.owed)

/-- Whether a result is owed to g20-g23 or to p1-p31 (R140, R369, R380). -/
def Thread.owesFrame (t : Thread) : Bool :=
  (t.g.toList.drop 20).any (·.owed) || (t.p.toList.drop 1).any (·.owed)

/-- Whether a result is owed to a vector register (R207). -/
def Thread.owesV (t : Thread) : Bool := t.v.toList.any (·.owed)

/-- Whether any register is marked (R414). -/
def Thread.anyMark (t : Thread) : Bool :=
  t.g.toList.any (·.mark) || t.p.toList.any (·.mark) || t.v.toList.any (·.mark)

/-- The bits a function gives the entries of a list, entry i at bit i. -/
def bitsOf {α : Type} (f : α → Bool) : List α → Nat
  | [] => 0
  | a :: l => (if f a then 1 else 0) + 2 * bitsOf f l

/-- The predicate word (R19): bit n is pn, bit 0 reads 1. -/
def predWord (p : Vector (RegCell 1) 32) : Nat := bitsOf (fun c => c.val == 1) p.toList / 2 * 2 + 1

/-- The full/empty bits of the predicates (R19): bit 0 is always 1. -/
def predFe (p : Vector (RegCell 1) 32) : Nat := bitsOf (·.full) p.toList / 2 * 2 + 1

/-- The predicates from a word and full/empty bits (R380). -/
def predsFrom (w fe : Nat) : Vector (RegCell 1) 32 :=
  Vector.ofFn (fun i => if i.val = 0 then ⟨1, true, false, false⟩
    else ⟨if bit w i.val then 1 else 0, bit fe i.val, false, false⟩)

/-- A register given a saved value and full/empty bit again (R140, R380): an empty one keeps the mark it has (R414). -/
def RegCell.reload {w : Nat} (c : RegCell w) (v : BitVec w) (full : Bool) : RegCell w := ⟨v, full, c.mark && !full, false⟩

/-- The thread with its predicates and g20-g23 given saved values again. -/
def Thread.reload (t : Thread) (ps fe : Nat) (g : Nat → DW) (gf : Nat → Bool) : Thread :=
  let cell (i : Nat) : RegCell 64 := (t.gcell (20 + i)).reload (g i) (gf i)
  { t with
    p := Vector.ofFn (fun i => if i.val = 0 then ⟨1, true, false, false⟩
      else (t.pcell i.val).reload (if bit ps i.val then 1 else 0) (bit fe i.val))
    g := (((t.g.setIfInBounds 20 (cell 0)).setIfInBounds 21 (cell 1)).setIfInBounds 22 (cell 2)).setIfInBounds 23 (cell 3) }

/-- Special-register fields of THS (R29). -/
def thsCANP : Nat := 15
/-- UIACT. -/
def thsUIACT : Nat := 14
/-- UIE. -/
def thsUIE : Nat := 13
/-- INTRAP. -/
def thsINTRAP : Nat := 12
/-- VLIVE. -/
def thsVLIVE : Nat := 11
/-- MIGR. -/
def thsMIGR : Nat := 10

/-- A bit of THS. -/
def Thread.thsBit (t : Thread) (n : Nat) : Bool := t.ths.getLsbD n

/-- A doubleword with one bit set or cleared. -/
def withBit (x : DW) (n : Nat) (b : Bool) : DW :=
  if b then x ||| BitVec.ofNat 64 (2 ^ n) else x &&& ~~~(BitVec.ofNat 64 (2 ^ n))

/-- The thread with a bit of THS set or cleared. -/
def Thread.setThs (t : Thread) (n : Nat) (b : Bool) : Thread := { t with ths := withBit t.ths n b }

/-- THS.PROG (R29). -/
def Thread.prog (t : Thread) : Nat := bits t.ths.toNat 36 32

/-- The thread with THS.PROG set. -/
def Thread.setProg (t : Thread) (i : Nat) : Thread :=
  { t with ths := (t.ths &&& ~~~(0x1F00000000 : DW)) ||| dw (i % 32 * 2 ^ 32) }

/-- The index of a k register number (R22): 24 to 27 are k0 to k3, 32 to 43 are k4 to k15. -/
def kIndex (n : Nat) : Nat := if n < 28 then n - 24 else n - 28

/-- Whether a register number names a k register (R22). -/
def isK (n : Nat) : Bool := (24 ≤ n && n < 28) || (32 ≤ n && n < 44)

/-- Whether a register number names q0 to q3 (R22). -/
def isQsrc (n : Nat) : Bool := 28 ≤ n && n < 32

/-- Whether a register number names q4 to q15 (R22). -/
def isQdst (n : Nat) : Bool := 44 ≤ n && n < 56

/-- The binding of k register n, by index. -/
def Thread.kb (t : Thread) (n : Nat) : Option Binding := t.k.toList.getD n none

/-- The thread with a k register's binding set. -/
def Thread.setKb (t : Thread) (n : Nat) (b : Option Binding) : Thread := { t with k := t.k.setIfInBounds n b }

/-- The doublewords in queue qn (R24): q2 holds the doublewords of its wake records in order (R327). -/
def Thread.queue (t : Thread) (n : Nat) : List DW :=
  match n with
  | 0 => t.q0
  | 1 => t.q1
  | 2 => (t.q2.flatten).drop t.q2pos
  | _ => t.q3

/-- The thread with the oldest doubleword of queue qn popped; q2's records leave whole (R327). -/
def Thread.popQueue (t : Thread) (n : Nat) : Thread :=
  match n with
  | 0 => { t with q0 := t.q0.drop 1 }
  | 1 => { t with q1 := t.q1.drop 1 }
  | 2 => if 4 ≤ t.q2pos + 1 then { t with q2 := t.q2.drop 1, q2pos := 0 } else { t with q2pos := t.q2pos + 1 }
  | _ => { t with q3 := t.q3.drop 1 }

end Sys2Proof.Machine
end

