-- ==== Sys2Proof/Machine/Flags.lean ====
section
/-! DEFINITION. FMODE (02_machine_state R31): rounding mode, FP8 saturation and the sticky flags. No integer instruction sets
a flag (04_scalar R62); the flag rules of each floating-point operation stand with it in Float.lean (R72 to R76). -/

namespace Sys2Proof.Machine

/-- FMODE.RM (R31). -/
def Thread.rm (t : Thread) : Nat := bits t.fmode.toNat 7 5

/-- FMODE.SATF8 (R31). -/
def Thread.satF8 (t : Thread) : Bool := t.fmode.getLsbD 8

/-- The rounding mode of an instruction (R55): its static code, or FMODE.RM for code 0. -/
def Thread.mode (t : Thread) (rnd : Nat) : RMode := rmode (if rnd = 0 then t.rm else rnd)

/-- FMODE with sticky flags set (R31): they are only ever ORed in. -/
def Thread.orFlags (t : Thread) (fl : Flags) : Thread := { t with fmode := t.fmode ||| fl.setWidth 32 }

/-- FMODE as MOVSW writes it (R31): reserved bits stay 0, and an RM outside 0b001 to 0b101 stores 0b001. -/
def fmodeFrom (v : DW) : BitVec 32 :=
  let rm := bits v.toNat 7 5
  let rm := if rm = 0 ∨ 5 < rm then 1 else rm
  BitVec.ofNat 32 (bits v.toNat 8 8 * 256 + rm * 32 + bits v.toNat 4 0)

end Sys2Proof.Machine
end

