-- ==== Sys2Proof/Machine/Batt.lean ====
section
/-! DEFINITION. Batts, bank format registers and the long accumulator (10_number_formats R174 to R187). -/

namespace Sys2Proof.Machine

/-! ## Batts (R174 to R177) -/

/-- The value of one element of a batt (R174): exponent E, m-bit mantissa. -/
def battElem (m ex : Nat) (mant : Nat) : Exact :=
  if ex = 0xFF then .nan false
  else
    let v := sval m mant
    .fin (v < 0) v.natAbs ((ex : Int) - 126 - m)

/-- Whether a finite value fits a batt of exponent e before rounding (R175, step 1). -/
def battFits (m e : Nat) (x : Exact) : Bool :=
  match x with
  | .fin neg n ex =>
    let sh : Int := ex - ((e : Int) - 126 - m)
    let lim := if neg then 2 ^ (m - 1) else 2 ^ (m - 1) - 1 + 1
    let v := n * 2 ^ sh.toNat
    let b := lim * 2 ^ (-sh).toNat
    if neg then decide (v ≤ b) else decide (v < b)
  | _ => true

/-- The smallest exponent from e on, within fuel, at which every element fits; 0xFE when none does (R175, step 1). -/
def battExp (m : Nat) (xs : List Exact) : Nat → Nat → Nat
  | 0, _ => 0xFE
  | fuel + 1, e => if xs.all (battFits m e) then e else battExp m xs fuel (e + 1)

/-- The mantissas of R175's rounding at an exponent, with whether each is inexact; an infinity stands as the bound of its
sign, one past the range. -/
def battRound (m e : Nat) (md : RMode) (x : Exact) : Int × Bool :=
  match x with
  | .fin neg n ex => rint md neg n (ex - ((e : Int) - 126 - m))
  | .inf neg => (if neg then -(2 ^ (m - 1)) - 1 else 2 ^ (m - 1), false)
  | .nan _ => (0, false)

/-- Whether a value is an infinity. -/
def Exact.isInf : Exact → Bool
  | .inf _ => true
  | _ => false

/-- Whether a value is nonzero and finite. -/
def Exact.isNonzero : Exact → Bool
  | .fin _ m _ => m != 0
  | _ => false

/-- R175: the exponent and the 16 mantissas (as m-bit numbers), with the flags an instruction sets. -/
def toBatt (m : Nat) (md : RMode) (sat : Bool) (xs : List Exact) : Nat × List Nat × Flags :=
  let snan := flagIf (xs.any Exact.isSnan) flagNV
  if xs.any Exact.isNan || (!sat && xs.any Exact.isInf) then (0xFF, xs.map (fun _ => 0), snan)
  else
    let lo : Int := -(2 ^ (m - 1))
    let hi : Int := 2 ^ (m - 1) - 1
    let e0 := battExp m xs 0xFF 0
    let r0 := xs.map (battRound m e0 md)
    let carry := (xs.zip r0).any (fun x => !x.1.isInf && decide (hi < x.2.1)) && decide (e0 < 0xFE)
    let e := if carry then e0 + 1 else e0
    let r := if carry then xs.map (battRound m e md) else r0
    let out := (xs.zip r).any (fun x => !x.1.isInf && (decide (hi < x.2.1) || decide (x.2.1 < lo)))
    let outInf := xs.any Exact.isInf
    if !sat && (out || outInf) then (0xFF, xs.map (fun _ => 0), flagOF ||| flagNX)
    else
      let ms := r.map (fun x => if hi < x.1 then hi else if x.1 < lo then lo else x.1)
      let inexact := (xs.zip (r.zip ms)).any (fun x => x.1.isInf || x.2.1.2 || x.2.1.1 != x.2.2)
      let under := (xs.zip ms).any (fun x => x.1.isNonzero && x.2 == 0)
      (e, ms.map (ofIntN m), flagIf inexact flagNX ||| flagIf under flagUF ||| flagIf out flagOF)

/-- Bit j of each of 16 mantissas, element i at bit i (R176). -/
def battPlane (ms : List Nat) (j : Nat) : Nat :=
  match ms with
  | [] => 0
  | x :: xs => x / 2 ^ j % 2 + 2 * battPlane xs j

/-- A dense batt as a little-endian number of 2(m+1) bytes (R176): halfword 0 holds E, halfword h the plane m - h. -/
def denseBatt (m ex : Nat) (ms : List Nat) : Nat :=
  (List.range m).foldr (fun j acc => battPlane ms (m - 1 - j) * 2 ^ (16 * (j + 1)) + acc) ex

/-- Mantissa i of a dense batt (R176). -/
def denseMant (m x i : Nat) : Nat :=
  (List.range m).foldr (fun b acc => (x / 2 ^ (16 * (m - b)) / 2 ^ i % 2) * 2 ^ b + acc) 0

/-- The 16 elements of a dense batt (R174, R176). -/
def denseElems (m x : Nat) : List Exact :=
  (List.range 16).map (fun i => battElem m (x % 256) (denseMant m x i))

/-- The elements of one sparse batt: exponent, bitmap, and the mantissas still in the stream (R177); answers them and the
rest of the stream. -/
def sparseElems (m ex bm : Nat) : Nat → Nat → Nat → List Exact × Nat
  | 0, _, strm => ([], strm)
  | n + 1, i, strm =>
    if bit bm i then
      let r := sparseElems m ex bm n (i + 1) (strm / 2 ^ m)
      (battElem m ex (strm % 2 ^ m) :: r.1, r.2)
    else
      let r := sparseElems m ex bm n (i + 1) strm
      ((if ex = 0xFF then .nan false else .fin false 0 0) :: r.1, r.2)

/-- The elements of the batts of a sparse run from batt b on, n batts (R177). -/
def sparseRun (m hdrs : Nat) : Nat → Nat → Nat → List Exact
  | 0, _, _ => []
  | n + 1, b, strm =>
    let h := hdrs / 2 ^ (24 * b) % 2 ^ 24
    let r := sparseElems m (h % 256) (h / 256) 16 0 strm
    r.1 ++ sparseRun m hdrs n (b + 1) r.2

/-- The number of set bits among the low n bits. -/
def popN : Nat → Nat → Nat
  | 0, _ => 0
  | n + 1, x => x % 2 + popN n (x / 2)

/-- The stored elements of a run, from its 48 header bytes (R177). -/
def sparseStored (hdrs : Nat) : Nat :=
  (List.range 16).foldr (fun b acc => popN 16 (hdrs / 2 ^ (24 * b + 8)) + acc) 0

/-- The length in bytes of a run whose batts store s elements (R177). -/
def sparseLen (m s : Nat) : Nat := 48 + 4 * ((m * s + 31) / 32)

/-- The greatest length of a run (R183). -/
def sparseMax (m : Nat) : Nat := 48 + 32 * m

/-- One batt as a sparse header, the stored mantissas and their count (R177). -/
def sparseOf (ex : Nat) (ms : List Nat) : Nat × List Nat :=
  let bm := (ms.zipIdx).foldr (fun x acc => (if x.1 = 0 then 0 else 2 ^ x.2) + acc) 0
  if ex = 0xFF then (0xFF, [])
  else if bm = 0 then (0, [])
  else (ex + 256 * bm, ms.filter (· != 0))

/-- A sparse run as a little-endian number and its length in bytes (R177). -/
def sparseBytes (m : Nat) (batts : List (Nat × List Nat)) : Nat × Nat :=
  let parts := batts.map (fun b => sparseOf b.1 b.2)
  let hdrs := (parts.zipIdx).foldr (fun p acc => p.1.1 * 2 ^ (24 * p.2) + acc) 0
  let stored := parts.flatMap (fun p => p.2)
  let strm := stored.foldr (fun x acc => x + acc * 2 ^ m) 0
  (hdrs + strm * 2 ^ 384, sparseLen m stored.length)

/-! ## Bank format registers (R178, R179) -/

/-- FMT. -/
def bfFmt (v : Nat) : Nat := bits v 15 12
/-- M. -/
def bfM (v : Nat) : Nat := bits v 11 8
/-- SPARSE. -/
def bfSparse (v : Nat) : Bool := bit v 7
/-- WRND. -/
def bfRnd (v : Nat) : Nat := bits v 6 4
/-- SAT. -/
def bfSat (v : Nat) : Bool := bit v 3

/-- The reset value of a format register of a scratch way (R178). -/
def bfReset : DW := 0x0018

/-- Whether a value breaks the map (R179). -/
def bfBad (v : Nat) : Bool :=
  12 ≤ bfFmt v || (bfFmt v == 11 && (bfM v < 2 || 8 < bfM v)) || (bfFmt v != 11 && (bfM v != 0 || bfSparse v)) ||
  bfRnd v < 1 || 5 < bfRnd v || v / 65536 != 0 || v % 8 != 0

/-- The number type of FMT 1 to 10 (R178). -/
def fmtNumTy (fmt : Nat) : NumTy := numTy (fmt - 1)

/-- The alignment of a format's addresses (R182); of an unformatted bank, 1. -/
def fmtAlign (v : Nat) : Nat :=
  if bfFmt v = 11 then (if bfSparse v then 4 else 2)
  else if bfFmt v = 0 then 1
  else (fmtNumTy (bfFmt v)).w / 8

/-! ## The long accumulator (R184 to R187) -/

/-- The header bits of an ACC object. -/
def accOVF : BitVec 4 := 1
/-- NAN. -/
def accNAN : BitVec 4 := 2
/-- PINF. -/
def accPINF : BitVec 4 := 4
/-- NINF. -/
def accNINF : BitVec 4 := 8

/-- x * 2^320 rounded to an integer, ties to even (R185), and whether it is inexact. -/
def accScale (neg : Bool) (m : Nat) (e : Int) : Int × Bool := rint .rne neg m (e + 320)

/-- R185: one operand added to a header and value. -/
def accAdd (h : BitVec 4) (v : BitVec 640) (x : Exact) : BitVec 4 × BitVec 640 :=
  match x with
  | .nan _ => (h ||| accNAN, v)
  | .inf true => (h ||| accNINF, v)
  | .inf false => (h ||| accPINF, v)
  | .fin neg m e =>
    let n := (accScale neg m e).1
    if n < -(2 ^ 639) ∨ 2 ^ 639 ≤ n then (h ||| accOVF, v)
    else
      let sum := v.toInt + n
      ((if sum < -(2 ^ 639) ∨ 2 ^ 639 ≤ sum then h ||| accOVF else h), v + BitVec.ofInt 640 n)

/-- R185 over a list of operands in order. -/
def accAddAll (h : BitVec 4) (v : BitVec 640) : List Exact → BitVec 4 × BitVec 640
  | [] => (h, v)
  | x :: xs => let r := accAdd h v x; accAddAll r.1 r.2 xs

/-- R186: the value an ACC object is read as, and NV for a NaN read because of OVF or of both infinities. -/
def accValue (h : BitVec 4) (v : BitVec 640) : Exact × Flags :=
  let ovf := h.getLsbD 0
  let both := h.getLsbD 2 && h.getLsbD 3
  if ovf || h.getLsbD 1 || both then (.nan false, flagIf (ovf || both) flagNV)
  else if h.getLsbD 2 then (.inf false, 0)
  else if h.getLsbD 3 then (.inf true, 0)
  else (.fin (v.toInt < 0) v.toInt.natAbs (-320), 0)

/-- Whether an address breaks the placement of an ACC object (R187). -/
def accMisplaced (a : Nat) : Bool := a % 32 != 0 || 160 < a % 256

end Sys2Proof.Machine
end

