-- ==== Sys2Proof/Machine/Levels.lean ====
section
/-! DEFINITION. The work hierarchy's counters (14_scheduling R237 to R241, 15_thread_instructions R254, R255), fault reports
(22_traps_and_preemption R376) and the events raised to Plynvas (02_machine_state R25). -/

namespace Sys2Proof.Machine

/-! ## Cause codes (R366) -/

def causeILLEGAL : Nat := 0x01
def causeEMPTY : Nat := 0x02
def causeBADADDR : Nat := 0x03
def causeMISALIGN : Nat := 0x04
def causePROT : Nat := 0x05
def causeSCRATCHGONE : Nat := 0x06
def causeMEMERR : Nat := 0x07
def causeBADOPND : Nat := 0x08
def causeWAITLIM : Nat := 0x09
def causeWAYBUSY : Nat := 0x0A
def causeWATCHFULL : Nat := 0x0B
def causeNOWATCH : Nat := 0x0C
def causeNOLEASE : Nat := 0x0D
def causeFENCED : Nat := 0x0E
def causePAGE : Nat := 0x0F
def causeSOFT : Nat := 0x10
def causeBRK : Nat := 0x11
def causeJOURNAL : Nat := 0x20
def causeASTORE : Nat := 0x21
def causeDOUBLE : Nat := 0x30
def causeBADCOUNT : Nat := 0x31
def causePLACE : Nat := 0x32
def causeGANGLATE : Nat := 0x33
def causeMODE : Nat := 0x34
def causeGRANT : Nat := 0x35
def causeQHALT : Nat := 0x36

/-! ## Events to Plynvas (R25) -/

/-- The state with an event's doublewords appended whole to the event queue (R25). Which service core's queue receives an
event the manual does not say (log 15): `Io.evCore`. -/
def State.raise (s : State) (ws : List Nat) : State :=
  s.modCore s.io.evCore (fun c => { c with evq := c.evq ++ ws.map dw })

/-- An event header (R25): KIND, N, and the other fields as a number. -/
def evHeader (kind n rest : Nat) : Nat := kind * 2 ^ 56 + n * 2 ^ 48 + rest

/-! ## Handles (R254, R255) -/

/-- A counter's place. -/
inductive LevelRef where
  | launch (die rec : Nat)
  | graph (die rec : Nat)
  | phase (part rec : Nat)
  | job (part : Nat)
deriving DecidableEq, Repr

/-- A launch record. -/
def State.launch (s : State) (d r : Nat) : Launch := (mget (s.die d).launches r).getD Launch.reset

/-- The state with a launch record changed. -/
def State.modLaunch (s : State) (d r : Nat) (f : Launch → Launch) : State :=
  s.modDie d (fun x => { x with launches := mput x.launches r (f (s.launch d r)) })

/-- A graph record. -/
def State.graph (s : State) (d r : Nat) : Graph := (mget (s.die d).graphs r).getD Graph.reset

/-- The state with a graph record changed. -/
def State.modGraph (s : State) (d r : Nat) (f : Graph → Graph) : State :=
  s.modDie d (fun x => { x with graphs := mput x.graphs r (f (s.graph d r)) })

/-- A counter. -/
def State.counter (s : State) : LevelRef → Counter
  | .launch d r => (s.launch d r).c
  | .graph d r => (s.graph d r).c
  | .phase p r => (mget (s.partn p).phases r).getD Counter.reset
  | .job p => (s.partn p).job

/-- The state with a counter changed. -/
def State.modCounter (s : State) (l : LevelRef) (f : Counter → Counter) : State :=
  match l with
  | .launch d r => s.modLaunch d r (fun x => { x with c := f x.c })
  | .graph d r => s.modGraph d r (fun x => { x with c := f x.c })
  | .phase p r => s.modPart p (fun x => { x with phases := mput x.phases r (f (s.counter (.phase p r))) })
  | .job p => s.modPart p (fun x => { x with job := f x.job })

/-- The handle of a counter (R254). -/
def handleOf (s : State) (l : LevelRef) : BitVec 32 :=
  match l with
  | .launch d r => BitVec.ofNat 32 ((s.launch d r).c.gen.toNat * 8192 + d * 1024 + r)
  | .graph d r => BitVec.ofNat 32 (0x40000000 + (s.graph d r).c.gen.toNat * 8192 + d * 1024 + r)
  | .phase p r => BitVec.ofNat 32 (0x80000000 + (s.counter (.phase p r)).gen.toNat * 8192 + r)
  | .job _ => 0xC0000000

/-- The place a handle names for a partition, if its must-be-zero bits and REC are right (R255, step 1). -/
def refOf (part : Nat) (h : Nat) : Option LevelRef :=
  let d := bits h 12 10
  let r := bits h 9 0
  match bits h 31 30 with
  | 0 => some (.launch d r)
  | 1 => if r < 256 then some (.graph d r) else none
  | 2 => if d = 0 ∧ r < 64 then some (.phase part r) else none
  | _ => if bits h 29 0 = 0 then some (.job part) else none

/-- The outcomes of R255. -/
inductive HandleRes where
  | bad
  | prot
  | stale
  | live (l : LevelRef)
deriving DecidableEq, Repr

/-- The check of a handle (R255): 64-bit operands have bits 63:32 zero. -/
def checkHandle (s : State) (part h : Nat) : HandleRes :=
  if 2 ^ 32 ≤ h then .bad
  else match refOf part h with
    | none => .bad
    | some l =>
      let c := s.counter l
      if c.used && c.part != part then .prot
      else if !c.used || (bits h 31 30 != 3 && c.gen.toNat != bits h 29 13) then .stale
      else .live l

/-! ## Counting (R238, R240) -/

/-- A counter freed: its generation moves on (R254). -/
def Counter.free (c : Counter) : Counter := { c with used := false, gen := c.gen + 1, waiters := [] }

/-- What is kept of a record that is freed (log 2): the level that contained a launch, and a graph's members. -/
def keepEnded (s : State) (l : LevelRef) : State :=
  match l with
  | .launch d r => s.modDie d (fun x => { x with endedLaunches := mput x.endedLaunches (handleOf s l).toNat (s.launch d r).parent })
  | .graph d r => s.modDie d (fun x => { x with endedGraphs := mput x.endedGraphs (handleOf s l).toNat (s.graph d r) })
  | _ => s

/-- The record of an ended level freed, if no CCWAIT still waits on it (R240); a job's counter stays. -/
def freeIfOver (s : State) (l : LevelRef) : State :=
  match l with
  | .job _ => s
  | _ =>
    let c := s.counter l
    if c.used && c.done && c.waiters.isEmpty then (keepEnded s l).modCounter l Counter.free else s

/-- A fault entered in a counter's record (R239, R376). -/
def Counter.addFault (c : Counter) (cause : Nat) : Counter :=
  { c with fcause := if c.fault then c.fcause else BitVec.ofNat 8 cause
           fault := true
           fcnt := min (c.fcnt + 1) (2 ^ 32 - 1) }

/-- The status of R239. -/
def Counter.status (c : Counter) : Nat :=
  c.fcnt * 2 ^ 32 + c.fcause.toNat * 2 ^ 24 + (if c.fault then 4 else 0) + (if c.can then 2 else 0) +
  (if c.done then 1 else 0)

/-- The level that a handle names, while its record is in use under it (R254, R255). -/
def liveRef (s : State) (part : Nat) (h : BitVec 32) : Option LevelRef :=
  match checkHandle s part h.toNat with
  | .live l => some l
  | _ => none

/-- The graph that a handle names or named. -/
def graphOf (s : State) (part : Nat) (h : BitVec 32) : Option Graph :=
  match liveRef s part h with
  | some (.graph d r) => some (s.graph d r)
  | some _ => none
  | none => if bits h.toNat 31 30 = 1 then mget (s.die (bits h.toNat 12 10)).endedGraphs h.toNat else none

/-- The state with that graph changed. -/
def modGraphOf (s : State) (part : Nat) (h : BitVec 32) (f : Graph → Graph) : State :=
  match liveRef s part h with
  | some (.graph d r) => s.modGraph d r f
  | some _ => s
  | none =>
    match graphOf s part h with
    | some g => s.modDie (bits h.toNat 12 10) (fun x => { x with endedGraphs := mput x.endedGraphs h.toNat (f g) })
    | none => s

/-- The handle of the level that contains, or contained, the one a handle names (R237). -/
def parentHandle (s : State) (part : Nat) (h : BitVec 32) : Option (BitVec 32) :=
  match refOf part h.toNat with
  | some (.launch d r) =>
    if (liveRef s part h).isSome then some (s.launch d r).parent else mget (s.die d).endedLaunches h.toNat
  | some (.graph _ _) => (graphOf s part h).map (·.parent)
  | some (.phase _ _) => some 0xC0000000
  | _ => none

/-- The handles of a level and of those that contain it, the job last (R237). -/
def levelsUp : Nat → State → Nat → BitVec 32 → List (BitVec 32)
  | 0, _, _, h => [h]
  | fuel + 1, s, part, h => h :: (match parentHandle s part h with
    | some u => levelsUp fuel s part u
    | none => if h = 0xC0000000 then [] else [0xC0000000])

/-- The level that contains one, while its record is in use. -/
def parentOf (s : State) (l : LevelRef) : Option LevelRef :=
  match l with
  | .launch d r => liveRef s (s.launch d r).c.part (s.launch d r).parent
  | .graph d r => liveRef s (s.graph d r).c.part (s.graph d r).parent
  | .phase p _ => some (.job p)
  | .job _ => none

/-- Whether the launches that a launch depends on have ended, and been flushed where R244 asks for it. -/
def State.depsMet (s : State) (d : Nat) (x : Launch) : Bool :=
  match graphOf s x.c.part x.parent with
  | some g =>
    (List.range 32).all (fun i => !x.deps.getLsbD i ||
      (g.ended.getLsbD i && (bits (g.members.getD i 0).toNat 12 10 == d || g.flushed.getLsbD i)))
  | none => true

/-- The engine of a die looked at at a cycle, once. -/
def State.wantLaunch (s : State) (t d : Nat) : State :=
  if s.timers.contains (t, ⟨.launchStart, .n1 d⟩) then s else s.at t .launchStart (.n1 d)

/-- The waiting launches whose dependences are met now enter their queues in the next cycle (R242). -/
def State.lookAtLaunches (s : State) : State :=
  s.dies.foldl (fun s d =>
    let l := d.2.launches.filter (fun r => r.2.c.used && r.2.stage == .waiting && s.depsMet d.1 r.2)
    if l.isEmpty then s
    else (l.foldl (fun s r => s.modLaunch d.1 r.1 (fun x => { x with stage := .due (s.cycle + 1) })) s).wantLaunch (s.cycle + 1) d.1) s

/-- The end of a launch (R242, R244): its bit in its graph's record, and the release flush that is due. -/
def noteEnd (s : State) (l : LevelRef) : State :=
  match l with
  | .launch d r =>
    let x := s.launch d r
    let s1 := modGraphOf s x.c.part x.parent (fun g => { g with ended := g.ended ||| BitVec.ofNat 32 (2 ^ x.member) })
    State.lookAtLaunches (State.push { s1 with flushes := s1.flushes ++ [⟨x.c.part, handleOf s l, d, levelsUp 3 s x.c.part (handleOf s l)⟩] }
      .releaseFlushDone (.n2 x.c.part (handleOf s l).toNat))
  | _ => s

/-- R238: a counter that reached 0, or whose cancelled level has ended: DONE, and its end counted in the level that contains
it, up to the job, whose end is reported to Plynvas. The fuel is the number of levels above. -/
def levelEnd : Nat → State → LevelRef → State
  | fuel, s, l =>
    let s1 := noteEnd (s.modCounter l (fun c => { c with count := 0, done := true })) l
    match l with
    | .job p => s1.raise [evHeader 6 1 (p * 2 ^ 32), (s1.counter l).status]
    | _ =>
      match fuel, parentOf s1 l with
      | fuel + 1, some up =>
        let c := s1.counter up
        let s2 :=
          if !c.used || c.done then s1
          else if c.count ≤ 1 then levelEnd fuel s1 up
          else s1.modCounter up (fun c => { c with count := c.count - 1 })
        freeIfOver s2 l
      | _, _ => freeIfOver s1 l

/-- One subtracted from a counter (R238); an adjustment of a DONE counter is discarded (R260). -/
def countDown (s : State) (l : LevelRef) : State :=
  let c := s.counter l
  if !c.used || c.done then s
  else if c.count ≤ 1 then levelEnd 3 s l
  else s.modCounter l (fun c => { c with count := c.count - 1 })

/-! ## Fault reports (R376) -/

/-- A report delivered (R376): at the first level, from its launch up, that is not DONE, then to Plynvas. -/
def deliverReport (s : State) (r : Report) : State :=
  match (levelsUp 3 s r.part r.handle).findSome? (fun h =>
    (liveRef s r.part h).bind (fun l => if (s.counter l).done then none else some l)) with
  | some l => s.modCounter l (fun c => c.addFault r.cause.toNat)
  | none => s.raise [evHeader 2 1 (r.cause.toNat * 2 ^ 40 + r.part * 2 ^ 32), 0xC0000000]

/-- A fault report sent for a thread's launch (R376); it arrives before the thread's decrement. -/
def State.report (s : State) (part : Nat) (launch : BitVec 32) (cause : Nat) : State :=
  deliverReport s ⟨part, launch, BitVec.ofNat 8 cause⟩

end Sys2Proof.Machine
end

