-- ==== Sys2Proof/Machine/Access.lean ====
section
/-! DEFINITION. Access checks, protection and translation (07_memory_instructions R115, 05_memory_spaces R80 to R84,
21_isolation R342 to R349, R361), and how an instruction can stop short of its effect. -/

namespace Sys2Proof.Machine

/-- How an instruction ends without its effect: an exact trap (R366) with cause, address and operand index; a park (R36); or
a page fault that drops the thread (R371). -/
inductive Stop where
  | trap (cause addr src : Nat)
  | park (p : Park)
  | drop (va : Nat) (w : Bool)

/-- A stop, with what its description makes happen nevertheless to the state the instruction found. -/
structure Halt where
  stop : Stop
  eff : State → State

/-- What an instruction body answers: a state or a stop. -/
abbrev Res (α : Type) := Except Halt α

/-- An exact trap without any effect (R5). -/
def trapWith {α : Type} (cause a : Nat) : Res α := .error ⟨.trap cause a 0, id⟩

/-- A park without any effect. -/
def parkOn {α : Type} (p : Park) : Res α := .error ⟨.park p, id⟩

/-- An exact BADOPND trap when a limit is broken. -/
def require (b : Bool) : Res Unit := if b then .ok () else trapWith causeBADOPND 0

/-! ## Regions (R80, R83, R84) -/

/-- The region byte of an address. -/
def regionOf (va : Nat) : Nat := bits va 55 48

/-- The scratch address of a byte (R83). -/
def scratchVa (cl way off : Nat) : Nat := 0xF0 * 2 ^ 48 + cl * 2 ^ 39 + way * 2 ^ 35 + off

/-- The cluster a scratch address names. -/
def scratchCl (va : Nat) : Key := bits va 47 39

/-- The way a scratch address names. -/
def scratchWay (va : Nat) : Nat := bits va 38 35

/-- Whether a way of a cluster is scratch (R90). -/
def State.isScratch (s : State) (cl way : Nat) : Bool := (s.cluster cl).wmask.getLsbD way

/-- Whether a group is in a partition's mask (R341): bit 16d + g. -/
def Partition.holds (p : Partition) (g : Key) : Bool :=
  if g < 64 then (p.pgrp.toList.getD 0 0).getLsbD g else (p.pgrp.toList.getD 1 0).getLsbD (g - 64)

/-- Whether the switches admit a partition to a group: the partition is valid and its mask holds the group (R82, R342). -/
def State.inPart (s : State) (p : Nat) (g : Key) : Bool := (s.partn p).pcfg.getLsbD 63 && (s.partn p).holds g

/-- The regions of R80 as numbers: DRAM-backed memory, scratch, configuration space, unassigned. -/
def regionClass (va : Nat) : Nat :=
  let r := regionOf va
  if r < 0xF0 then 0 else if r = 0xF0 then 1 else if r = 0xF1 then 2 else 3

/-- Whether n bytes from an address fail the region check of R80. -/
def regionBad (svc : Bool) (va n : Nat) : Bool :=
  let r := regionClass va
  regionClass ((va + n - 1) % 2 ^ 56) != r || r == 3 || (r == 2 && !svc)

/-- The trap of R115 steps 1 to 3 for n bytes from an address, if any; `al` is the alignment. -/
def State.addrTrap (s : State) (part : Nat) (svc : Bool) (va n al : Nat) : Option Nat :=
  let last := (va + n - 1) % 2 ^ 56
  if regionBad svc va n then some causeBADADDR
  else if regionClass va = 1 then
    if (s.partn part).gone.contains (groupOfCluster (scratchCl va)) then some causeSCRATCHGONE
    else if bits va 34 19 != 0 || bits last 47 19 != bits va 47 19 || 0x60000 ≤ bits last 18 0 then some causeBADADDR
    else if !s.isScratch (scratchCl va) (scratchWay va) then some causeBADADDR
    else if va % al != 0 then some causeMISALIGN
    else none
  else if va % al != 0 then some causeMISALIGN
  else none

/-! ## Protection (R343, R344) -/

/-- A range table entry read from its two doublewords, if it is valid (R343). -/
def parseRange (dom d0 d1 : Nat) : Option Range :=
  let base := bits d0 55 12
  let last := bits d1 55 12
  let span := bit d0 56
  if !bit d0 0 || bits d0 63 57 != 0 || bit d0 1 || bits d1 63 56 != 0 || bits d1 11 0 != 0 then none
  else if span && (base % 2 ^ 22 != 0 || (last + 1) % 2 ^ 22 != 0) then none
  else some ⟨dom, base, last, bits d0 11 9, bits d0 8 5, span, bit d0 4, bit d0 3, bit d0 2⟩

/-- Whether an entry covers n bytes from an address. -/
def Range.covers (r : Range) (va n : Nat) : Bool := r.base * 4096 ≤ va && va + n ≤ (r.last + 1) * 4096

/-- The entry of a domain's range table that covers n bytes, searched from entry i on. -/
def searchTable (s : State) (dom base va n : Nat) : Nat → Nat → Option Range
  | 0, _ => none
  | fuel + 1, i =>
    match parseRange dom (s.mem.readN (base + 16 * i) 8) (s.mem.readN (base + 16 * i + 8) 8) with
    | some r => if r.covers va n then some r else searchTable s dom base va n fuel (i + 1)
    | none => searchTable s dom base va n fuel (i + 1)

/-- The range table entry of a domain that covers n bytes (R343); RTBASE is a module physical place (log 4). -/
def State.rangeOf (s : State) (dom va n : Nat) : Option Range :=
  match mget s.io.doms dom with
  | none => none
  | some (b, c) => searchTable s dom b.toNat va n (min (c.toNat % 2048) 1024) 0

/-- The rights an access needs. -/
inductive Right where
  | rd | wr | rw | x
deriving DecidableEq, Repr

/-- Whether an entry grants a right (R344). -/
def Range.grants (r : Range) : Right → Bool
  | .rd => r.rd
  | .wr => r.w
  | .rw => r.rd && r.w
  | .x => r.x

/-- The group a DRAM-backed address travels to (R344, R347). -/
def Range.home (r : Range) (va : Nat) : Key :=
  let g := r.hdie * 16 + r.hgrp
  if r.span4 then groupInQuad g (bits va 33 32) else g

/-! ## Translation (R346 to R349) -/

/-- Page-fault codes of R25. -/
inductive PFault where
  | invalid | malformed | frame
deriving DecidableEq, Repr

/-- The code of a page fault (R25). -/
def PFault.code : PFault → Nat
  | .invalid => 1
  | .malformed => 2
  | .frame => 3

/-- The physical address a page leaf gives at level L, entry e (R347). -/
def leafPa (e L va : Nat) (span : Bool) : Except PFault Nat :=
  let size := bits e 61 58
  let frame := bits e 31 12 * 4096
  if bits e 57 32 != 0 || bits e 11 0 != 0 || 11 < size || size / 4 != L then .error .malformed
  else if size = 11 then if frame != 0 || !span then .error .malformed else .ok (va % 2 ^ 32)
  else
    let sz := 2 ^ (12 + 2 * size)
    if frame % sz != 0 || 2 ^ 32 < frame + sz then .error .malformed else .ok (frame + va % sz)

/-- The walk of a group's table to the entry that covers an address (R346): its level and the entry. -/
def walkFrom (s : State) (g va : Nat) : Nat → Nat → Except PFault (Nat × Nat)
  | node, L =>
    let idx := if L = 5 then bits va 55 52 else bits va (19 + 8 * L) (12 + 8 * L)
    let e := s.mem.readN (dramLoc g (node + 8 * idx)) 8
    match bits e 63 62 with
    | 0 => .error .invalid
    | 1 =>
      if bits e 61 32 != 0 || bits e 10 0 != 0 then .error .malformed
      else match L with
        | 0 => .error .malformed
        | L + 1 => walkFrom s g va (bits e 31 11 * 2048) L
    | _ => .ok (L, e)

/-- The entry that covers an address in a group's page table (R346). -/
def State.walk (s : State) (g va : Nat) : Except PFault (Nat × Nat) :=
  walkFrom s g va (bits (s.group g).ptroot.toNat 31 11 * 2048) 5

/-- Whether the entry that covers an address, of whatever level, is a given one. -/
def State.walksTo (s : State) (g va e : Nat) : Bool :=
  match s.walk g va with
  | .ok x => x.2 == e
  | .error _ => false

/-- Whether entries that all hold e cover exactly the addresses from va to an end (R348), each of its own level. -/
def State.refsCover (s : State) (g e : Nat) : Nat → Nat → Nat → Bool
  | 0, _, _ => false
  | fuel + 1, va, last =>
    match s.walk g va with
    | .error _ => false
    | .ok x =>
      let next := va + 2 ^ (12 + 8 * x.1)
      x.2 == e && va % 2 ^ (12 + 8 * x.1) == 0 && (next == last || (next < last && s.refsCover g e fuel next last))

/-- Whether n bytes from vt are exactly the span of the entries that hold the tile reference e (R348). -/
def State.tileSpan (s : State) (g vt n e : Nat) : Bool :=
  s.refsCover g e (n / 4096) vt (vt + n) && !(vt != 0 && s.walksTo g (vt - 1) e) && !(vt + n < 2 ^ 56 && s.walksTo g (vt + n) e)

/-- The physical address a tile reference gives (R348). -/
def tilePa (s : State) (g e va : Nat) : Except PFault Nat :=
  let d := bits e 31 5 * 32
  let w (i : Nat) := s.mem.readN (dramLoc g (d + 8 * i)) 8
  let vt := bits (w 0) 55 0
  let pbase := bits (w 1) 31 0
  let rowb := bits (w 2) 63 44
  let ystr := bits (w 2) 43 24
  let ny := bits (w 2) 19 0
  let zstr := bits (w 3) 63 44
  let nz := bits (w 3) 19 0
  let rb := 4096 * rowb
  let pa := pbase + (va - vt) % rb + 4096 * (ystr * ((va - vt) / rb % ny) + zstr * ((va - vt) / (rb * ny)))
  if bits e 61 32 != 0 || bits e 4 0 != 0 || bits (w 0) 63 56 != 0 || bits (w 1) 63 32 != 0
    || bits (w 2) 23 20 != 0 || bits (w 3) 43 20 != 0 || pbase % 4096 != 0 || rowb == 0 || ny == 0 || nz == 0 || ystr < rowb
    || (1 < nz && zstr < ystr * ny) || va < vt || rb * ny * nz ≤ va - vt || !s.tileSpan g vt (rb * ny * nz) e
    || 2 ^ 32 < pbase + rb + 4096 * (ystr * (ny - 1) + zstr * (nz - 1)) then .error .malformed
  else .ok pa

/-- The physical address of a DRAM-backed byte in its home group's channel (R346), whose frame the domain may use (R349). -/
def State.translate (s : State) (dom g va : Nat) (span : Bool) : Except PFault Nat :=
  match s.walk g va with
  | .error e => .error e
  | .ok (L, e) =>
    match (if bits e 63 62 = 2 then leafPa e L va span else tilePa s g e va) with
    | .error e => .error e
    | .ok pa =>
      match mget (s.group g).frames (pa / 4096) with
      | none => .ok pa
      | some .dirty => .error .frame
      | some (.owned d) => if d = dom then .ok pa else .error .frame

/-- The frame of a DRAM place becomes owned by a domain, if it is clean (R349). -/
def State.claim (s : State) (dom loc : Nat) : State :=
  if 2 ^ 40 ≤ loc then s
  else match mget (s.group (loc / 2 ^ 32)).frames (loc % 2 ^ 32 / 4096) with
    | none => s.modGroup (loc / 2 ^ 32) (fun x => { x with frames := mput x.frames (loc % 2 ^ 32 / 4096) (.owned dom) })
    | some _ => s

/-! ## One access (R115) -/

/-- The place of a DRAM-backed byte whose line stands in the vault slice that is its home under a domain's address (R81, R86): that slice
is known before translation (R344). -/
def State.vaultPlace (s : State) (dom g va : Nat) : Option Nat :=
  ((s.cluster (clusterInGroup g (va / 256 % 4))).lines.find? (fun l => l.dom == dom && l.tag == va / 128)).map
    (fun l => l.loc + va % 128)

/-- The place of a byte whose line stands in a core's data cache (R81, R87). -/
def State.corePlace (s : State) (core : Key) (dom va : Nat) : Option Nat :=
  ((s.core core).dcache.find? (fun l => l.dom == dom && l.tag == va / 32)).map (fun l => l.loc + va % 32)

/-- Where an access that passed its checks goes, by its address, and the cause for which a switch will refuse it (R342, R361). -/
structure Place where
  va : Nat
  loc : Nat
  refuse : Option Nat
deriving DecidableEq, Repr

/-- The cause for which the switches refuse a packet of a die and partition to a group: FENCED before PROT (R342, R361).
Service packets carry no partition and only fences stop them. -/
def State.switchRefuses (s : State) (die part : Nat) (svc : Bool) (g : Key) : Option Nat :=
  if dieOfGroup g != die && ((s.die (dieOfGroup g)).fenced || (die < 8 && (s.die die).fenced)) then some causeFENCED
  else if !svc && !s.inPart part g then some causePROT
  else none

/-- The place of n bytes that an entry covers, for an access of a die, partition and domain: it is translated only where neither the home
vault nor, as `known` says, the core's cache holds the line (R81). -/
def State.placeIn (s : State) (die part dom : Nat) (svc : Bool) (r : Range) (va : Nat) (known : Option Nat) : Except PFault Place :=
  if regionOf va = 0xF0 then
    .ok ⟨va, scratchLoc (scratchCl va) (scratchWay va) (bits va 18 0), s.switchRefuses die part svc (groupOfCluster (scratchCl va))⟩
  else
    let g := r.home va
    match s.switchRefuses die part svc g with
    | some c => .ok ⟨va, dramLoc g va, some c⟩
    | none =>
      match known.or (s.vaultPlace dom g va) with
      | some loc => .ok ⟨va, loc, none⟩
      | none =>
        match s.translate dom g va r.span4 with
        | .error e => .error e
        | .ok pa => .ok ⟨va, dramLoc g pa, none⟩

/-- The thread's partition and domain numbers. -/
def Thread.partN (t : Thread) : Nat := t.part.toNat
/-- The thread's domain. -/
def Thread.domN (t : Thread) : Nat := t.domain.toNat

/-- The PLB with an entry used: the entries are listed with the one used last first (R344). -/
def plbUse (l : List Range) (r : Range) : List Range := r :: l.filter (· != r)

/-- The PLB with an entry loaded in place of the one used least recently (R344); its size is open (log 121). -/
def plbLoad (l : List Range) (r : Range) : List Range := r :: (l.filter (· != r)).take (Config.plbEntries - 1)

/-- The state with the entry of a core's PLB used that covers n bytes. -/
def State.usePlb (s : State) (core : Key) (dom va n : Nat) : State :=
  match (s.core core).plb.find? (fun r => r.dom == dom && r.covers va n) with
  | some r => s.modCore core (fun c => { c with plb := plbUse c.plb r })
  | none => s

/-- The PLB entry of a core for an access, or the stop of R344: a miss parks and fills, an uncovered access or a missing right
traps. -/
def State.plb (s : State) (k : Key) (dom va n : Nat) (rt : Right) : Res Range :=
  match (s.core (coreOf k)).plb.find? (fun r => r.dom == dom && r.covers va n) with
  | some r => if r.grants rt then .ok r else trapWith causePROT va
  | none =>
    match s.rangeOf dom va n with
    | some r =>
      if r.grants rt then
        .error ⟨.park (.plb (addr va)), fun s => s.push .plbFill (.val (k * 4096 + dom) n (dw va))⟩
      else trapWith causePROT va
    | none => trapWith causePROT va

/-- The checks of a thread's access to n bytes from va, aligned to al, that its core makes (R115, steps 1 to 4). Configuration space is
reached by doubleword loads and stores only (R82), which do not come here (log 122). -/
def State.checks (s : State) (k : Key) (t : Thread) (va n al : Nat) (rt : Right) : Res Range :=
  match s.addrTrap t.partN (isService (coreOf k)) va n al with
  | some c => trapWith c va
  | none =>
    if regionOf va = 0xF1 then trapWith (if n = 8 then causeBADADDR else causeMISALIGN) va
    else s.plb k t.domN va n rt

/-- Where an access goes that passed them; `late` says that a switch's refusal is reported asynchronously (R342). A page fault drops the
thread (R371). -/
def State.goesTo (s : State) (k : Key) (t : Thread) (r : Range) (va : Nat) (rt : Right) (late : Bool) : Res Place :=
  match s.placeIn (dieOfCore (coreOf k)) t.partN t.domN (isService (coreOf k)) r va
      (if rt == .rd then s.corePlace (coreOf k) t.domN va else none) with
  | .error _ => .error ⟨.drop va (rt == .wr || rt == .rw), id⟩
  | .ok p =>
    match p.refuse with
    | some c => if late then .ok p else trapWith c va
    | none => .ok p

/-- An access of a thread to n bytes from va (R115). -/
def State.access (s : State) (k : Key) (t : Thread) (va n al : Nat) (rt : Right) (late : Bool) : Res Place :=
  match s.checks k t va n al rt with
  | .error h => .error h
  | .ok r => s.goesTo k t r va rt late

/-- The check of R115 steps 1, 2 and 4 over a whole range of an engine command, made when it is accepted: a trap's cause, or
none. The range table is read as it stands (log 16). -/
def State.rangeTrap (s : State) (part dom : Nat) (svc : Bool) (va n : Nat) (rt : Right) : Option Nat :=
  match s.addrTrap part svc va n 1 with
  | some c => some c
  | none =>
    match s.rangeOf dom va n with
    | none => some causePROT
    | some r => if r.grants rt then none else some causePROT

/-- The place of one engine access, after its command was accepted (R342, R413): an error is a page fault. -/
def State.enginePlace (s : State) (die part dom : Nat) (va : Nat) : Except PFault Place :=
  match s.rangeOf dom va 1 with
  | none => .ok ⟨va, dramLoc 0 va, some causePROT⟩
  | some r => s.placeIn die part dom false r va none

end Sys2Proof.Machine
end

