-- ==== Sys2Proof/Machine/Vault.lean ====
section
/-! DEFINITION. The caches (05_memory_spaces R85 to R87), the write buffers and the DRAM write queue (06_ordering_cases R113), and the
group's memory port (05_memory_spaces R88, R89). -/

namespace Sys2Proof.Machine

/-! ## Lines kept in order of use -/

/-- A list without those beyond the first n of the entries that belong to a set. -/
def keepFirst {α : Type} (inSet : α → Bool) : Nat → List α → List α
  | _, [] => []
  | n, a :: l =>
    if inSet a then match n with
      | 0 => keepFirst inSet 0 l
      | n + 1 => a :: keepFirst inSet n l
    else a :: keepFirst inSet n l

/-- A line put first, in place of its old copy or of the least recently used one of its full set. -/
def linePut {α : Type} (same inSet : α → Bool) (ways : Nat) (l : List α) (x : α) : List α :=
  x :: keepFirst inSet (ways - 1) (l.filter (fun y => !same y))

/-- The lines with those of a kind first: used last. -/
def lineUse {α : Type} (same : α → Bool) (l : List α) : List α := l.filter same ++ l.filter (fun y => !same y)

/-! ## Core caches (R41, R87) -/

/-- Whether an instruction-cache line is that of an address in a domain. -/
def ILine.of (l : ILine) (dom va : Nat) : Bool := l.dom == dom && l.tag == va / 32

/-- The bytes of a core's instruction-cache line. -/
def State.iLine (s : State) (core : Key) (dom va : Nat) : Option (BitVec 256) :=
  ((s.core core).icache.find? (fun l => l.of dom va)).map (·.data)

/-- That line used. -/
def State.iUse (s : State) (core : Key) (dom va : Nat) : State :=
  s.modCore core (fun c => { c with icache := lineUse (fun l => l.of dom va) c.icache })

/-- A line filled into a core's instruction cache: 4 ways of 256 sets (R87). -/
def State.iFill (s : State) (core : Key) (dom va : Nat) (data : BitVec 256) : State :=
  s.modCore core (fun c => { c with
    icache := linePut (fun l => l.of dom va) (fun l => l.tag % 256 == va / 32 % 256) 4 c.icache ⟨dom, va / 32, data⟩ })

/-- Whether a data-cache line is that of an address in a domain. -/
def DLine.of (l : DLine) (dom va : Nat) : Bool := l.dom == dom && l.tag == va / 32

/-- What a core's data cache holds of n bytes, which lie in one line. -/
def State.dRead (s : State) (core : Key) (dom va n : Nat) : Option Nat :=
  ((s.core core).dcache.find? (fun l => l.of dom va)).map (fun l => l.data.toNat / 256 ^ (va % 32) % 256 ^ n)

/-- A line used. -/
def State.dUse (s : State) (core : Key) (dom va : Nat) : State :=
  s.modCore core (fun c => { c with dcache := lineUse (fun l => l.of dom va) c.dcache })

/-- A line filled into a core's data cache as it stands at its home, its words' full/empty bits among it (R87, R93): 4 ways of 128 sets.
Only lines with a home on the core's die are (R98). -/
def State.dFill (s : State) (core : Key) (dom va loc : Nat) : State :=
  if homeDie loc != dieOfCore core then s
  else
    let b := loc / 32 * 32
    let fe : Nat := (List.range 4).foldl (fun x i => x + if s.mem.fe (b + 8 * i) then 2 ^ i else 0) 0
    let x : DLine := ⟨dom, va / 32, b, BitVec.ofNat 256 (s.mem.readN b 32), BitVec.ofNat 4 fe⟩
    s.modCore core (fun c => { c with
      dcache := linePut (fun l => l.of dom va) (fun l => l.tag % 128 == va / 32 % 128) 4 c.dcache x })

/-- Every core's copy of lines that meet n bytes from a place invalidated (R97, R111). -/
def State.dropCopies (s : State) (loc n : Nat) : State :=
  { s with cores := s.cores.map (fun e => (e.1, { e.2 with dcache := e.2.dcache.filter (fun l => !(loc < l.loc + 32 && l.loc < loc + n)) })) }

/-- A store's bytes put into the line of its own core, if that is present (R87). -/
def State.dStore (s : State) (core : Key) (dom va loc : Nat) (present : Bool) : State :=
  if present then s.dFill core dom va loc else s

/-! ## Vault cache ways (R86) -/

/-- The ways of a slice that are cache. -/
def Cluster.cacheWays (c : Cluster) : List Nat := (List.range 16).filter (fun i => !c.wmask.getLsbD i)

/-- Whether an access to a place goes straight to its channel: its home slice has no cache way (R86). -/
def State.uncached (s : State) (loc : Nat) : Bool :=
  loc < 2 ^ 40 && (s.cluster (homeCluster loc)).wmask.toNat % 65536 == 65535

/-- The set of a place's line among the 3,072 that a way of 384 KiB has room for (log 124). -/
def vaultSet (loc : Nat) : Nat := (loc % 2 ^ 32 / 1024 * 2 + loc / 128 % 2) % 3072

/-- Whether a vault line is that of an address in a domain and of a place. -/
def VLine.of (l : VLine) (dom va loc : Nat) : Bool := l.dom == dom && l.tag == va / 128 && l.loc == loc / 128 * 128

/-- The line of an address in its home slice. -/
def State.vaultLine (s : State) (dom va loc : Nat) : Option VLine :=
  (s.cluster (homeCluster loc)).lines.find? (fun l => l.of dom va loc)

/-- Whether an access misses in its home vault (R81, R88): a DRAM-backed byte whose line no cache way holds. -/
def State.vaultMiss (s : State) (dom va loc : Nat) : Bool := loc < 2 ^ 40 && (s.vaultLine dom va loc).isNone

/-- A line used, and dirty once written (R86). -/
def State.vaultUse (s : State) (dom va loc : Nat) (dirty : Bool) : State :=
  if 2 ^ 40 ≤ loc then s
  else s.modCluster (homeCluster loc) (fun c => { c with lines :=
    (lineUse (fun (l : VLine) => l.of dom va loc) c.lines).map (fun l => if l.of dom va loc then { l with dirty := l.dirty || dirty } else l) })

/-- The way of a slice that serves a place (R95): a scratch word's own, that of its line, or none. -/
def State.wayOf (s : State) (dom va loc : Nat) : Option Nat :=
  if 2 ^ 40 ≤ loc then some ((loc - 2 ^ 40) / 2 ^ 19 % 16) else (s.vaultLine dom va loc).map (·.way)

/-! ## Write buffers and the write queue (R89, R113) -/

/-- The entries with the oldest of each domain marked ready from a cycle on, if it was not before. -/
def markReady (cycle : Nat) : List Nat → List WEnt → List WEnt
  | _, [] => []
  | seen, e :: l =>
    if seen.contains e.dom then e :: markReady cycle seen l
    else { e with ready := e.ready.or (some cycle) } :: markReady cycle (e.dom :: seen) l

/-- Of the entries that are ready the one that drains next (R113): the one ready first, and of those ready in one cycle that of the
first domain after the one last served. -/
def nextEnt (last : Nat) : List WEnt → Option WEnt
  | [] => none
  | e :: l =>
    match e.ready, nextEnt last l with
    | none, x => x
    | some _, none => some e
    | some t, some f =>
      let u := f.ready.getD t
      let key (x : WEnt) : Nat := (x.dom + 4095 - last) % 4096
      if t < u || (t == u && key e ≤ key f) then some e else some f

/-- Whether write-backs go first (R89): from more than three-quarters full on, until half full. -/
def writesFirst (was : Bool) (n : Nat) : Bool :=
  if 3 * Config.writeQueueRoom < 4 * n then true else was && Config.writeQueueRoom < 2 * n

/-- An event due unless it already is. -/
def State.pushOnce (s : State) (i : Instr) (a : Arg) : State :=
  if s.agenda.contains ⟨i, a⟩ || s.timers.any (fun t => t.2 == ⟨i, a⟩) then s else s.push i a

/-- An event tried again in the next cycle. -/
def State.retry (s : State) (i : Instr) (a : Arg) : State := s.at (s.cycle + 1) i a

/-- The same, unless it is already due in a later cycle. -/
def State.retryOnce (s : State) (i : Instr) (a : Arg) : State := if s.timers.any (fun t => t.2 == ⟨i, a⟩) then s else s.retry i a

/-- A write entered in its channel's write queue, its drain being due. -/
def State.enqueue (s : State) (g : Key) (e : WEnt) : State :=
  (s.modGroup g (fun x =>
    let q := markReady s.cycle [] (x.wq ++ [e])
    { x with wq := q, wqFirst := writesFirst x.wqFirst q.length })).pushOnce .writeQueueDrain (.n1 g)

/-- A performed write to a place, of a domain, entered where it drains (R86, R113): the channel's write queue if its slice has no cache
way, else the slice's write buffer, the line of a DRAM-backed byte becoming dirty. -/
def State.wrote (s : State) (va loc : Nat) (e : WEnt) : State :=
  if s.uncached loc then s.enqueue (loc / 2 ^ 32) e
  else
    ((s.vaultUse e.dom va loc true).modCluster (homeCluster loc) (fun c => { c with wbuf := markReady s.cycle [] (c.wbuf ++ [e]) })).pushOnce
      .writeQueueDrain (.n2 0 (homeCluster loc))

/-- A dirty line written to DRAM (R86): it enters the channel's write queue in its domain. -/
def State.writeBack (s : State) (l : VLine) : State :=
  if l.dirty then s.enqueue (l.loc / 2 ^ 32) ⟨l.dom, l.loc, 0, 0, none, none, []⟩ else s

/-- The lines of one set of a slice, the one used last first. -/
def Cluster.setLines (c : Cluster) (loc : Nat) : List VLine := c.lines.filter (fun l => vaultSet l.loc == vaultSet loc)

/-- The way a new line of a place takes: a cache way that its set leaves free, else that of the least recently used line. -/
def Cluster.victim (c : Cluster) (loc : Nat) : Option Nat :=
  let used := (c.setLines loc).map (·.way)
  match c.cacheWays.find? (fun w => !used.contains w) with
  | some w => some w
  | none => (c.setLines loc).getLast?.map (·.way)

/-- One 128-byte line filled into its home slice (R86), the line it replaces being written back. -/
def State.vaultFillLine (s : State) (dom va loc : Nat) : State :=
  let cl := homeCluster loc
  if (s.vaultLine dom va loc).isSome then s
  else match (s.cluster cl).victim loc with
    | none => s
    | some w =>
      let out := ((s.cluster cl).setLines loc).filter (fun l => l.way == w)
      let s := out.foldl State.writeBack s
      s.modCluster cl (fun c => { c with lines := ⟨dom, va / 128, loc / 128 * 128, w, false⟩ :: c.lines.filter (fun l => !out.contains l) })

/-- Both lines of a 256-byte block filled (R88, step 4). -/
def State.vaultFill (s : State) (dom va loc : Nat) : State :=
  if s.uncached loc then s
  else (s.vaultFillLine dom (va / 256 * 256) (loc / 256 * 256)).vaultFillLine dom (va / 256 * 256 + 128) (loc / 256 * 256 + 128)

/-- The state without the lines and copies of n bytes from a place, none written back: they hold nothing any more (R92, R363). -/
def State.purge (s : State) (loc n : Nat) : State :=
  let s := s.dropCopies loc n
  { s with clusters := s.clusters.map (fun e => (e.1, { e.2 with lines := e.2.lines.filter (fun l => !(loc < l.loc + 128 && l.loc < loc + n)) })) }

/-! ## The group's memory port (R88) -/

/-- One that waits for a burst joins its block's window, or waits for the outstanding burst; the first opens the window. -/
def State.askBurst (s : State) (a : Ask) (loc : Nat) : State :=
  let g := loc / 2 ^ 32
  let b := loc % 2 ^ 32 / 256
  let x := s.group g
  let l := (mget x.windows b).getD []
  if l.contains a then s
  else
    let s' := s.modGroup g (fun y => { y with windows := mput y.windows b (l ++ [a]) })
    if (mget x.windows b).isSome || (mget x.bursts b).isSome then s'
    else s'.at (s.cycle + 16) .burstWindowClose (.n2 g b)

/-- Whether a burst that is outstanding has been issued: its fill is under way. -/
def State.burstIssued (s : State) (g b : Nat) : Bool := s.timers.any (fun t => t.2 == ⟨.burstFill, .n2 g b⟩)

/-- Whether the DRAM row of a place is being replaced: accesses to it wait (R390). -/
def State.rowBusy (s : State) (loc : Nat) : Bool :=
  s.io.replacing.any (fun u => match u with
    | .row ch r => ch == loc / 2 ^ 32 && r == Config.rowOf (loc % 2 ^ 32)
    | _ => false)

/-- The entry of a channel's write queue that would drain next (R89, R113). -/
def State.nextWrite (s : State) (g : Key) : Option WEnt :=
  nextEnt (s.group g).wqLast ((s.group g).wq.filter (fun e => !s.rowBusy e.loc))

/-- The burst a port would issue next: of those not yet issued the one ready first. -/
def State.nextBurst (s : State) (g : Key) : Option (Nat × Nat) :=
  ((s.group g).bursts.filter (fun e => !s.burstIssued g e.1 && !s.rowBusy (g * 2 ^ 32 + 256 * e.1))).foldl (fun o e => match o with
    | none => some e
    | some x => if e.2 < x.2 then some e else some x) none

end Sys2Proof.Machine
end

