-- ==== Sys2Proof/Machine/Home.lean ====
section
/-! DEFINITION. What happens at a word's home and on the way to it: release conditions, engine ownership, the order of requests, watches
and waiters (05_memory_spaces R95, 06_ordering_cases R97 to R113, 07_memory_instructions R119 to R131, 22 R373). -/

namespace Sys2Proof.Machine

/-! ## Lengths and engine ownership (R111, R183) -/

/-- The greatest number of bytes that n elements take in a format (R176, R177, R183). -/
def fmtLen (v n : Nat) : Nat :=
  if bfFmt v = 11 then (if bfSparse v then n / 256 * sparseMax (bfM v) else n / 16 * (2 * (bfM v + 1)))
  else n * ((fmtNumTy (bfFmt v)).w / 8)

/-- A destination an engine command of a domain owns: rows of `len` bytes, `pitch` apart, written up to byte `pos` of row `row`. -/
structure Own where
  dom : Nat
  dst : Nat
  len : Nat
  rows : Nat
  pitch : Nat
  row : Nat
  pos : Nat

/-- Whether two byte ranges meet. -/
def meets (a n b m : Nat) : Bool := a < b + m && b < a + n

/-- Whether an access touches an owned byte. -/
def Own.touches (o : Own) (va n : Nat) : Bool :=
  (List.range o.rows).any (fun j => meets (o.dst + j * o.pitch) o.len va n)

/-- Whether a range holds an owned byte that is still to be written. -/
def Own.unwritten (o : Own) (va n : Nat) : Bool :=
  (List.range o.rows).any (fun j => o.row ≤ j &&
    (let p := if j = o.row then o.pos else 0; meets (o.dst + j * o.pitch + p) (o.len - p) va n))

/-- Whether an access of a domain is held (R111): it touches an owned byte, and a 32-byte line it touches still has one to be written.
An address outside scratch names a byte of its domain alone. -/
def Own.holds (o : Own) (dom va n : Nat) : Bool :=
  (o.dom == dom || regionOf va == 0xF0) && o.touches va n && o.unwritten (va / 32 * 32) ((va + n + 31) / 32 * 32 - va / 32 * 32)

/-- What a copy command owns. -/
def CopyCmd.own (c : CopyCmd) : Own :=
  ⟨c.dom, c.dst, match c.fill with
    | some _ => 8 * c.cnt
    | none => fmtLen c.dfmt.toNat c.cnt, c.rows, c.dpitch, c.row, c.dpos⟩

/-- What a Plank command owns: a drain its destination (R228), of which `done` units are written; the others nothing. -/
def PlankCmd.own (c : PlankCmd) : Own :=
  match c.op with
  | .drain dst dpitch rows cols _ rd _ =>
    let f := c.fa.toNat
    if !rd then ⟨c.dom, dst, 128 * (cols - 1) + 96, rows, dpitch, c.done / cols, c.done % cols * 128⟩
    else if bfFmt f = 11 then
      ⟨c.dom, dst, fmtLen f cols, rows, dpitch, c.done / (cols / 16), c.done % (cols / 16) * (2 * (bfM f + 1))⟩
    else ⟨c.dom, dst, fmtLen f cols, rows, dpitch, c.done / cols, c.done % cols * ((fmtNumTy (bfFmt f)).w / 8)⟩
  | _ => ⟨c.dom, 0, 0, 0, 0, 0, 0⟩

/-- Whose access it is that ownership may hold (R111, R112): anyone's; that of a cluster's copy engine or of a Plank, whose own commands,
executed in the order of their acceptance, do not hold it (log 26). -/
inductive Asker where
  | anyone
  | copy (cl : Key)
  | plank (g : Key)
deriving DecidableEq, Repr

/-- Whether an access is held by a command's ownership (R111, R112). -/
def State.ownedBusy (s : State) (dom va n : Nat) (who : Asker) : Bool :=
  s.clusters.any (fun c => who != .copy c.1 && c.2.copyq.any (fun x => x.own.holds dom va n)) ||
  s.groups.any (fun g => who != .plank g.1 && g.2.plank.queue.any (fun x => x.own.holds dom va n)) ||
  s.parts.any (fun p => p.2.images.any (fun i => i.2.clusters.any (fun c => c.2.copyq.any (fun x => x.own.holds dom va n)) ||
    i.2.plank.queue.any (fun x => x.own.holds dom va n)))

/-- Every core's copies of lines that hold a byte a command owns invalidated, as its ownership begins (R111). -/
def State.dropOwned (s : State) (o : Own) : State :=
  { s with cores := s.cores.map (fun e => (e.1, { e.2 with dcache := e.2.dcache.filter (fun l =>
    !((o.dom == l.dom || regionOf (32 * l.tag) == 0xF0) && o.touches (32 * l.tag) 32)) })) }

/-- Whether another engine owns a byte of a destination: a command is accepted only once its engine's ownership is exclusive
(R111; log 26). -/
def State.ownedElsewhere (s : State) (o : Own) (who : Asker) : Bool :=
  (List.range o.rows).any (fun j => s.ownedBusy o.dom (o.dst + j * o.pitch) o.len who)

/-! ## Requests -/

/-- Whether a request writes its location (R97). -/
def ReqKind.writes : ReqKind → Bool
  | .store _ | .strl | .stp _ | .sete | .atomic .. | .acc _ | .accz => true
  | .sync op .. => op != .ldff
  | _ => false

/-- Whether a request returns a value (R97). -/
def ReqKind.reads : ReqKind → Bool
  | .load .. | .vload .. | .ldm .. | .probe _ | .atomic .. => true
  | .sync op .. => op == .ldfe || op == .ldff
  | _ => false

/-- Whether a request's return is an acquire (R102). -/
def ReqKind.acquires : ReqKind → Bool
  | .load _ _ _ acq => acq
  | .atomic .. => true
  | .sync op .. => op == .ldfe || op == .ldff
  | _ => false

/-- The event that performs a request at its home. -/
def ReqKind.event : ReqKind → Instr
  | .load .. | .vload .. | .ldm .. | .accr .. => .loadReturn
  | .store _ | .strl | .stp _ => .storePerform
  | .sync .. | .sete | .probe _ => .syncAccessAtHome
  | .atomic .. | .acc _ | .accz => .atomicPerform
  | .watch .. => .watchArmAtHome
  | .fetch _ => .instructionFill

/-- The register a request owes. -/
def ReqKind.dest : ReqKind → Option RegRef
  | .load d _ _ _ | .ldm d _ _ => some (.g d)
  | .vload d _ => some (.v d)
  | .sync op d _ _ => if op == .ldfe || op == .ldff then some (.g d) else none
  | .probe p => some (.p p)
  | .atomic _ d _ _ | .accr d _ _ => some (.g d)
  | _ => none

/-- Whether a request is executed by the home's atomic unit (R110). -/
def ReqKind.isAtomic : ReqKind → Bool
  | .atomic .. | .acc _ | .accz => true
  | _ => false

/-- A request's first piece. -/
def Req.head (r : Req) : Piece := r.pieces.headD ⟨0, 0, 0, 0⟩

/-- The place of a request's first piece. -/
def Req.loc (r : Req) : Nat := r.head.loc

/-- A request of the state by its number. -/
def State.req (s : State) (id : Nat) : Option Req := s.reqs.find? (fun r => r.id == id)

/-- The state with a request changed. -/
def State.modReq (s : State) (id : Nat) (f : Req → Req) : State :=
  { s with reqs := s.reqs.map (fun r => if r.id = id then f r else r) }

/-- The state without a request. -/
def State.dropReq (s : State) (id : Nat) : State := { s with reqs := s.reqs.filter (fun r => r.id != id) }

/-- A request sent (R97): it carries its die's clock at issue (R106), and the event that takes it on is due in the next cycle. -/
def State.send (s : State) (k : Key) (t : Thread) (kind : ReqKind) (ps : List Piece) (rel : Option Scope) (npc : Addr) :
    Nat × State :=
  let id := s.nextId
  let was := (kind.dest.map t.isFull).getD false
  let r : Req := ⟨id, k, t.tid, t.launchid, t.partN, t.domN, kind, ps, rel, s.clockOf (dieOfCore (coreOf k)), t.pc, npc, was,
    false, false, false, none, none, false, none⟩
  (id, { s with nextId := id + 1, reqs := s.reqs ++ [r] }.at (s.cycle + 1) kind.event (.n1 id))

/-- Whether two lists of pieces share a byte. -/
def piecesMeet (a b : List Piece) : Bool := a.any (fun p => b.any (fun q => meets p.loc p.n q.loc q.n))

/-! ## Release conditions (R103, R104, R113) -/

/-- Whether every earlier load of a slot and domain has returned. -/
def State.loadsDone (s : State) (tid dom before : Nat) : Bool :=
  !(s.reqs.any (fun r => r.tid == tid && r.dom == dom && r.id < before && r.kind.reads))

/-- The homes of a thread's earlier writes that are not yet performed, each with whether it has left its die; a posted write counts
while its journal entry is PENDING (R374). -/
def State.pendingWrites (s : State) (c : Key) (tid dom before : Nat) : List (Nat × Bool) :=
  ((s.core c).sbuf.filter (fun e => e.tid == tid && e.dom == dom && e.id < before && !e.sent)).flatMap
    (fun e => e.pieces.map (fun p => (p.loc, false))) ++
  (s.reqs.filter (fun r => r.tid == tid && r.dom == dom && r.id < before && r.kind.writes && r.fin.isNone)).flatMap
    (fun r => r.pieces.map (fun p => (p.loc, r.out))) ++
  ((s.core c).journal.filter (fun e => e.2.tid == tid && e.2.dom == dom && e.2.id < before && e.2.st == .pending &&
    (s.req e.2.id).isNone)).map (fun e => (e.2.loc, e.2.left))

/-- Whether no store of a thread that a sibling slot has read is still in its core's buffer (R104). -/
def State.seenDone (s : State) (c : Key) (tid dom before : Nat) : Bool :=
  !((s.core c).sbuf.any (fun e => e.tid == tid && e.dom == dom && e.id < before && e.seen))

/-- Whether every earlier OSEND message of a slot has been acknowledged (R103, .system); one whose frames are not yet formed has not
(R129). -/
def State.framesAcked (s : State) (tid : Nat) : Bool :=
  s.io.sendqs.all (fun q => q.2.msgs.all (fun m => m.tid != tid || m.ended || (m.held && m.frames.all (fun f => f.acked))))

/-- Whether every earlier write of a slot has been acknowledged to it (R103, .package). -/
def State.acked (s : State) (tid dom before : Nat) : Bool :=
  !(s.acks.any (fun a => a.tid == tid && a.dom == dom && a.id < before))

/-- Whether the release conditions of a scope hold for a slot's accesses before a number (R103), counted by the thread that made them (R104). -/
def State.released (s : State) (k : Key) (tid dom before : Nat) (sc : Scope) : Bool :=
  let c := coreOf k
  let ws := s.pendingWrites c tid dom before
  s.loadsDone tid dom before && (sc == .thread || s.seenDone c tid dom before) &&
  match sc with
  | .thread | .core => true
  | .cluster => isService c || ws.all (fun w => homeCluster w.1 != clusterOf c)
  | .die => ws.all (fun w => homeDie w.1 != dieOfCore c && w.2)
  | .package => ws.isEmpty && s.acked tid dom before
  | .system => ws.isEmpty && s.acked tid dom before && s.framesAcked tid

/-- Whether the conditions hold for everything a thread has issued so far. -/
def State.releasedNow (s : State) (k : Key) (t : Thread) (sc : Scope) : Bool := s.released k t.tid t.domN s.nextId sc

/-- Whether a port operation of a slot is a take whose item is still to come (R289). -/
def POp.owesItem (o : POp) : Bool :=
  match o.dest with
  | .getg _ | .getv _ _ => true
  | _ => false

/-- Whether an acquire of a slot is outstanding (R102, R289): later memory instructions park. -/
def State.acquiring (s : State) (k : Key) (t : Thread) : Bool :=
  s.reqs.any (fun r => r.tid == t.tid && r.kind.acquires) || s.owed.any (fun o => o.k == k && o.acq) ||
  t.k.toList.any (fun b => match b with
    | none => false
    | some b =>
      match (mget (s.die b.port.die).conns b.port.con).bind (·.con) with
      | none => false
      | some c => match (mget c.ports b.port.port).bind (·.op) with
        | none => false
        | some o => o.owesItem)

/-! ## The way to the home (R99, R100, R105, R106) -/

/-- The dies of a request's homes. -/
def Req.homes (r : Req) : List Nat := (r.pieces.map (fun p => homeDie p.loc)).eraseDups

/-- The vault slices that are a request's homes. -/
def Req.slices (r : Req) : List Key := (r.pieces.map (fun p => homeCluster p.loc)).eraseDups

/-- Whether a vault slice lies in a core's own cluster, which its near port serves (R95). -/
def nearSlice (core cl : Key) : Bool := !isService core && cl == clusterOf core

/-- Whether a request comes from a core of its home's cluster (R95, R120). -/
def Req.near (r : Req) : Bool := nearSlice (coreOf r.k) (homeCluster r.loc)

/-- The dies a home still waits to hear of (R106): those whose count it knows too low, and those of whose numbered writes one up to that
count has left its die and not reached its home. -/
def State.behind (s : State) (d : Nat) (c : List Nat) : List Nat :=
  (List.range 8).filter (fun j => j != d && ((s.die d).known.getD j 0 < c.getD j 0 ||
    s.reqs.any (fun q => q.kind.writes && q.out && !q.here && dieOfCore (coreOf q.k) == j && q.homes.contains d &&
      q.clk.getD j 0 ≤ c.getD j 0)))

/-- Whether an event is under way: in the fabric, or due. -/
def State.underWay (s : State) (e : Ev) : Bool :=
  s.fabric.any (fun p => p.ev == e) || s.timers.any (fun t => t.2 == e) || s.agenda.contains e

/-- A home die's clock probe to a die whose count it knows too low, unless one is under way or answered (R106). -/
def State.probe (s : State) (h j : Nat) (c : List Nat) : State :=
  if (s.die h).known.getD j 0 < c.getD j 0 && !s.underWay ⟨.clockProbe, .n2 h j⟩ && !s.underWay ⟨.clockPacketArrival, .n2 h j⟩
  then s.packet 0 (diePath h) (diePath j) 0 none false ⟨.clockProbe, .n2 h j⟩ else s

/-- The probes that a home sends for a clock. -/
def State.probes (s : State) (h : Nat) (c : List Nat) : State := (s.behind h c).foldl (fun s j => s.probe h j c) s

/-- The homes of a request that do not know its clock yet (R106). -/
def State.gates (s : State) (r : Req) : List Nat := r.homes.filter (fun h => !(s.behind h r.clk).isEmpty)

/-- Whether a request may leave its core: its release conditions hold (R103), no earlier store of its core nor earlier request of its
thread to the same location is still there (R99, R100), and if it writes on another die every earlier write of its thread has been
performed or has left the die (R105). -/
def State.canLeave (s : State) (r : Req) : Bool :=
  let c := coreOf r.k
  (match r.rel with
  | none => true
  | some sc => s.released r.k r.tid r.dom r.id sc) &&
  !((s.core c).sbuf.any (fun e => e.id < r.id && !e.sent && piecesMeet e.pieces r.pieces)) &&
  !(s.reqs.any (fun q => q.id < r.id && !q.left && piecesMeet q.pieces r.pieces && (q.tid == r.tid ||
    (coreOf q.k == c && q.kind == .store false)))) &&
  (!r.kind.writes || r.homes.all (· == dieOfCore c) ||
    (s.pendingWrites c r.tid r.dom r.id).all (fun w => homeDie w.1 != dieOfCore c && w.2))

/-- The bytes of data a request carries (R14). -/
def Req.dataLen (r : Req) : Nat := if r.kind.writes then (r.pieces.map (·.n)).sum else 0

/-- A request leaves its core, with a packet to each of its homes that is not its own cluster's slice. -/
def State.sendOff (s : State) (r : Req) : State :=
  let s := s.modReq r.id (fun q => { q with left := true })
  (r.slices.filter (fun cl => !nearSlice (coreOf r.k) cl)).foldl (fun s cl =>
    s.packet 0 (corePath (coreOf r.k)) (slicePath cl) r.dataLen (some r.id) r.kind.writes ⟨r.kind.event, .n1 r.id⟩) s

/-- A request that has reached its homes: the cycle and the number of its arrival are noted. -/
def State.reachHome (s : State) (r : Req) : State :=
  State.retry { s.modReq r.id (fun q => { q with here := true, arr := some (s.cycle, s.nextId) }) with nextId := s.nextId + 1 }
    r.kind.event (.n1 r.id)

/-! ## The order at a home (R95, R99, R106, R128) -/

/-- The order key of a request at its home (R128): the home's own cluster, then clusters, then dies, each by core number. -/
def Req.order (r : Req) : Nat :=
  let c := coreOf r.k
  let cl := homeCluster r.loc
  let rank :=
    if !isService c && clusterOf c = cl then 0
    else if dieOfCore c = dieOfCluster cl then 1 + clusterOf c % 64
    else 100 + dieOfCore c
  rank * 1024 + coreNum c

/-- Whether a request comes before another at a home: it arrived in an earlier cycle, or in the same one and first in the order of R128. -/
def Req.before (q r : Req) : Bool :=
  match q.arr, r.arr with
  | some a, some b => a.1 < b.1 || (a.1 == b.1 && (q.order < r.order || (q.order == r.order && a.2 < b.2)))
  | _, _ => false

/-- Whether two requests touch one word. -/
def Req.wordsMeet (q r : Req) : Bool :=
  q.pieces.any (fun p => r.pieces.any (fun x => meets (p.loc / 8 * 8) ((p.loc + p.n + 7) / 8 * 8 - p.loc / 8 * 8) x.loc x.n))

/-- Whether an earlier request to a word of a request is still to be performed (R106, R128); one that waits in the waiter table is passed
(R121). -/
def State.precededBy (s : State) (r : Req) : Bool :=
  s.reqs.any (fun q => q.id != r.id && q.fin.isNone && !q.waiting && q.before r && q.wordsMeet r)

/-- The pieces of a request that miss in their home vaults, unless their bursts have come (R81, R88); a store to a slice without cache ways
needs no line (R86). -/
def State.missing (s : State) (r : Req) : List Piece :=
  let whole := match r.kind with
    | .store _ | .strl | .stp _ => true
    | _ => false
  if r.miss == some true then [] else r.pieces.filter (fun p => s.vaultMiss r.dom p.va p.loc && !(whole && s.uncached p.loc))

/-- Whether a request at its home may be performed but for the ways' arbitration: its home knows its clock (R106), no engine holds it
(R111), nothing comes before it, and its lines are there. -/
def State.readyHere (s : State) (r : Req) : Bool :=
  (match r.arr with
  | some a => a.1 < s.cycle
  | none => false) && r.fin.isNone && !r.waiting && r.miss != some false &&
  (s.gates r).isEmpty && !(r.pieces.any (fun p => s.ownedBusy r.dom p.va p.n .anyone)) && !s.precededBy r && (s.missing r).isEmpty

/-- Whether a request's event is due in this cycle. -/
def State.dueNow (s : State) (r : Req) : Bool :=
  let e : Ev := ⟨r.kind.event, .n1 r.id⟩
  s.agenda.contains e || s.timers.any (fun t => t.1 ≤ s.cycle && t.2 == e)

/-- The slice and the way at which a request contends (R95), by its first piece. -/
def State.wayFor (s : State) (r : Req) : Key × Option Nat := (homeCluster r.loc, s.wayOf r.dom r.head.va r.loc)

/-- The request sources of a vault slice (R95): the near port, the lateral port, the cluster's engines. -/
def engineSource : Nat := 2

/-- The source of a request. -/
def Req.source (r : Req) : Nat := if r.near then 0 else 1

/-- Where a request stands in a way's rotation (R95): its source after the one last granted, and at the near port its core after the one
last granted. -/
def Cluster.turn (c : Cluster) (way : Nat) (r : Req) : Nat :=
  let last := ((mget c.grants way).getD (engineSource, 0)).1
  let i := coreY (coreOf r.k) % 4 * 4 + coreX (coreOf r.k) % 4
  (r.source + 2 - last) % 3 * 2 ^ 20 + (if r.near then (i + 15 - c.near) % 16 else r.order)

/-- Whether a request that is ready must leave this cycle to another: its way has made its access of the cycle, an atomic comes after
another of the slice (R128), or the way grants another (R95). -/
def State.yields (s : State) (r : Req) : Bool :=
  let w := s.wayFor r
  let c := s.cluster w.1
  let others := s.reqs.filter (fun q => q.id != r.id && (s.wayFor q).1 == w.1 && s.dueNow q && s.readyHere q)
  let later (q : Req) : Bool := q.kind.isAtomic && (c.atomAt == some s.cycle ||
    (r :: others).any (fun x => x.id != q.id && x.kind.isAtomic && x.before q))
  later r || (match w.2 with
    | none => false
    | some way => (mget c.grants way).map (·.2) == some s.cycle ||
      others.any (fun q => (s.wayFor q).2 == some way && !later q && (c.turn way q < c.turn way r ||
        (c.turn way q == c.turn way r && q.before r))))

/-- The way's access given to a request. -/
def State.grant (s : State) (r : Req) : State :=
  let w := s.wayFor r
  s.modCluster w.1 (fun c => { c with
    grants := match w.2 with
      | some way => mput c.grants way (r.source, s.cycle)
      | none => c.grants
    near := if r.near then coreY (coreOf r.k) % 4 * 4 + coreX (coreOf r.k) % 4 else c.near
    atomAt := if r.kind.isAtomic then some s.cycle else c.atomAt })

/-- A request tried at its home: performed by `f` if it may be and the way grants it; one whose line is missing goes to the memory port;
else it is tried again in the next cycle, its home having probed the dies it must hear of. -/
def State.tryHome (s : State) (r : Req) (f : State → Req → State) : State :=
  let again (s : State) : State := s.retry r.kind.event (.n1 r.id)
  match s.gates r with
  | h :: l => again ((h :: l).foldl (fun s h => s.probes h r.clk) s)
  | [] =>
    if r.pieces.any (fun p => s.ownedBusy r.dom p.va p.n .anyone) || s.precededBy r then again s
    else if !(s.missing r).isEmpty then
      (s.modReq r.id (fun q => { q with miss := some false })).push .controllerRequest (.n1 r.id)
    else if s.yields r then again s
    else
      let s := r.pieces.foldl (fun s p => s.vaultUse r.dom p.va p.loc false) (s.grant r)
      f s r

/-- A request taken on from where it stands: it leaves its core once it may, arrives once its packets have, and is tried at its home. -/
def State.attempt (s : State) (id : Nat) (f : State → Req → State) : State :=
  match s.req id with
  | none => s
  | some r =>
    if r.fin.isSome || r.waiting || r.miss == some false then s
    else if !r.left then
      if s.canLeave r then
        let s := s.sendOff r
        if r.slices.all (nearSlice (coreOf r.k)) then s.reachHome r else s
      else s.retry r.kind.event (.n1 id)
    else if !r.here then if s.underWay ⟨r.kind.event, .n1 id⟩ then s else s.reachHome r
    else s.tryHome r f

/-- A performed write's acknowledgement, due once its entry has drained (R97, R103, R113): answers the entry for a place. -/
def State.ackDue (s : State) (r : Req) (va loc : Nat) : State :=
  let j := match r.kind with
    | .stp j => some j
    | _ => none
  State.wrote { s with acks := s.acks ++ [⟨r.id, coreOf r.k, j, r.tid, r.dom, r.part, r.launch⟩] } va loc
    ⟨r.dom, loc, r.tid, r.id, none, none, [⟨.writeAcknowledgement, .n2 r.id (homeCluster loc)⟩]⟩

/-! ## Watches (R130) -/

/-- Whether a watch's relation holds between the word and the comparand (R130). -/
def relHolds (rel : Nat) (x c : DW) : Bool :=
  match rel with
  | 0 => x == c
  | 1 => x != c
  | 2 => x.toInt < c.toInt
  | 3 => c.toInt ≤ x.toInt
  | 4 => x.toNat < c.toNat
  | 5 => c.toNat ≤ x.toNat
  | _ => true

/-- The core at which a thread stands, in its slot or as a context. -/
def State.coreOfTid (s : State) (tid : Nat) : Option Key :=
  ((s.slotOfTid tid).map coreOf).or ((s.contexts.find? (fun x => x.th.tid == tid)).map (fun x => coreOf x.slot))

/-- What a home sends a thread (R131): over the fabric, so that it carries the die's clock (R105, R132), or at once where no switch lies
between. -/
def State.tellThread (s : State) (cl : Key) (tid : Nat) (e : Ev) : State :=
  match s.coreOfTid tid with
  | some c => s.carry 1 (slicePath cl) (corePath c) (nearSlice c cl) 8 e
  | none => s.push e.i e.arg

/-- The watches a write to a doubleword fires (R130): each leaves the table and sends its wake. -/
def State.fireWatches (s : State) (loc : Nat) : State :=
  let w := loc / 8 * 8
  let v := s.mem.word w
  let cl := homeCluster w
  let hit := (s.cluster cl).watches.filter (fun e => e.loc == w && relHolds e.rel v e.cmp)
  if hit.isEmpty then s
  else
    hit.foldl (fun s e => s.tellThread cl e.tid ⟨.watchWakeArrival, .wake e.tid e.id (some v)⟩)
      (s.modCluster cl (fun c => { c with watches := c.watches.filter (fun e => !(hit.contains e)) }))

/-- The source of the rotor and Ethernet units' packets. -/
def ioSide : Nat := 10

/-- An Ethernet queue. -/
def State.eth (s : State) (e : Nat) : EthQ := (mget s.io.eths e).getD ⟨0, 0, 0, 0, [], [], []⟩

/-- The state with an Ethernet queue changed. -/
def State.modEth (s : State) (e : Nat) (f : EthQ → EthQ) : State :=
  s.modIo (fun io => { io with eths := mput io.eths e (f (s.eth e)) })

/-- The home of an Ethernet queue's STAIL or RTAIL (R398): the doubleword at an offset of its control block. -/
def State.qcbPlace (s : State) (q : EthQ) (off : Nat) : Option Nat :=
  let part := bits q.w0.toNat 4 0
  let dom := bits (s.partn part).pcfg.toNat 11 0
  match s.rangeOf dom (q.qcb.toNat + off) 8 with
  | none => none
  | some r =>
    match s.placeIn ioSide part dom false r (q.qcb.toNat + off) none with
    | .ok p => some p.loc
    | .error _ => none

/-- Whether a write of n bytes at a place touches a tail of a queue. -/
def State.touchesTail (s : State) (q : EthQ) (loc n : Nat) : Bool :=
  q.w0.getLsbD 63 && ([16, 40].any (fun off => match s.qcbPlace q off with
    | some l => meets l 8 loc n
    | none => false))

/-- The ports of the queues told of a write performed to a tail (R398). -/
def State.tellEth (s : State) (loc n : Nat) : State :=
  s.io.eths.foldl (fun s e => if s.touchesTail e.2 loc n then s.pushOnce .ethTailNotify (.n1 e.1) else s) s

/-- Bytes written at their home (R97): n low bytes of a value from a place, every core's copy being invalidated; then the watches of the
words touched. -/
def State.write (s : State) (loc n v : Nat) : State :=
  let s := (s.modMem (fun m => m.writeN loc n v)).dropCopies loc n
  ((List.range ((loc + n - 1) / 8 + 1 - loc / 8)).foldl (fun s i => s.fireWatches (loc / 8 * 8 + 8 * i)) s).tellEth loc n

/-! ## Full/empty bits and their waiters (R119 to R121, R373) -/

/-- The thread of a slot, if it still is the one of that wait number. -/
def State.parkedAs (s : State) (k : Key) (id : Nat) : Bool :=
  match s.thread k with
  | some t => t.run == .parked (.sync id)
  | none => false

/-- A held thread whose instruction has completed (R119): it stands at the next instruction. -/
def Thread.complete (t : Thread) (npc : Addr) (cycle : Nat) : Thread :=
  { t with pc := npc, run := .ready, readyAt := cycle + 2 }

/-- The state a swapped waiter's wake leaves: the writer's slot owes it, or, where that has left it or its core has stopped, the home
sends it itself (R120, R373). -/
def State.dutyFor (s : State) (who : Option (Key × Nat)) (loc : Nat) (now : Bool) : State :=
  let cl := homeCluster loc
  let hit := (s.cluster cl).swapped.filter (fun w => w.loc == loc / 8 * 8 && w.want == now)
  if hit.isEmpty then s
  else
    let s := s.modCluster cl (fun c => { c with swapped := c.swapped.filter (fun w => !(hit.contains w)) })
    match who with
    | some (k, tid) =>
      if (s.thread k).any (fun t => t.tid == tid) && !s.coreStopped (coreOf k) then
        s.modT k (fun t => { t with duty := t.duty ++ hit.map (fun w => (w.core, w.tid)) })
      else hit.foldl (fun s w => s.push .waiterWakeArrival (.n2 w.core w.tid)) s
    | none => hit.foldl (fun s w => s.push .waiterWakeArrival (.n2 w.core w.tid)) s

/-- Whether a full/empty bit allows a synchronising access (R119). -/
def Sop.allowed (op : Sop) (fe : Bool) : Bool :=
  match op with
  | .stef => !fe
  | _ => fe

/-- The bit a synchronising access leaves (R119). -/
def Sop.leaves (op : Sop) : Bool :=
  match op with
  | .ldfe => false
  | _ => true

/-- What a home answers a request: its value and flags. -/
def Ret.ok (v : VReg) (fl : BitVec 5) : Ret := ⟨v, fl, none⟩

/-- A request's answer on its way back (R97): over the fabric, or at the near port in the next cycle. The request stays until it is
delivered. -/
def State.respond (s : State) (r : Req) (x : Ret) : State :=
  let s := s.modReq r.id (fun q => { q with fin := some x })
  if r.near then s.retry .loadReturn (.n1 r.id)
  else s.packet 1 (slicePath (homeCluster r.loc)) (corePath (coreOf r.k)) (r.pieces.map (·.n)).sum none false ⟨.loadReturn, .n1 r.id⟩

/-- A synchronising access performed at its home (R119): its effect on the word, and its answer to the thread it holds. -/
def State.performSync (s : State) (r : Req) : State :=
  match r.kind with
  | .sync op _ data _ =>
    let loc := r.loc
    let old := s.mem.word loc
    let s := if op == .stef || op == .stff then s.write loc 8 data.toNat else s
    let s := s.modMem (fun m => m.setFe loc op.leaves)
    let s := if op == .ldfe then s.fireWatches loc else s
    let s := if op == .ldff then s else s.ackDue r r.head.va loc
    (s.modReq r.id (fun q => { q with waiting := false })).respond r (.ok (old.setWidth 512) 0)
  | _ => s

/-- The first to arrive of some requests. -/
def firstArrived : List Req → Option Req
  | [] => none
  | r :: l =>
    match firstArrived l with
    | none => some r
    | some q => if q.before r then some q else some r

/-- The remote waiters of a word served in the order of their arrival at the home, as long as one can be (R121). -/
def scanWaiters : Nat → State → Nat → State
  | 0, s, _ => s
  | fuel + 1, s, loc =>
    match firstArrived (s.reqs.filter (fun r => r.waiting && r.loc == loc / 8 * 8 &&
        (match r.kind with
          | .sync op .. => op.allowed (s.mem.fe loc)
          | _ => false))) with
    | none => s
    | some r =>
      let before := s.mem.fe loc
      let s := s.performSync r
      let s := if s.mem.fe loc = before then s else s.dutyFor (some (r.k, r.tid)) loc (s.mem.fe loc)
      scanWaiters fuel s loc

/-- What follows a change of a word's bit (R121, R373): the remote waiters are served, and the swapped waiters that need the
new state are due their wakes, from the changing thread or from the home. -/
def State.feChanged (s : State) (who : Option (Key × Nat)) (loc : Nat) (before : Bool) : State :=
  if s.mem.fe loc = before then s
  else
    let s := s.dutyFor who loc (s.mem.fe loc)
    scanWaiters 129 s loc

/-- A word's bit set, with what follows. -/
def State.putFe (s : State) (who : Option (Key × Nat)) (loc : Nat) (b : Bool) : State :=
  let before := s.mem.fe loc
  (s.modMem (fun m => m.setFe loc b)).feChanged who loc before

/-- The number of entries in use in a home's waiter table (R121). -/
def State.waiters (s : State) (cl : Key) : Nat :=
  (s.cluster cl).swapped.length +
  (s.reqs.filter (fun r => r.waiting && homeCluster r.loc == cl)).length

/-! ## The store buffer (R100, R117) -/

/-- The number of stores a core's buffer holds (R117). -/
def storeBufferSize : Nat := 16

/-- A store entered in its core's store buffer, its drain being due. -/
def State.buffer (s : State) (k : Key) (t : Thread) (ps : List Piece) (bad : Option Nat) : State :=
  let e : StoreEnt := ⟨s.nextId, k, t.tid, t.launchid, t.partN, t.domN, ps, bad.map (BitVec.ofNat 8), false, false⟩
  { s with nextId := s.nextId + 1 }.modCore (coreOf k) (fun c => { c with sbuf := c.sbuf ++ [e] })
    |>.push .storeDrain (.n1 (coreOf k))

/-- Whether n more stores fit. -/
def State.bufferRoom (s : State) (k : Key) (n : Nat) : Bool := (s.core (coreOf k)).sbuf.length + n ≤ storeBufferSize

/-- The bytes a piece of a store holds at a place inside it. -/
def Piece.byteAt (p : Piece) (loc : Nat) : Nat := p.data.toNat / 256 ^ (loc - p.loc) % 256

/-- Whether one store covers n bytes from a place. -/
def StoreEnt.covers (e : StoreEnt) (loc n : Nat) : Bool := e.pieces.any (fun p => p.loc ≤ loc && loc + n ≤ p.loc + p.n)

/-- What the store buffer says to a plain load of n bytes (R100): no store meets it; one covers it, giving its bytes; or it
must wait for a drain. -/
inductive Fwd where
  | none
  | hit (id tid v : Nat)
  | wait

/-- The youngest covering store decides; a store that meets the bytes without covering them makes the load wait. -/
def State.forward (s : State) (k : Key) (loc n : Nat) : Fwd :=
  match ((s.core (coreOf k)).sbuf.filter (fun e => e.bad.isNone && e.pieces.any (fun p => meets p.loc p.n loc n))).reverse with
  | [] => .none
  | e :: _ =>
    match e.pieces.reverse.find? (fun p => p.loc ≤ loc && loc + n ≤ p.loc + p.n) with
    | some p => .hit e.id e.tid (p.data.toNat / 256 ^ (loc - p.loc) % 256 ^ n)
    | none => .wait

/-- A store of a core's buffer that a thread has read: marked if that thread is a sibling of its own (R104). -/
def State.seenBy (s : State) (core : Key) (id tid : Nat) : State :=
  s.modCore core (fun c => { c with sbuf := c.sbuf.map (fun e => if e.id = id then { e with seen := e.seen || e.tid != tid } else e) })

end Sys2Proof.Machine
end

