-- ==== Sys2Proof/Machine/PortOps.lean ====
section
/-! DEFINITION. Port operations and the Carder's step (16_connectors R273 to R290, R307, 18_event_windows R313 to R320). -/

namespace Sys2Proof.Machine

/-! ## Connectors and ports -/

/-- The connector in a record. -/
def State.conn (s : State) (d c : Nat) : Option Conn := (mget (s.die d).conns c).bind (·.con)

/-- The state with a connector changed, if the record holds one. -/
def State.modConn (s : State) (d c : Nat) (f : Conn → Conn) : State :=
  match mget (s.die d).conns c with
  | some r => s.modDie d (fun x => { x with conns := mput x.conns c { r with con := r.con.map f } })
  | none => s

/-- A port's state. -/
def State.port (s : State) (p : PortId) : Option PortSt := (s.conn p.die p.con).bind (fun c => mget c.ports p.port)

/-- The state with a port changed. -/
def State.modPort (s : State) (p : PortId) (f : PortSt → PortSt) : State :=
  s.modConn p.die p.con (fun c =>
    match mget c.ports p.port with
    | some x => { c with ports := mput c.ports p.port (f x) }
    | none => c)

/-- A port of a freshly loaded connector (R307, R313). -/
def PortSt.fresh (place : Key) : PortSt := ⟨place, none, none, 0, 0, 0, 0, false, none, 0⟩

/-- The reserved meta (R273). -/
def noMeta : DW := 0xFFFFFFFFFFFFFFFF

/-- One added, saturating at 16 bits (R307). -/
def sat16 (n : Nat) : Nat := min (n + 1) 65535

/-- The handle of a connector record (R298). -/
def conHandle (gen : BitVec 16) (d c : Nat) : Nat := gen.toNat * 2 ^ 11 + d * 256 + c

/-- The check of a connector handle (R298). -/
def State.checkCon (s : State) (part : Nat) (h : Nat) : Res (Nat × Nat × Conn) :=
  if 2 ^ 27 ≤ h then trapWith causeBADOPND 0
  else match mget (s.die (bits h 10 8)).conns (bits h 7 0) with
    | none => trapWith causeBADOPND 0
    | some r =>
      match r.con with
      | none => trapWith causeBADOPND 0
      | some c =>
        if r.gen.toNat != bits h 26 11 then trapWith causeBADOPND 0
        else if c.part != part then trapWith causePROT h
        else .ok (bits h 10 8, bits h 7 0, c)

/-- The image's entry for a port. -/
def Conn.desc (c : Conn) (n : Nat) : PortDesc := c.image.ports.getD n ⟨0, 0, false, false⟩

/-! ## Carders (R282, R284) -/

/-- The step period of a Carder (R282). -/
def stepPeriod (c : CarderId) : Nat := 8 * 2 ^ c.level

/-- The next cycle after now in which a Carder steps (R284). -/
def State.nextStep (s : State) (c : CarderId) : Nat :=
  let st := (s.die c.die).start
  ((s.cycle - st) / stepPeriod c + 1) * stepPeriod c + st

/-- Whether a Carder steps in this cycle (R284). -/
def State.stepsNow (s : State) (c : CarderId) : Bool := (s.cycle - (s.die c.die).start) % stepPeriod c == 0

/-- A Carder's step made due at a cycle, once. -/
def State.wantStepAt (s : State) (t : Nat) (c : CarderId) : State :=
  if s.timers.contains (t, ⟨.carderStep, .carder c⟩) then s else s.at t .carderStep (.carder c)

/-- A Carder's next step made due, once. -/
def State.wantStep (s : State) (c : CarderId) : State := s.wantStepAt (s.nextStep c) c

/-- The Carder of a port's region, while the connector runs. -/
def State.carderOfPort (s : State) (p : PortId) : Option CarderId :=
  match s.conn p.die p.con with
  | none => none
  | some c => if c.running then (mget c.regions (c.desc p.port).region).map (·.carder) else none

/-! ## Operations (R275, R276, R288) -/

/-- An operation pending on a port (R275): sent to the Carder when `go` and the connector runs, else waiting at its core; a
nonzero wait limit runs from here (R288). -/
def State.startOp (s : State) (p : PortId) (core : Key) (wl : Option (Key × Nat)) (act : PAct) (dest : PDest) (tie go : Bool) :
    State :=
  let id := s.nextId
  let run := match s.conn p.die p.con with
    | some c => c.running
    | none => false
  let o : POp := ⟨id, act, dest, run && go, false, false, [], tie, false, s.clockOf (dieOfCore core), none⟩
  let s := { s with nextId := id + 1 }.modPort p (fun x => { x with op := some o })
  let s := if run && go then s.push .portRequestArrival (.port p) else s
  match wl with
  | some (k, n) => if n = 0 then s else s.at (s.cycle + n) .waitlimExpiry (.n2 k id)
  | none => s

/-- Whether an operation is the offer of a result that is still owed (R276): the owed result bears the number after its own. -/
def State.producing (s : State) (o : POp) : Bool := s.owed.any (fun x => x.id == o.id + 1 && x.out.isSome)

/-- The offer number id of a k destination leaves its core (R276): with the clock of this cycle, the value now known, and the meta
it was given at issue (log 118). One that was withdrawn meanwhile is there no longer. -/
def State.leaveOffer (s : State) (p : PortId) (core : Key) (id : Nat) (v : DW) : State :=
  match (s.port p).bind (·.op) with
  | none => s
  | some o =>
    match o.act with
    | .offer x once =>
      if o.id != id || o.fin.isSome then s
      else
        let run := match s.conn p.die p.con with
          | some c => c.running
          | none => false
        let s := s.modPort p (fun y => { y with op := some { o with
          act := .offer ⟨v.setWidth 512, x.tag⟩ once, sent := run, clk := s.clockOf (dieOfCore core) } })
        if run then s.push .portRequestArrival (.port p) else s
    | _ => s

/-- An operation completed: its completion leaves the Carder in the next cycle (R287). -/
def State.decide (s : State) (p : PortId) (d : PDone) : State :=
  (s.modPort p (fun x => { x with op := x.op.map (fun o => { o with fin := some d }) })).at (s.cycle + 1)
    .portCompletionArrival (.port p)

/-- A withdrawal sent for a port's pending operation (R288): one that never left its core is withdrawn at once. -/
def State.withdraw (s : State) (p : PortId) (wdDest : Option Nat) (expired : Bool) : State :=
  match (s.port p).bind (·.op) with
  | none => s
  | some o =>
    let s := s.modPort p (fun x => { x with op := some { o with
      wd := true, wdDest := o.wdDest ++ wdDest.toList, expired := o.expired || expired } })
    match o.fin with
    | some _ => s
    | none =>
      if o.sent then s.push .portRequestArrival (.port p)
      else (s.modPort p (fun x => { x with wdr := sat16 x.wdr })).decide p .notFired

/-! ## Filters and guards (R277, R284, R294, R295) -/

/-- Whether a filter's predicate is true of an item (R294). -/
def Filter.holds (f : Filter) (x : Item) : Bool :=
  let w := 16 * 2 ^ f.width
  let fld := if f.sel then bits x.tag.toNat 63 48 else x.data.toNat / 256 ^ f.off % 2 ^ w
  let a := sval w fld
  let b := sval w (f.const.toNat % 2 ^ w)
  match f.rel with
  | 0 => a == b
  | 1 => a != b
  | 2 => a < b
  | 3 => a ≤ b
  | 4 => b < a
  | 5 => b ≤ a
  | _ => (fld &&& (f.mask.toNat % 2 ^ w)) == f.const.toNat % 2 ^ w

/-- What an endpoint of a region is (R279, R292). -/
inductive Endpt where
  | none
  | port (n : Nat) (isIn : Bool)
  | bufIn (n : Nat)
  | bufOut (n : Nat)

/-- The endpoint with an index in a region. -/
def Image.endpt (im : Image) (r e : Nat) : Endpt :=
  match im.ports.zipIdx.find? (fun p => p.1.region == r && p.1.endpt == e) with
  | some p => .port p.2 p.1.isIn
  | none =>
    match im.bufs.zipIdx.find? (fun b => b.1.ireg == r && b.1.iend == e) with
    | some b => .bufIn b.2
    | none =>
      match im.bufs.zipIdx.find? (fun b => b.1.oreg == r && b.1.oend == e) with
      | some b => .bufOut b.2
      | none => .none

/-- A buffered link's state. -/
def Conn.buf (c : Conn) (n : Nat) : BufSt := (mget c.bufs n).getD ⟨0, 0, [], [], 0, false, 0, false⟩

/-- The operation of a port that a step may fire: considered, undecided, not withdrawn. -/
def Conn.live (c : Conn) (n : Nat) : Option POp :=
  match (mget c.ports n).bind (·.op) with
  | some o => if o.seen && !o.wd && o.fin.isNone then some o else none
  | none => none

/-- The item, with its clock, that a source endpoint would give in this step (R284). -/
def Conn.sourceItem (c : Conn) (r e : Nat) : Option (Item × List Nat) :=
  match c.image.endpt r e with
  | .port n false =>
    match c.live n with
    | some o => match o.act with
      | .offer x _ => some (x, o.clk)
      | _ => none
    | none => none
  | .bufOut n =>
    match (c.buf n).held with
    | .item x clk :: _ => some (x, clk)
    | _ => none
  | _ => none

/-- Whether an endpoint is ready (R284). -/
def Conn.ready (c : Conn) (r e : Nat) : Bool :=
  match c.image.endpt r e with
  | .port _ false | .bufOut _ => (c.sourceItem r e).isSome
  | .port n true =>
    match c.live n with
    | some o => o.act == .take
    | none => false
  | .bufIn n => 0 < (c.buf n).credits
  | .none => false

/-- Whether a guard is base-enabled (R284). -/
def Conn.baseEnabled (c : Conn) (r : Nat) (rd : RegionDesc) (g : Guard) : Bool :=
  (List.range rd.nend).all (fun e => !bit g.fire e || c.ready r e) &&
  g.conds.all (fun q =>
    match c.sourceItem r q.2.2, rd.filters[q.2.1]? with
    | some x, some f => f.holds x.1 == q.1
    | _, _ => false)

/-- The guards chosen in a step (R285): those enabled, from PTR on, none in conflict with one chosen before. -/
def chooseFrom (gs : List Guard) (en : List Bool) (ptr : Nat) : Nat → Nat → List Nat → List Nat
  | 0, _, acc => acc.reverse
  | fuel + 1, j, acc =>
    let g := (ptr + j) % gs.length
    let cf := (gs.getD g ⟨0, 0, 0, [], []⟩).confl
    if en.getD g false && acc.all (fun h => !cf.getLsbD h) then chooseFrom gs en ptr fuel (j + 1) (g :: acc)
    else chooseFrom gs en ptr fuel (j + 1) acc

/-- The guards a region fires in a step (R284, R285). -/
def Conn.choose (c : Conn) (r : Nat) (rd : RegionDesc) (ptr : Nat) : List Nat :=
  let base := rd.guards.map (c.baseEnabled r rd)
  let en := rd.guards.zipIdx.map (fun g => base.getD g.2 false &&
    (List.range rd.guards.length).all (fun h => !(g.1.inhib.getLsbD h && base.getD h false)))
  chooseFrom rd.guards en ptr rd.guards.length 0 []

/-! ## The parts of a step, in order (R316) -/

/-- A region being stepped: connector's die and record, region number. -/
structure RegRef3 where
  d : Nat
  c : Nat
  r : Nat

/-- The connector of a region. -/
def State.regConn (s : State) (x : RegRef3) : Conn := (s.conn x.d x.c).getD ⟨0, false, 0, ⟨[], [], [], 0⟩, [], [], []⟩

/-- The ports of a region, in order. -/
def Conn.portsOf (c : Conn) (r : Nat) : List Nat := (c.image.ports.zipIdx.filter (fun p => p.1.region == r)).map (·.2)

/-- Withdrawals considered before anything fires (R288). -/
def stepWithdraw (s : State) (x : RegRef3) : State :=
  ((s.regConn x).portsOf x.r).foldl (fun s n =>
    let p : PortId := ⟨x.d, x.c, n⟩
    match (s.port p).bind (·.op) with
    | some o =>
      if o.seen && o.wd && o.fin.isNone then (s.modPort p (fun y => { y with wdr := sat16 y.wdr })).decide p .notFired
      else s
    | none => s) s

/-- WMARK and WIDLE considered (R316). -/
def stepMarks (s : State) (x : RegRef3) : State :=
  ((s.regConn x).portsOf x.r).foldl (fun s n =>
    let p : PortId := ⟨x.d, x.c, n⟩
    match (s.regConn x).live n with
    | some o =>
      match o.act with
      | .wmark v =>
        (s.modPort p (fun y => { y with wm := if y.wm.toNat < v.toNat then v else y.wm, idle := false, last := s.rtime })).decide
          p (.fired false none)
      | .widle v =>
        let s := if v == 0 then s.modPort p (fun y => { y with idle := true })
          else if v == noMeta then s.modPort p (fun y => { y with tmo := none })
          else s.modPort p (fun y => { y with tmo := some v.toNat })
        s.decide p (.fired false none)
      | _ => s
    | none => s) s

/-- The tokens at the head of a buffer, applied (R319): the pair of the last of them, and what stands behind. -/
def applyTokens : List BufEnt → BitVec 48 × Bool → (BitVec 48 × Bool) × List BufEnt
  | .token w i :: l, _ => applyTokens l (w, i)
  | l, p => (p, l)

/-- The tokens of the region's buffer output ends applied (R319). -/
def stepTokens (s : State) (x : RegRef3) : State :=
  s.modConn x.d x.c (fun c => { c with bufs := c.bufs.map (fun b =>
    if (c.image.bufs.getD b.1 ⟨0, 0, 0, 0, 0⟩).oreg = x.r then
      let a := applyTokens b.2.held (b.2.outW, b.2.outI)
      (b.1, { b.2 with held := a.2, outW := a.1.1, outI := a.1.2 })
    else b) })

/-- Idle timeouts (R315, R316). -/
def stepIdle (s : State) (x : RegRef3) : State :=
  ((s.regConn x).portsOf x.r).foldl (fun s n =>
    s.modPort ⟨x.d, x.c, n⟩ (fun y =>
      match y.tmo with
      | some t => if !y.idle && t ≤ s.rtime - y.last then { y with idle := true } else y
      | none => y)) s

/-- W and IDLE of a source endpoint (R316). -/
def Conn.sourceMark (c : Conn) (r e : Nat) : BitVec 48 × Bool :=
  match c.image.endpt r e with
  | .port n _ => ((mget c.ports n).map (fun p => (p.wm, p.idle))).getD (0, true)
  | .bufOut n => ((c.buf n).outW, (c.buf n).outI)
  | _ => (0, true)

/-- The sources upstream of a sink (R316). -/
def RegionDesc.upstream (rd : RegionDesc) (e : Nat) : List Nat :=
  rd.guards.flatMap (fun g => (g.routes.filter (fun q => q.1 == e)).map (·.2))

/-- The watermark and IDLE of a sink after a step (R316). -/
def sinkMark (c : Conn) (r : Nat) (rd : RegionDesc) (old : BitVec 48 × Bool) (e : Nat) : BitVec 48 × Bool :=
  match rd.upstream e with
  | [] => old
  | ss =>
    match (ss.map (c.sourceMark r)).filter (fun m => !m.2) with
    | [] => (old.1, true)
    | m :: ms =>
      let lo := ms.foldl (fun a b => if b.1.toNat < a.toNat then b.1 else a) m.1
      (if old.1.toNat < lo.toNat then lo else old.1, false)

/-- The sinks' watermarks of a step (R316). -/
def stepSinks (s : State) (x : RegRef3) (rd : RegionDesc) : State :=
  s.modConn x.d x.c (fun c =>
    match mget c.regions x.r with
    | none => c
    | some rs =>
      let marks := (List.range rd.nend).foldl (fun m e =>
        if (rd.upstream e).isEmpty then m
        else mput m e (sinkMark c x.r rd ((mget rs.marks e).getD (0, false)) e)) rs.marks
      { c with regions := mput c.regions x.r { rs with marks := marks } })

/-- One endpoint of a fired guard (R287). -/
def fireEndpt (s : State) (x : RegRef3) (before : Conn) (g : Guard) (e : Nat) : State :=
  let item := (g.routes.find? (fun q => q.1 == e)).bind (fun q => before.sourceItem x.r q.2)
  match before.image.endpt x.r e with
  | .port n false =>
    let dl := g.routes.any (fun q => q.2 == e)
    (s.modPort ⟨x.d, x.c, n⟩ (fun y => { y with
      fired := sat16 y.fired, disc := if dl then y.disc else sat16 y.disc, idle := false, last := s.rtime })).decide
      ⟨x.d, x.c, n⟩ (.fired dl none)
  | .port n true =>
    (s.modPort ⟨x.d, x.c, n⟩ (fun y => { y with fired := sat16 y.fired, op := y.op.map (fun o =>
      { o with clk := (item.map (·.2)).getD o.clk }) })).decide ⟨x.d, x.c, n⟩ (.fired true (item.map (·.1)))
  | .bufIn n =>
    match item with
    | some (it, clk) =>
      (s.modConn x.d x.c (fun c => { c with bufs := mput c.bufs n { c.buf n with
        credits := (c.buf n).credits - 1, flight := (c.buf n).flight ++ [.item it clk] } })).at (s.cycle + 1) .bufferItemArrival
        (.buf ⟨x.d, x.c, n⟩)
    | none => s
  | .bufOut n =>
    (s.modConn x.d x.c (fun c => { c with bufs := mput c.bufs n { c.buf n with
      held := (c.buf n).held.drop 1, creditsIn := (c.buf n).creditsIn + 1 } })).at (s.cycle + 1) .creditArrival (.buf ⟨x.d, x.c, n⟩)
  | .none => s

/-- The chosen guards fired, all in this step (R285, R287). -/
def stepFire (s : State) (x : RegRef3) (rd : RegionDesc) : State :=
  let c := s.regConn x
  let ptr := ((mget c.regions x.r).map (·.ptr)).getD 0
  match c.choose x.r rd ptr with
  | [] => s
  | g :: gs =>
    let s := s.modConn x.d x.c (fun c =>
      match mget c.regions x.r with
      | none => c
      | some rs =>
        { c with regions := mput c.regions x.r ({ rs with ptr := (g + 1) % rd.guards.length, steps := rs.steps + 1 }) })
    (g :: gs).foldl (fun s h =>
      let gd := rd.guards.getD h ⟨0, 0, 0, [], []⟩
      ((List.range rd.nend).filter (fun e => bit gd.fire e)).foldl (fun s e => fireEndpt s x c gd e) s) s

/-- PTRY offers withdrawn after the first step that considered them (R288). -/
def stepTries (s : State) (x : RegRef3) : State :=
  ((s.regConn x).portsOf x.r).foldl (fun s n =>
    let p : PortId := ⟨x.d, x.c, n⟩
    match (s.regConn x).live n with
    | some o =>
      match o.act with
      | .offer _ true => (s.modPort p (fun y => { y with wdr := sat16 y.wdr })).decide p .notFired
      | _ => s
    | none => s) s

/-- The tokens that enter the region's buffers (R319), behind the items of the step; one after another becomes one. -/
def stepSendTokens (s : State) (x : RegRef3) (rd : RegionDesc) : State :=
  (List.range rd.nend).foldl (fun s e =>
    let c := s.regConn x
    match c.image.endpt x.r e with
    | .bufIn n =>
      let m := ((mget c.regions x.r).bind (fun rs => mget rs.marks e)).getD (0, false)
      let b := c.buf n
      if (b.sentW, b.sentI) == m then s
      else (s.modConn x.d x.c (fun c =>
        let b' : BufSt := { b with sentW := m.1, sentI := m.2, flight := b.flight ++ [.token m.1 m.2] }
        { c with bufs := mput c.bufs n b' })).at (s.cycle + 1) .watermarkTokenArrival
          (.buf ⟨x.d, x.c, n⟩)
    | _ => s) s

/-- The watermark messages of a step to the Brims that hold in ports (R320), where the mark has changed. -/
def stepMessages (s : State) (x : RegRef3) (rd : RegionDesc) (old : Map (BitVec 48 × Bool)) : State :=
  (List.range rd.nend).foldl (fun s e =>
    let c := s.regConn x
    match c.image.endpt x.r e with
    | .port n true =>
      let m := ((mget c.regions x.r).bind (fun rs => mget rs.marks e)).getD (0, false)
      if (mget old e).getD (0, false) == m then s
      else match (mget c.ports n).bind (·.holder) with
        | some (.brim cl b) => s.at (s.cycle + 1) .brimWatermarkMessage (.wm cl b m.1 m.2)
        | _ => s
    | _ => s) s

/-- The RTIME at which a source's idle timeout passes made due, unless it is already (R315). -/
def State.armIdle (s : State) (p : PortId) : State :=
  match s.port p with
  | none => s
  | some y =>
    match y.tmo with
    | none => s
    | some t =>
      let due := y.last + t
      if y.idle || due < s.rtime || s.alarms.any (fun e => e.1 == due && e.2 == ⟨.idleTimeout, .port p⟩) then s
      else s.atNs due .idleTimeout (.port p)

/-- The idle timeouts of a region's sources made due. -/
def stepArm (s : State) (x : RegRef3) : State :=
  ((s.regConn x).portsOf x.r).foldl (fun s n => s.armIdle ⟨x.d, x.c, n⟩) s

/-- One step of one region (R284 to R288, R316, R319, R320). -/
def stepRegion (s : State) (x : RegRef3) : State :=
  let c := s.regConn x
  match c.image.regions[x.r]? with
  | none => s
  | some rd =>
    let old := ((mget c.regions x.r).map (·.marks)).getD []
    let s := stepWithdraw s x
    let s := stepMarks s x
    let s := stepTokens s x
    let s := stepIdle s x
    let s := stepSinks s x rd
    let s := stepFire s x rd
    let s := stepTries s x
    let s := stepSendTokens s x rd
    stepArm (stepMessages s x rd old) x

/-- The groups under a Carder (R11, R282). -/
def carderGroups (c : CarderId) : List Key :=
  match c.level with
  | 0 => [groupOfCluster (c.die * 64 + c.num)]
  | 1 => [c.die * 16 + c.num]
  | 2 => ((List.range 16).map (fun g => c.die * 16 + g)).filter (fun g => quadOf g == c.num)
  | _ => (List.range 16).map (fun g => c.die * 16 + g)

/-- Whether a Carder steps for a partition now (R352): the partition is resident on those of its groups that lie under the Carder, and
none of them is changing hands. -/
def State.hostsNow (s : State) (part : Nat) (c : CarderId) : Bool :=
  (carderGroups c).all (fun g => !s.inPart part g || (s.residentOn part g && !s.switching g))

/-- The regions a Carder decides. -/
def State.regionsAt (s : State) (c : CarderId) : List RegRef3 :=
  s.dies.flatMap (fun d => d.2.conns.flatMap (fun r =>
    match r.2.con with
    | none => []
    | some con => if con.running && s.hostsNow con.part c then (con.regions.filter (fun g => g.2.carder == c)).map (fun g => ⟨d.1, r.1, g.1⟩) else []))

/-- A Carder's step (R284); another is due as long as steps change something. -/
def State.carderStep (s : State) (c : CarderId) : State :=
  let rs := s.regionsAt c
  let s' := rs.foldl stepRegion s
  if rs.all (fun x => s'.conn x.d x.c == s.conn x.d x.c) then s' else s'.wantStep c

/-- What a holder's port must be for an operand use: the binding of k register n, by index, with the direction and kind. -/
def Thread.boundTo (t : Thread) (n : Nat) (isIn isV : Bool) : Res Binding :=
  match t.kb n with
  | none => trapWith causeBADOPND 0
  | some b => if b.isIn == isIn && b.isV == isV then .ok b else trapWith causeBADOPND 0

/-- A port is free for a new operation, or the instruction parks (R275). -/
def State.portFree (s : State) (b : Binding) (n : Nat) : Res Unit :=
  match (s.port b.port).bind (·.op) with
  | none => .ok ()
  | some _ => parkOn (.port n)

/-- The wait limit of a thread, for a port operation. -/
def Thread.limit (t : Thread) : Option (Nat × Nat) := some (t.tid, t.waitlim.toNat)

end Sys2Proof.Machine
end

