-- ==== Sys2Proof/Machine/BrimOps.lean ====
section
/-! DEFINITION. The Brim: windows, panes, wakes and releases (18_event_windows R321 to R336). -/

namespace Sys2Proof.Machine

/-- The closed event time and watermark (R312). -/
def closedTime : Nat := 2 ^ 48 - 1

/-- The binding in a Brim's record. -/
def State.brimB (s : State) (cl b : Nat) : Option BrimB := (mget (s.cluster cl).brim b).bind (·.b)

/-- The state with a binding changed, if the record holds one. -/
def State.modBrim (s : State) (cl b : Nat) (f : BrimB → BrimB) : State :=
  match mget (s.cluster cl).brim b with
  | some r => s.modCluster cl (fun c => { c with brim := mput c.brim b { r with b := r.b.map f } })
  | none => s

/-- The handle of a binding (R333). -/
def brimHandle (gen : BitVec 11) (cl b : Nat) : Nat := gen.toNat * 2 ^ 17 + cl * 256 + b

/-- The end of window k (R321). -/
def BrimB.winEnd (b : BrimB) (k : Nat) : Nat := (k + b.npw) * b.slide

/-- Whether window k has passed (R321). -/
def BrimB.passed (b : BrimB) (k : Nat) : Bool := b.winEnd k ≤ b.wb.toNat

/-- Whether window k is beyond lateness (R321). -/
def BrimB.beyond (b : BrimB) (k : Nat) : Bool := b.wb.toNat == closedTime || b.winEnd k + b.late < b.wb.toNat

/-- The records of a pane. -/
def BrimB.count (b : BrimB) (p : Nat) : Nat := (mget b.counts p).getD 0

/-- Whether a window's wake is outstanding (R326). -/
def Win.isOut : Win → Bool
  | .published _ => false
  | _ => true

/-- Whether window k has a wake outstanding. -/
def BrimB.winOut (b : BrimB) (k : Nat) : Bool := ((mget b.wins k).map Win.isOut).getD false

/-- The windows that contain a pane, in ascending order (R321). -/
def BrimB.windowsOf (b : BrimB) (p : Nat) : List Nat :=
  (List.range (min (p + 1) b.npw)).map (fun i => p + 1 - min (p + 1) b.npw + i)

/-- Whether some window containing a pane has a wake outstanding. -/
def BrimB.paneOut (b : BrimB) (p : Nat) : Bool := (b.windowsOf p).any b.winOut

/-- The size of a record (R323). -/
def BrimB.rsz (b : BrimB) : Nat := if b.isV then 128 else 16

/-- The size of a pane slot (R323). -/
def BrimB.psz (b : BrimB) : Nat := 64 + b.cap * b.rsz

/-- The address of the slot that serves a pane. -/
def BrimB.slotVa (b : BrimB) (p : Nat) : Nat := b.paneBase + p % b.npane * b.psz

/-- The place of a scratch address. -/
def scratchPlace (va : Nat) : Nat := scratchLoc (scratchCl va) (scratchWay va) (bits va 18 0)

/-- A pane header written (R323): the pane the slot now serves, its count, and zeros. One that holds an uncorrectable error cannot be
written, and the binding closes (R392). -/
def State.paneHeader (s : State) (cl bi : Nat) (b : BrimB) (p n : Nat) : State :=
  match s.mem.badWord (scratchPlace (b.slotVa p)) 64 with
  | some _ => s.modBrim cl bi (fun b => { b with dead := true })
  | none => s.write (scratchPlace (b.slotVa p)) 64 (p + n * 2 ^ 64)

/-- Headers of n panes from p on, each with count 0. -/
def State.paneHeaders (s : State) (cl bi : Nat) (b : BrimB) (p : Nat) : Nat → State
  | 0 => s
  | n + 1 => (s.paneHeader cl bi b (p + n) 0).paneHeaders cl bi b p n

/-- A wake pushed to the kernel slot's q2 (R327): its window is entered as WOKEN or AMENDING. -/
def State.wakeWindow (s : State) (cl bi k : Nat) : State :=
  match s.brimB cl bi with
  | none => s
  | some b =>
    let no := match mget b.wins k with
      | some (.published n) => some ((n + 1) % 65536)
      | _ => none
    let total := (List.range b.npw).foldl (fun a j => a + b.count (k + j)) 0
    let rec4 := [dw (bi * 2 ^ 56 + b.winEnd k % 2 ^ 48), dw (b.slotVa k), dw total,
      dw (b.npw * 2 ^ 24 + (match no with
        | some n => 65536 + n
        | none => 0))]
    let s := s.modBrim cl bi (fun b => { b with wins := mput b.wins k (match no with
      | some n => .amending n
      | none => .woken) })
    s.modTid b.tid (fun t => { t with q2 := t.q2 ++ [rec4] })

/-- The highest pane that has expired under the binding's watermark (R321), or under a closed one the highest that has held a
record (R323). -/
def BrimB.lastExpired (b : BrimB) : Option Nat :=
  if b.wb.toNat = closedTime then b.maxPane
  else
    let lim := (b.npw * b.slide) + b.late
    if lim < b.wb.toNat then some ((b.wb.toNat - lim - 1) / b.slide) else none

/-- The panes from P0 on released as far as they can be (R323). -/
def releasePanes : Nat → State → Nat → Nat → State
  | 0, s, _, _ => s
  | fuel + 1, s, cl, bi =>
    match s.brimB cl bi with
    | none => s
    | some b =>
      match b.lastExpired with
      | none => s
      | some lim =>
        if lim < b.p0 || b.paneOut b.p0 then s
        else
          let next := (b.counts.find? (fun e => b.p0 ≤ e.1 && e.2 != 0)).map (·.1)
          let out := (b.wins.find? (fun e => b.p0 < e.1 && e.2.isOut)).map (·.1)
          let q := if next == some b.p0 then b.p0
            else min lim (min ((next.getD (lim + 1)) - 1) ((out.getD (lim + 1)) - 1))
          let q := max q b.p0
          let m := min b.npane (q + 1 - b.p0)
          let s := s.modBrim cl bi (fun b => { b with
            p0 := q + 1, counts := b.counts.filter (fun e => q < e.1), wins := b.wins.filter (fun e => q < e.1) })
          let s := s.paneHeaders cl bi b (q + 1 + b.npane - m) m
          releasePanes fuel s cl bi

/-- The fuel of a release: every pane that holds a record, every window, and one stretch between each. -/
def BrimB.fuel (b : BrimB) : Nat := 2 * (b.counts.length + b.wins.length) + 2

/-- Panes released (R323). -/
def State.release (s : State) (cl bi : Nat) : State :=
  match s.brimB cl bi with
  | none => s
  | some b => releasePanes b.fuel s cl bi

/-- The next take at a binding's in port (R324), unless a record is held, an offer is awaited, or it is draining. -/
def State.brimTake (s : State) (cl bi : Nat) : State :=
  match s.brimB cl bi with
  | none => s
  | some b =>
    if b.drain || b.tlWait || b.hold.isSome || !b.waiting.isEmpty then s
    else match (s.port b.port).map (·.op) with
      | some none => s.startOp b.port (coreInCluster cl 0) none .take .none false true
      | _ => s

/-- Whether a record's pane has expired or its ETIME is past any window (R321). -/
def BrimB.tooLate (b : BrimB) (et : Nat) : Bool :=
  let p := et / b.slide
  b.beyond p || et == closedTime || closedTime ≤ (p + b.npw) * b.slide || p < b.p0

/-- R324: one record handled, or held. -/
def State.brimHandle (s : State) (cl bi : Nat) (x : Item) : State :=
  match s.brimB cl bi with
  | none => s
  | some b =>
    let et := bits x.tag.toNat 47 0
    let p := et / b.slide
    let s := s.modBrim cl bi (fun b => { b with hold := none })
    if b.tooLate et then
      let s := s.modBrim cl bi (fun b => { b with drop := sat16 b.drop })
      match b.tlPort with
      | some tp => (s.modBrim cl bi (fun b => { b with tlWait := true })).startOp tp (coreInCluster cl 0) none (.offer x false)
          .none false true
      | none => s
    else if b.p0 + b.npane ≤ p || b.paneOut p then s.modBrim cl bi (fun b => { b with hold := some x })
    else if b.count p = b.cap || (s.mem.badWord (scratchPlace (b.slotVa p) + 64 + b.count p * b.rsz) b.rsz).isSome then s.modBrim cl bi (fun b => { b with ovf := sat16 b.ovf })
    else
      let r := b.count p
      let place := scratchPlace (b.slotVa p) + 64 + r * b.rsz
      let s := if b.isV then s.write place 128 (x.data.toNat + x.tag.toNat * 2 ^ 512)
        else s.write place 16 (x.data.toNat % 2 ^ 64 + x.tag.toNat * 2 ^ 64)
      let s := s.paneHeader cl bi b p (r + 1)
      let s := s.modBrim cl bi (fun b => { b with
        counts := mput b.counts p (r + 1), maxPane := some (max p (b.maxPane.getD 0)) })
      let hit := (b.windowsOf p).filter (fun k => b.passed k && !b.beyond k)
      let amend := hit.any (fun k => match mget b.wins k with
        | some (.published _) => true
        | _ => false)
      let s := hit.foldl (fun s k => s.wakeWindow cl bi k) s
      if amend then s.modBrim cl bi (fun b => { b with lateCnt := sat16 b.lateCnt }) else s

/-- The held record's procedure run again (R324). -/
def State.brimHeld (s : State) (cl bi : Nat) : State :=
  match (s.brimB cl bi).bind (·.hold) with
  | some x => s.brimHandle cl bi x
  | none => s

/-- R325: a watermark message handled: it fires the windows that pass, panes are released, and the held record is tried again. -/
def State.brimMark (s : State) (cl bi : Nat) (w : BitVec 48) (idle : Bool) : State :=
  match s.brimB cl bi with
  | none => s
  | some b =>
    let s := s.modBrim cl bi (fun b => { b with idle := idle })
    if w.toNat ≤ b.wb.toNat then s.brimHeld cl bi
    else
      let s := s.modBrim cl bi (fun b => { b with wb := w })
      let ks := (b.counts.filter (fun e => e.2 != 0)).foldl (fun l e => (b.windowsOf e.1).foldl nadd l) []
      let hit := ks.filter (fun k => b.wb.toNat < b.winEnd k && b.winEnd k ≤ w.toNat)
      let s := hit.foldl (fun s k => s.wakeWindow cl bi k) s
      (s.release cl bi).brimHeld cl bi

/-- Whether what reached a Brim is a watermark message. -/
def BrimIn.isMark : BrimIn → Bool
  | .mark _ _ => true
  | .item _ => false

/-- The next of what has reached a binding that is handled now, with the rest (R320): in order of arrival, none while a too-late offer is
awaited, and only watermark messages while a record is held. -/
def BrimB.nextIn (b : BrimB) : Option (BrimIn × List BrimIn) :=
  if b.tlWait then none
  else if b.hold.isSome then (b.waiting.find? BrimIn.isMark).map (fun x => (x, b.waiting.eraseP BrimIn.isMark))
  else match b.waiting with
    | [] => none
    | x :: l => some (x, l)

/-- What has reached a binding handled as far as it can be. -/
def brimWaiting : Nat → State → Nat → Nat → State
  | 0, s, _, _ => s
  | fuel + 1, s, cl, bi =>
    match (s.brimB cl bi).bind BrimB.nextIn with
    | none => s
    | some (x, l) =>
      let s := s.modBrim cl bi (fun b => { b with waiting := l })
      brimWaiting fuel (match x with
        | .item x => s.brimHandle cl bi x
        | .mark w i => s.brimMark cl bi w i) cl bi

/-- The held record's procedure run again (R324), then what waits behind it, then the next take. -/
def State.brimAgain (s : State) (cl bi : Nat) : State :=
  let s := s.brimHeld cl bi
  let n := ((s.brimB cl bi).map (·.waiting.length)).getD 0
  (brimWaiting n s cl bi).brimTake cl bi

/-- A record or message that reaches the Brim (R320, R324, R33): behind all that waits. -/
def State.brimArrive (s : State) (cl bi : Nat) (x : BrimIn) : State :=
  let s := s.modBrim cl bi (fun b => { b with waiting := b.waiting ++ [x] })
  let n := ((s.brimB cl bi).map (·.waiting.length)).getD 0
  (brimWaiting n s cl bi).brimTake cl bi

/-- A port given back by a Brim (R336). -/
def State.unholdPort (s : State) (p : PortId) : State :=
  (s.withdraw p none false).modPort p (fun x => { x with holder := none })

/-- A binding freed (R336): its ports are unbound, its held record discarded. -/
def State.freeBrim (s : State) (cl bi : Nat) : State :=
  match mget (s.cluster cl).brim bi with
  | none => s
  | some r =>
    match r.b with
    | none => s
    | some b =>
      let s := s.unholdPort b.port
      let s := match b.tlPort with
        | some p => s.unholdPort p
        | none => s
      s.modCluster cl (fun c => { c with brim := mput c.brim bi ⟨r.gen + 1, none⟩ })

/-- A draining binding freed once every wake is published and nothing is under way (R336). -/
def State.brimDrained (s : State) (cl bi : Nat) : State :=
  match s.brimB cl bi with
  | none => s
  | some b =>
    if b.drain && !(b.wins.any (fun w => w.2.isOut)) && !b.tlWait && !b.waiting.any BrimIn.isMark && ((s.port b.port).bind (·.op)).isNone then s.freeBrim cl bi
    else s

/-- A watermark message that reaches the Brim (R320, R325). -/
def State.brimWatermark (s : State) (cl bi : Nat) (w : BitVec 48) (idle : Bool) : State :=
  (s.brimArrive cl bi (.mark w idle)).brimDrained cl bi

/-- R336, T = 1: the binding discarded, with its records in q2. -/
def State.brimDiscard (s : State) (cl bi : Nat) : State :=
  match s.brimB cl bi with
  | none => s
  | some b =>
    (s.modTid b.tid (fun t =>
      let drop (r : List DW) : Bool := bits (r.headD 0).toNat 63 56 == bi
      { t with q2pos := if ((t.q2.head?).map drop).getD false then 0 else t.q2pos
               q2 := t.q2.filter (fun r => !drop r) })).freeBrim cl bi

/-- A binding whose pane header could not be written closed as by WCLOSE mode 1, with a report to its thread's launch (R392). -/
def State.brimReap (s : State) (cl bi : Nat) : State :=
  match s.brimB cl bi with
  | none => s
  | some b =>
    if b.dead then
      let h := match s.threadOf b.tid with
        | some t => t.launchid
        | none => 0xC0000000
      (s.report b.part h causeMEMERR).brimDiscard cl bi
    else s

/-- R336, T = 0: the binding drained. -/
def State.brimDrain (s : State) (cl bi : Nat) : State :=
  match s.brimB cl bi with
  | none => s
  | some b =>
    let s := s.modBrim cl bi (fun b => { b with drain := true })
    let s := s.withdraw b.port none false
    (s.brimWatermark cl bi (BitVec.ofNat 48 closedTime) b.idle).brimDrained cl bi

/-- The check of a Brim handle for a thread (R336): the cluster and binding number. -/
def State.checkBrim (s : State) (t : Thread) (h : Nat) : Res (Nat × Nat × BrimB) :=
  if 2 ^ 28 ≤ h then trapWith causeBADOPND 0
  else
    let cl := bits h 16 8
    match mget (s.cluster cl).brim (bits h 7 0) with
    | none => trapWith causeBADOPND 0
    | some r =>
      match r.b with
      | none => trapWith causeBADOPND 0
      | some b =>
        if r.gen.toNat != bits h 27 17 then trapWith causeBADOPND 0
        else if b.part != t.partN then trapWith causePROT h
        else if b.tid != t.tid then trapWith causeBADOPND 0
        else .ok (cl, bits h 7 0, b)

end Sys2Proof.Machine
end

