-- ==== Sys2Proof/Machine/Ops.lean ====
section
/-! DEFINITION. The shared operations of a thread: parking and waking (02_machine_state R36), taking an exception and returning
from one (22_traps R368 to R370, R380), page faults (R371), leases (12_plank R217, R218) and the end of a thread
(15_thread R260, 14 R241). -/

namespace Sys2Proof.Machine

/-! ## Parking -/

/-- The state with a slot's thread parked (R36); a wait that WAITLIM ends counts from this issue (R372). -/
def State.parkThread (s : State) (k : Key) (p : Park) (limited : Bool) : State :=
  match s.thread k with
  | none => s
  | some t =>
    let id := s.nextId
    let s := { s with nextId := id + 1 }.modT k (fun t => { t with run := .parked p, waitId := id })
    if limited && t.waitlim != 0 then s.at (s.cycle + t.waitlim.toNat) .waitlimExpiry (.n2 t.tid id) else s

/-- The waits that WAITLIM ends (R33, R132, R160, R220, R271, R304, R334, R335): those of a register, a released scope or a
memory location are not among them, and a synchronising access has its own withdrawal (R121). -/
def Park.limited : Park → Bool
  | .fifo _ | .watch | .plankAccept | .launchRec _ | .graphRec _ | .phaseRec _ | .seedRoom _ | .taskRoom _ | .counter _
  | .counterFull _ | .barrier _ _ | .conRec _ _ | .brimFree _ | .wake2 | .pubEntry _ _ | .queueRoom _ | .pushRoom _ | .rotor _ _ _ => true
  | _ => false

/-- A thread whose wait ended in a cycle: ready two cycles on (R36); an instruction that held it issues again with no boundary before
(R367). -/
def Thread.woken (t : Thread) (cycle : Nat) : Thread :=
  { t with
    run := match t.run with
      | .parked p => if p.holds then .again else .ready
      | _ => .ready
    readyAt := cycle + 2 }

/-- The state with a slot's thread woken. -/
def State.wakeThread (s : State) (k : Key) : State := s.modT k (fun t => t.woken s.cycle)

/-! ## Leases (R217, R218) -/

/-- The order key of a slot in its group (R217). -/
def leaseKey (k : Key) : Nat := 8 * (coreY (coreOf k) % 8 * 8 + coreX (coreOf k) % 8) + slotOf k

/-- Whether a lease state waits for a grant (R217). -/
def Lease.waits : Lease → Bool
  | .requested | .lapsed => true
  | _ => false

/-- The waiting requesters of a group's lease: order key and thread, in slots and in context caches (R219). -/
def State.leaseWaiters (s : State) (g : Key) : List (Nat × Nat) :=
  ((s.threads.filter (fun e => !isService (coreOf e.1) && groupOf (coreOf e.1) == g && e.2.lease.waits)).map
    (fun e => (leaseKey e.1, e.2.tid))) ++
  (s.cores.flatMap (fun c => if isService c.1 || groupOf c.1 != g then []
    else ((c.2.cache ++ c.2.backing).filter (fun x => x.th.lease.waits)).map (fun x => (leaseKey x.slot, x.th.tid))))

/-- The waiter whose key is the first after the last holder's in cyclic order (R217). -/
def firstAfter (last : Nat) : List (Nat × Nat) → Option (Nat × Nat)
  | [] => none
  | a :: l =>
    match firstAfter last l with
    | none => some a
    | some b => if (a.1 + 1023 - last) % 512 ≤ (b.1 + 1023 - last) % 512 then some a else some b

/-- The lease is free: a waiting slot is granted it in the next cycle (R217). -/
def State.leaseFreed (s : State) (g : Key) : State :=
  let s := s.modPlank g (fun p => { p with holder := none })
  if (s.leaseWaiters g).isEmpty then s else s.at (s.cycle + 1) .leaseGrant (.n1 g)

/-- A lease with fresh limits for its holder (R218). -/
def State.leaseBegins (s : State) (g : Key) : State :=
  (s.modPlank g (fun p => { p with granted := s.cycle, since := s.cycle, cmds := 0 })).at (s.cycle + 65536) .leaseCycleLimit (.n2 g s.cycle)

/-- A lease that reached a limit (R218): it passes on if a slot waits, else it begins anew. -/
def State.leaseLimit (s : State) (g : Key) : State :=
  match (s.group g).plank.holder with
  | none => s
  | some tid =>
    if (s.leaseWaiters g).isEmpty then s.leaseBegins g
    else (s.modTid tid (fun t => { t with lease := .lapsed })).leaseFreed g

/-- A thread's lease or request ended (R218, R225). -/
def State.endLease (s : State) (g : Key) (tid : Nat) : State :=
  let s' := s.modTid tid (fun t =>
    let t := match t.leaseOwe with
      | some x => t.emptyReg (.g x.1)
      | none => t
    { t with lease := .none, leaseOwe := none })
  if (s.group g).plank.holder = some tid then s'.leaseFreed g else s'

/-! ## The end of a thread (R241, R260) -/

/-- The ports a thread's k registers are bound to. -/
def Thread.ports (t : Thread) : List PortId := t.k.toList.filterMap (fun b => b.map (·.port))

/-- A destination that a withdrawn instruction no longer owes (R119, R121): as it was at issue, its mark with it (R414). -/
def RegCell.unowe {w : Nat} (was : Bool) (c : RegCell w) : RegCell w := { c with full := was, owed := false }

/-- A thread whose wait is left unfinished: an OWAIT's register is as it was at issue (R164). -/
def Thread.unwait (t : Thread) : Thread :=
  match t.run with
  | .parked (.rotor d was _) => t.modG d (RegCell.unowe was)
  | _ => t

/-- The waiting synchronising requests of a slot withdrawn from their home (R121, R241); they owe nothing more. One that its home has
performed completes (R352). -/
def State.dropSync (s : State) (k : Key) : State :=
  let tid := ((s.thread k).map (·.tid)).getD 0
  let mine := s.reqs.filter (fun r => r.tid == tid && r.fin.isNone && (match r.kind with
    | .sync .. => true
    | _ => false))
  if mine.isEmpty then s
  else
    State.modT { s with reqs := s.reqs.filter (fun r => !(mine.contains r)) } k (fun t => mine.foldl (fun t r =>
      match r.kind with
      | .sync op reg _ _ => if op == .ldfe || op == .ldff then t.modG reg (RegCell.unowe r.was) else t
      | _ => t) t)

/-- A waiting CCWAIT of a thread taken from the counter's waiters (R267). -/
def State.dropWait (s : State) (t : Thread) : State :=
  match t.run with
  | .parked (.counter h) =>
    match checkHandle s t.partN h.toNat with
    | .live l => freeIfOver (s.modCounter l (fun c => { c with waiters := c.waiters.filter (· != t.tid) })) l
    | _ => s
  | _ => s

/-- The state with a slot's thread ending (R260, step 1): its port operations are withdrawn, a waiting request is withdrawn
from its home, and what it was parked on is abandoned. -/
def State.startEnding (s : State) (k : Key) : State :=
  match s.thread k with
  | none => s
  | some t =>
    let s := t.ports.foldl (fun s p => s.withdraw p none false) s
    ((s.dropWait t).dropSync k).modT k (fun t => { t.unwait with run := .ending, pend := none, took := [] })

/-- Whether an ending thread may free its slot (R260, step 2). -/
def State.mayEnd (s : State) (k : Key) (t : Thread) : Bool :=
  !t.owesAny && !(s.owed.any (fun o => o.k == k)) && s.releasedNow k t .die &&
  t.ports.all (fun p => ((s.port p).bind (·.op)).isNone)

/-- The wakes a leaving thread still owes are sent (R373). -/
def State.sendDuty (s : State) (t : Thread) : State := t.duty.foldl (fun s w => s.push .waiterWakeArrival (.n2 w.1 w.2)) s

/-- The refused journal entries of a thread reported and freed (R375). -/
def State.reportJournal (s : State) (c : Key) (t : Thread) : State :=
  (s.core c).journal.foldl (fun s e =>
    match e.2.st with
    | .refused cause =>
      if e.2.tid = t.tid then
        (s.modCore c (fun x => { x with journal := mdel x.journal e.1 })).report t.partN t.launchid cause.toNat
      else s
    | .pending => s) s

/-- A thread's watch withdrawn at its home (R131). -/
def State.endWatch (s : State) (tid : Nat) : State :=
  let drop (c : Nat × Cluster) : Nat × Cluster := (c.1, { c.2 with watches := c.2.watches.filter (fun w => w.tid != tid) })
  State.modTid { s with clusters := s.clusters.map drop } tid (fun t => { t with watch := .none })

/-- Every Brim binding of a thread closed as WCLOSE mode 1 does (R329). -/
def State.endBrims (s : State) (tid : Nat) : State :=
  s.clusters.foldl (fun s c => c.2.brim.foldl (fun s r =>
    match r.2.b with
    | some b => if b.tid = tid then s.brimDiscard c.1 r.1 else s
    | none => s) s) s

/-- Whether a level still has a thread, a seed or an open level below it (R241); a thread whose launch has ended is below the levels that
contained it. -/
def State.liveBelow (s : State) (l : LevelRef) : Bool :=
  let h := handleOf s l
  let part := (s.counter l).part
  let below (x : BitVec 32) : Bool := (levelsUp 3 s part x).contains h
  s.threads.any (fun e => e.2.partN == part && !isService (coreOf e.1) && below e.2.launchid) ||
  (s.contexts.map (·.th) ++ s.imaged).any (fun t => t.partN == part && below t.launchid) ||
  s.clusters.any (fun c => c.2.seeds.any (fun x => x.part == part && below x.launch)) ||
  (s.partn part).images.any (fun i => i.2.clusters.any (fun c => c.2.seeds.any (fun x => below x.launch))) ||
  match l with
  | .launch _ _ => false
  | .graph _ _ | .phase _ _ =>
    s.dies.any (fun d => d.2.launches.any (fun r => r.2.c.used && !r.2.c.done && r.2.parent == h && r.2.c.part == part)
      || d.2.graphs.any (fun r => r.2.c.used && !r.2.c.done && r.2.parent == h && r.2.c.part == part))
  | .job p => (s.partn p).phases.any (fun r => r.2.used && !r.2.done)

/-- The cancelled levels among a list of handles that have nothing live below them, ended (R241), the lowest first. -/
def State.settle (s : State) (part : Nat) (hs : List (BitVec 32)) : State :=
  hs.foldl (fun s h => match liveRef s part h with
    | some l =>
      let c := s.counter l
      if c.can && !c.done && !s.liveBelow l then levelEnd 3 s l else s
    | none => s) s

/-- One thread fewer in a launch (R238, R260), and what this ends. -/
def State.leaveLaunch (s : State) (t : Thread) : State :=
  match checkHandle s t.partN t.launchid.toNat with
  | .live l => (countDown s l).settle t.partN (levelsUp 3 s t.partN t.launchid)
  | _ => s

/-- The asynchronous failures of stores that a thread has not taken, reported as it ends (R375). -/
def State.reportStores (s : State) (t : Thread) : State :=
  (t.asyncTraps.filter (fun x => x.1.toNat == causeASTORE)).foldl (fun s x => s.report t.partN t.launchid x.1.toNat) s

/-- The rest of the end of a thread that does not depend on its slot (R241, R260, R375). -/
def State.endContext (s : State) (c : Key) (t : Thread) : State :=
  let s := ((s.sendDuty t).reportJournal c t).reportStores t
  let s := if isService c then s else s.endLease (groupOf c) t.tid
  let s := s.endWatch t.tid
  let s := t.ports.foldl (fun s p => s.modPort p (fun x => { x with holder := none })) s
  s.endBrims t.tid

/-- A cluster's free slots offered in the next cycle, when every context that became ready in this one counts (R245). -/
def State.offerSlots (s : State) (cl : Key) : State :=
  if s.timers.any (fun t => t.2 == ⟨.slotAssign, .n1 cl⟩) then s else s.at (s.cycle + 1) .slotAssign (.n1 cl)

/-- A slot freed by the end of its thread (R260, steps 3 and 4); the cluster's free slots are offered again (R245). -/
def State.finishEnd (s : State) (k : Key) : State :=
  match s.thread k with
  | none => s
  | some t =>
    let s := s.endContext (coreOf k) t
    let s := { s with threads := mdel s.threads k }
    if isService (coreOf k) then s
    else (s.leaveLaunch t).offerSlots (clusterOf (coreOf k))

/-! ## Taking an exception (R368 to R370) -/

/-- A trap that cannot be taken ends the thread, its cause reported (R370): that of a service core, which no level contains, to Plynvas
(R376). -/
def State.endByTrap (s : State) (k : Key) (t : Thread) (cause : Nat) : State :=
  (if isService (coreOf k) then s.raise [evHeader 2 1 (cause * 2 ^ 40 + t.partN * 2 ^ 32), 0xC0000000]
   else s.report t.partN t.launchid cause).startEnding k

/-- The eight doublewords of a trap frame (R369). -/
def trapFrame (t : Thread) : List DW :=
  [dw (predFe t.p * 2 ^ 32 + predWord t.p), t.gv 20, t.gv 21, t.gv 22, t.gv 23,
   dw ((if (t.gcell 20).full then 1 else 0) + (if (t.gcell 21).full then 2 else 0) + (if (t.gcell 22).full then 4 else 0) +
     (if (t.gcell 23).full then 8 else 0)), 0, 0]

/-- The address of a slot's trap frame (R369): slot 0 on a service core (R30). -/
def State.frameVa (s : State) (k : Key) : Nat :=
  ((s.core (coreOf k)).tframe.toNat + 64 * (if isService (coreOf k) then 0 else slotOf k)) % 2 ^ 56

/-- The registers as a trap leaves them (R369), the frame being written. -/
def Thread.trapped (t : Thread) (tvec : Addr) (cause a src : Nat) : Thread :=
  { t with
    trapcause := BitVec.ofNat 16 ((if cause = causeEMPTY then src * 256 else 0) + cause)
    trappc := t.pc
    trapaddr := addr a
    ths := withBit t.ths thsINTRAP true
    pc := tvec
    run := .ready }

/-- A page fault drops the thread from the rotation and raises its event (R371, R25); the code names what the translation
found. One of a trap's frame is entered again once the page is there. -/
def State.dropThread (s : State) (k : Key) (t : Thread) (va : Nat) (w : Bool) (code : Nat) (trap : Option Entry) : State :=
  (s.modT k (fun t => { t with run := .dropped (addr va) w trap })).raise
    [evHeader 1 2 (code * 2 ^ 40 + coordOf k), va, t.domN + t.partN * 2 ^ 16 + (if w then 2 ^ 24 else 0)]

/-- The page-fault code for an address that a thread's translation faults on (R25). -/
def State.faultCode (s : State) (t : Thread) (va : Nat) : Nat :=
  match s.rangeOf t.domN va 1 with
  | some r =>
    match s.translate t.domN (r.home va) va r.span4 with
    | .error e => e.code
    | .ok _ => PFault.invalid.code
  | none => PFault.invalid.code

/-- A trap entered (R369): the frame's stores go through the store buffer, and the thread stands at TVEC. A frame that fails its
checks ends the thread; one that must first be filled in the PLB waits, and one whose page is not there drops the thread (R371). -/
def State.enterTrap (s : State) (k : Key) (t : Thread) (cause a src : Nat) : State :=
  let f := s.frameVa k
  match s.access k t f 64 8 .wr true with
  | .ok p =>
    let s := (s.claim t.domN p.loc).usePlb (coreOf k) t.domN f 64
    let s := (trapFrame t).zipIdx.foldl (fun s w =>
      s.buffer k t [⟨f + 8 * w.2, p.loc + 8 * w.2, 8, w.1.setWidth 512⟩] p.refuse) s
    s.modT k (fun t => t.trapped (s.core (coreOf k)).tvec cause a src)
  | .error ⟨.park _, eff⟩ => (eff s).modT k (fun t => { t with run := .entering cause a src })
  | .error ⟨.drop va w, _⟩ => s.dropThread k t va w (s.faultCode t va) (some ⟨cause, a, src⟩)
  | .error _ => s.endByTrap k t causeDOUBLE

/-- TAKING AN EXCEPTION: a thread takes a trap of a cause, with an address value and an operand index (R369, R370). Its pc is
the address of the trapping instruction, or after a boundary of the next one; what that instruction held for a command is dropped. -/
def State.takeTrap (s : State) (k : Key) (cause a src : Nat) : State :=
  let s := s.modT k (fun t => { t.unwait with pend := none, took := [] })
  match s.thread k with
  | none => s
  | some t =>
    if t.thsBit thsINTRAP then s.endByTrap k t causeDOUBLE
    else if (s.core (coreOf k)).tvec = 0 then s.endByTrap k t cause
    else if t.owesFrame || !s.bufferRoom k 8 then s.modT k (fun t => { t with run := .entering cause a src })
    else s.enterTrap k t cause a src

/-! ## Returning from an exception (R380) -/

/-- The thread with its trap frame restored (R380): predicates and g20-g23 with their full/empty bits, INTRAP clear. -/
def Thread.restored (t : Thread) (f : Nat → DW) : Thread :=
  { t.reload (bits (f 0).toNat 31 0) (bits (f 0).toNat 63 32) (fun i => f (i + 1)) (fun i => (f 5).getLsbD i) with
    ths := withBit t.ths thsINTRAP false }

/-! ## Waking (R36) -/

/-- Whether a write of a core's thread to bytes that meet n from va is still to be performed (R124, R206, R374), the plain
stores of its core among them. -/
def State.locBusy (s : State) (k : Key) (tid va n : Nat) : Bool :=
  s.reqs.any (fun r => r.tid == tid && r.kind.writes && r.fin.isNone && r.pieces.any (fun p => meets p.va p.n va n)) ||
  (s.core (coreOf k)).sbuf.any (fun e => e.pieces.any (fun p => meets p.va p.n va n))

/-- A read that the instruction makes as it issues (R160, R263, R333, R380): it waits for the thread's own writes to the bytes
(R99), for an engine that owns them (R111), and for the home to have joined its slice (R354) and to know the die's clock (R106), and an
uncorrectable error traps (R392). It fills no cache (log 141). -/
def State.readNow (s : State) (k : Key) (t : Thread) (va loc n : Nat) : Res Nat :=
  if s.locBusy k t.tid va n || s.ownedBusy t.domN va n .anyone then parkOn (.loc (addr va) n)
  else if homeDie loc != dieOfCore (coreOf k) && !s.joined (homeDie loc) then parkOn (.gate (homeDie loc))
  else match s.behind (homeDie loc) (s.clockOf (dieOfCore (coreOf k))) with
    | [] =>
      match s.mem.badWord loc n with
      | some w => trapWith causeMEMERR (va + (8 * w - loc))
      | none => .ok (s.mem.readN loc n)
    | _ => .error ⟨.park (.gate (homeDie loc)), fun s => s.probes (homeDie loc) (s.clockOf (dieOfCore (coreOf k)))⟩

/-- The frame that such a read used claimed (R349). -/
def State.claimRead (s : State) (t : Thread) (loc : Nat) : State := s.claim t.domN loc

/-- Whether a barrier's epoch e is reached (R270). -/
def epochReached (epoch e : Nat) : Bool := (epoch + 256 - e) % 256 < 128

/-- EPOCH of a barrier register. -/
def Barrier.epoch (b : Barrier) : Nat := bits b.reg.toNat 39 32

/-- Barrier register n of a core. -/
def Core.bar (c : Core) (n : Nat) : Barrier := c.bars.toList.getD n Barrier.reset

/-- Whether a CCWAIT of a thread on a die may return (R244, R267): the counter is DONE and every launch of the level on
another die has been flushed. -/
def State.levelOver (s : State) (l : LevelRef) (die : Nat) : Bool :=
  (s.counter l).done && !(s.flushes.any (fun f => f.part == (s.counter l).part && f.die != die && f.levels.contains (handleOf s l)))

/-- Whether a send queue holds fewer than 64 accepted messages without a record (R160). -/
def State.queueRoom (s : State) (q : Nat) : Bool :=
  match mget s.io.sendqs q with
  | some x => x.msgs.length < 64
  | none => true

/-- Whether a connector's image of len bytes has room: the lowest free record of a die (R298, R304). -/
def State.freeCon (s : State) (d len : Nat) : Option Nat :=
  if 0x40000 + Config.storeExtra < (s.die d).storeUsed + len then none
  else lowestFree (fun i => match mget (s.die d).conns i with
    | some r => r.con.isSome
    | none => false) 256 0

/-- Whether nothing keeps a thread in its slot: nothing owed or taken (R21) but the register of an OWAIT (R164), no store of its own in the buffer (R100), no port operation
pending (R290). -/
def State.settled (s : State) (k : Key) (t : Thread) : Bool :=
  !((s.core (coreOf k)).sbuf.any (fun e => e.tid == t.tid)) && t.ports.all (fun p => ((s.port p).bind (·.op)).isNone) &&
  !t.unwait.owesAny && !(s.owed.any (fun o => o.k == k)) && t.k.toList.all (fun b => match b with
    | some b => !b.taking
    | none => true)

/-- Whether a thread stands where its context may leave (R252, R267, R371): at a boundary, out of the rotation, or in a CCWAIT. -/
def Thread.mayLeave (t : Thread) : Bool :=
  match t.run with
  | .ready | .dropped _ _ _ | .parked (.counter _) | .parked (.counterFull _) => true
  | .parked p => !p.holds
  | _ => false

/-- Whether what a thread of a core waits for has come (R36), for the waits that a change of the state ends; the others are
ended by the event that they name. -/
def State.parkOver (s : State) (k : Key) (t : Thread) (p : Park) : Bool :=
  let c := coreOf k
  match p with
  | .reg r => t.isFull r || t.isMarked r
  | .queue n => !(t.queue n).isEmpty
  | .port n | .punb n => match t.kb n with
    | none => true
    | some b => ((s.port b.port).bind (·.op)).isNone
  | .take n => match t.kb n with
    | none => true
    | some b => b.item.isSome || !b.taking
  | .fifo q => (t.fifo.toList.getD (q - 1) []).length < 8
  | .plb va => (s.core c).plb.any (fun r => r.dom == t.domN && r.covers va.toNat 1)
  | .release sc => s.releasedNow k t sc
  | .acquire => !s.acquiring k t
  | .storeBuffer n => s.bufferRoom k n
  | .journal => (s.core c).journal.length < 64
  | .owedAny => !t.owesAny
  | .owedFlags => !(s.owed.any (fun o => o.k == k && o.fp))
  | .owedRegs => !t.owesFrame
  | .owedV => !t.owesV
  | .loc va n => !s.locBusy k t.tid va.toNat n && !s.ownedBusy t.domN va.toNat n .anyone
  | .gate d => (s.behind d (s.clockOf (dieOfCore c))).isEmpty && (d == dieOfCore c || s.joined d)
  | .watch => match t.watch with
    | .armed _ _ => false
    | _ => true
  | .lease => !t.lease.waits
  | .launchRec d => s.releasedNow k t .die && (lowestFree (fun i => (s.launch d i).c.used) 1024 0).isSome
  | .graphRec d => s.releasedNow k t .die && (lowestFree (fun i => (s.graph d i).c.used) 256 0).isSome
  | .phaseRec q => (lowestFree (fun i => (s.counter (.phase q i)).used) 64 0).isSome
  | .seedRoom cl => (s.clusterFor t.partN cl).seeds.length < 256
  | .taskRoom cl => s.releasedNow k t .die && (s.clusterFor t.partN cl).tasks.length < 1024
  | .counter h => match checkHandle s t.partN h.toNat with
    | .live l => s.levelOver l (dieOfCore c)
    | _ => true
  | .barrier n e => epochReached ((s.core c).bar n).epoch e
  | .barrierArrival n => !((s.core c).bar n).heldArr
  | .conRec d len => s.releasedNow k t .die && (s.freeCon d len).isSome
  | .brimFree cl => (lowestFree (fun i => (s.brimB cl i).isSome) 256 0).isSome
  | .wake2 => !t.q2.isEmpty
  | .pubEntry cl b => match s.brimB cl b with
    | none => true
    | some x =>
      match s.rangeOf x.dom (x.pubBase + 32 * x.tail) 8 with
      | none => true
      | some r =>
        match s.placeIn (dieOfCore c) x.part x.dom false r (x.pubBase + 32 * x.tail) none with
        | .ok pl => !s.mem.fe pl.loc
        | .error _ => true
  | .queueRoom q | .pushRoom q => s.queueRoom q
  | .wayPend cl => !(s.cluster cl).wmask.getLsbD 32
  | .quiet j tid => match s.thread j with
    | none => true
    | some x => x.tid != tid || (x.mayLeave && s.settled j x && !x.thsBit thsCANP)
  | .evq => !(s.core c).evq.isEmpty
  | .msg => !(s.core c).msgBusy
  | .fill _ | .cycle _ | .copyAccept | .plankAccept | .sync _ | .word _ _ | .answer _ | .counterFull _ | .yield _ | .bytesHeld _ | .rotor _ _ _ | .halt | .migrate _ => false

end Sys2Proof.Machine
end

