-- ==== Sys2Proof/Machine/CopyOps.lean ====
section
/-! DEFINITION. Engine accesses and the copy engine (07_memory_instructions R133 to R137, 10_number_formats R180 to R183,
06 R111, 22 R413). -/

namespace Sys2Proof.Machine

/-! ## Engine accesses -/

/-- Why an engine access does not succeed now: a page fault at an address (R413); a failure with its status (R137, R221); a
wait for another command's ownership (R112), for another die's clock (R106), for a die that has not joined its slice (R354) or for a way
(R95); or misses in home vaults, each with its address and place (R88). -/
inductive EngErr where
  | fault (va : Nat) (code : Nat)
  | status (n : Nat)
  | wait
  | miss (l : List (Nat × Nat))

/-- An engine's access (R115, R342): its die, partition and domain, who asks, whether it writes whole words (R392), and the 256-byte blocks
whose bursts have come for it (R88). -/
structure EngAcc where
  whole : Bool
  die : Nat
  part : Nat
  dom : Nat
  who : Asker
  got : List (Nat × Nat)

/-- The parts of n bytes from an address that lie in one 4 KiB page each; n is at most 4,096. -/
def pageParts (va n : Nat) : List (Nat × Nat) :=
  if n = 0 then []
  else if va / 4096 = (va + n - 1) / 4096 then [(va, n)]
  else
    let a := 4096 - va % 4096
    [(va, a), (va + a, n - a)]

/-- Packets of the I/O dies' own engines: those of service-core engines carry the service mark (R342), and those of the rotor
and Ethernet units a partition, the latter as from a die of number 10, which has neither clock nor fence. -/
def svcDie (die : Nat) : Bool := die == 8 || die == 9

/-- The blocks of n bytes from a place that miss in their home vaults and have not been brought (R81, R88), each by an address and a place. -/
def State.missBlocks (s : State) (a : EngAcc) (va loc n : Nat) : List (Nat × Nat) :=
  if n = 0 || 2 ^ 40 ≤ loc then []
  else ((List.range ((loc + n - 1) / 128 + 1 - loc / 128)).map (fun i => (va / 128 * 128 + 128 * i, loc / 128 * 128 + 128 * i))).filter
    (fun x => s.vaultMiss a.dom x.1 x.2 && !a.got.contains (x.2 / 2 ^ 32, x.2 % 2 ^ 32 / 256))

/-- Whether an engine must leave a way to another this cycle (R95): it has made its access, or it granted the engines last and a request
contends for it. -/
def State.wayTaken (s : State) (dom va loc : Nat) : Bool :=
  match s.wayOf dom va loc with
  | none => false
  | some way =>
    let c := s.cluster (homeCluster loc)
    let l := (mget c.grants way).getD (0, s.cycle + 1)
    l.2 == s.cycle || (l.1 == engineSource && s.reqs.any (fun q => s.wayFor q == (homeCluster loc, some way) && s.dueNow q && s.readyHere q))

/-- The ways of an engine's access taken (R95), and its lines used. -/
def State.takeWays (s : State) (dom : Nat) (ps : List Piece) : State :=
  ps.foldl (fun s p =>
    let s := s.vaultUse dom p.va p.loc false
    match s.wayOf dom p.va p.loc with
    | none => s
    | some way => s.modCluster (homeCluster p.loc) (fun c => { c with grants := mput c.grants way (engineSource, s.cycle) })) s

/-- The place of one part of an engine access (R115, R342, R346, R106, R112, R354). A fill writes words `whole`, which an uncorrectable
error does not stop (R392). -/
def State.engPart (s : State) (a : EngAcc) (va n : Nat) (rt : Right) : Except EngErr Nat :=
  match s.addrTrap a.part (svcDie a.die) va n 1 with
  | some _ => .error (.status 2)
  | none =>
    match s.rangeOf a.dom va n with
    | none => .error (.status 3)
    | some r =>
      if !r.grants rt then .error (.status 3)
      else match s.placeIn a.die a.part a.dom (svcDie a.die) r va none with
        | .error e => .error (.fault va e.code)
        | .ok p =>
          match p.refuse with
          | some _ => .error (.status 3)
          | none =>
            if s.ownedBusy a.dom va n a.who || (homeDie p.loc != a.die && !s.joined (homeDie p.loc)) then .error .wait
            else if !(s.behind (homeDie p.loc) (s.clockOf a.die)).isEmpty then .error .wait
            else if !(rt == .wr && s.uncached p.loc) && !(s.missBlocks a va p.loc n).isEmpty then .error (.miss (s.missBlocks a va p.loc n))
            else if s.wayTaken a.dom va p.loc then .error .wait
            else if a.whole then .ok p.loc
            else match s.mem.badWord p.loc n with
              | some _ => .error (.status 1)
              | none => .ok p.loc

/-- The places of the parts of an engine access, in order. -/
def State.engPlaces (s : State) (a : EngAcc) (rt : Right) : List (Nat × Nat) → Except EngErr (List Piece)
  | [] => .ok []
  | (va, n) :: l =>
    match s.engPart a va n rt with
    | .error e => .error e
    | .ok loc =>
      match s.engPlaces a rt l with
      | .error e => .error e
      | .ok r => .ok (⟨va, loc, n, 0⟩ :: r)

/-- The bytes at places, little-endian. -/
def Mem.gatherAt (m : Mem) : List Piece → Nat
  | [] => 0
  | p :: l => m.readN p.loc p.n + 256 ^ p.n * m.gatherAt l

/-- The frames that an engine's read used claimed (R349). -/
def State.claimAll (s : State) (dom : Nat) (ps : List Piece) : State := ps.foldl (fun s p => s.claim dom p.loc) s

/-- A write of a die's engine to another die counts as it leaves, and is heard where it arrives (R105). -/
def State.engLeaves (s : State) (die loc : Nat) : State :=
  if die < 8 && homeDie loc != die then let x := s.leaveDie die; x.2.heard (homeDie loc) die x.1 else s

/-- Bytes written at places by an engine of a die (R111): data only. `eng` is the engine whose record waits for them to drain. -/
def State.scatterAt (s : State) (die dom : Nat) (eng : Option Key) : List Piece → Nat → State
  | [], _ => s
  | p :: l, v =>
    (((((s.engLeaves die p.loc).claim dom p.loc).write p.loc p.n v).wrote p.va p.loc ⟨dom, p.loc, 0, 0, eng, none, []⟩)).scatterAt
      die dom eng l (v / 256 ^ p.n)

/-- The clock probes an engine's waiting access sends (R106). -/
def State.probeAll (s : State) (die : Nat) : State := (List.range 8).foldl (fun s h => s.probes h (s.clockOf die)) s

/-- An engine that missed asks the memory ports for its blocks (R88). -/
def State.askAll (s : State) (who : Asks) (dom : Nat) (l : List (Nat × Nat)) : State :=
  l.foldl (fun s x => s.askBurst ⟨who, dom, x.1⟩ x.2) s

/-- Whether writes of an engine have still to drain (R111, R113). -/
def State.draining (s : State) (eng : Key) : Bool :=
  s.clusters.any (fun c => c.2.wbuf.any (fun e => e.eng == some eng)) || s.groups.any (fun g => g.2.wq.any (fun e => e.eng == some eng))

/-- A page fault of an engine raised to Plynvas (R413, R25). -/
def State.raiseEngFault (s : State) (k : Key) (part dom va : Nat) (w : Bool) (code : Nat) : State :=
  s.raise [evHeader 1 2 (code * 2 ^ 40 + coordOf k), va,
    dom + part * 2 ^ 16 + (if w then 2 ^ 24 else 0) + 2 ^ 25]

/-- The cause that a record's status carries for an ended thread (R376), copy and Plank records alike. -/
def recordCause (st : Nat) : Nat :=
  match st with
  | 1 => causeMEMERR
  | 2 => causeSCRATCHGONE
  | 3 => causePROT
  | 4 => causeMODE
  | _ => causePAGE

/-! ## Formats (R134, R180 to R182) -/

/-- The format register of the bank an address names, 0 for a way that is cache or an address outside scratch (R178). -/
def State.bankFmt (s : State) (va : Nat) : Nat :=
  if regionOf va != 0xF0 then 0
  else
    let cl := scratchCl va
    let w := scratchWay va
    if s.isScratch cl w then ((mget (s.cluster cl).bfmt w).getD bfReset).toNat else 0

/-- The formats of a copy's two sides (R134, R182): a bank's own, else the suffix's; facing a batt bank, an unformatted side
takes that bank's. `plain` is the suffix's type with the PAGE rounding and saturation. Row 0's banks give the
formats of all rows (log 136). -/
def State.copyFmts (s : State) (dst src plain : Nat) : Nat × Nat :=
  let fd := s.bankFmt dst
  let fs := s.bankFmt src
  let fd' := if bfFmt fd = 0 then (if bfFmt fs = 11 then fs else plain) else fd
  let fs' := if bfFmt fs = 0 then (if bfFmt fd = 11 then fd else plain) else fs
  (fd', fs')

/-- The suffix's type as a format value (R134): FMT is the etype code plus 1; RNE for rounding code 0; saturating. -/
def plainFmt (et rnd : Nat) : Nat := (et + 1) * 4096 + (if rnd = 0 then 1 else rnd) * 16 + 8

/-- Whether two format values hold the same elements (R134). -/
def sameElems (a b : Nat) : Bool := bfFmt a == bfFmt b && bfM a == bfM b && bfSparse a == bfSparse b

/-- The number of elements moved as one unit between two formats: a sparse run, a batt, or up to 32 elements. -/
def unitElems (fd fs : Nat) : Nat :=
  if bfSparse fd || bfSparse fs then 256 else if bfFmt fd = 11 || bfFmt fs = 11 then 16 else 32

/-- The elements of n in a format, from their bytes (R174 to R177, R181). -/
def decodeElems (f n x : Nat) : List Exact :=
  if bfFmt f = 11 then
    if bfSparse f then (sparseRun (bfM f) (x % 2 ^ 384) (n / 16) 0 (x / 2 ^ 384))
    else (List.range (n / 16)).flatMap (fun b => denseElems (bfM f) (x / 2 ^ (16 * (bfM f + 1) * b) % 2 ^ (16 * (bfM f + 1))))
  else
    let ty := fmtNumTy (bfFmt f)
    (List.range n).map (fun i => ty.decode (x / 2 ^ (ty.w * i) % 2 ^ ty.w))

/-- The groups of 16 of a list. -/
def groups16 : Nat → List Exact → List (List Exact)
  | 0, _ => []
  | n + 1, xs => xs.take 16 :: groups16 n (xs.drop 16)

/-- Elements encoded in a format (R181): the bytes as a number, and how many. -/
def encodeElems (f : Nat) (xs : List Exact) : Nat × Nat :=
  let md := rmode (bfRnd f)
  if bfFmt f = 11 then
    let bs := (groups16 (xs.length / 16) xs).map (fun g => let r := toBatt (bfM f) md (bfSat f) g; (r.1, r.2.1))
    if bfSparse f then sparseBytes (bfM f) bs
    else
      let w := 16 * (bfM f + 1)
      (bs.foldr (fun b acc => denseBatt (bfM f) b.1 b.2 + acc * 2 ^ w) 0, bs.length * (w / 8))
  else
    let ty := fmtNumTy (bfFmt f)
    (xs.foldr (fun x acc => (ty.encode md (bfSat f) x).1 + acc * 2 ^ ty.w) 0, xs.length * (ty.w / 8))

/-! ## Acceptance (R133) -/

/-- Whether two rows of a command overlap: a source row and a destination row, or two destination rows (R133, R135). -/
def CopyCmd.overlaps (c : CopyCmd) (dlen slen : Nat) : Bool :=
  (1 < c.rows && c.dpitch < dlen) ||
  (c.fill.isNone && (List.range c.rows).any (fun i => (List.range c.rows).any (fun j =>
    meets (c.dst + i * c.dpitch) dlen (c.src + j * c.spitch) slen)))

/-- Whether an address lies in a way that is leaving scratch (R91). -/
def State.leavingWay (s : State) (va : Nat) : Bool :=
  regionOf va == 0xF0 &&
  (let w := (s.cluster (scratchCl va)).wmask
   w.getLsbD 32 && w.getLsbD (scratchWay va) && !w.getLsbD (16 + scratchWay va))

/-- The first of some rows that lies in such a way: its address. -/
def State.leavingRow (s : State) (a pitch rows : Nat) : Option Nat :=
  ((List.range rows).map (fun i => a + i * pitch)).find? s.leavingWay

/-- The checks of R115 over the rows of a range, each over every row: the cause of the first that fails. TRAPADDR names the range's first
byte (log 127). -/
def State.rowsTrap (s : State) (part dom : Nat) (svc : Bool) (rt : Right) (a pitch len rows : Nat) : Option Nat :=
  let vas := (List.range rows).map (fun i => a + i * pitch)
  if vas.any (fun va => regionBad svc va len) then some causeBADADDR
  else (vas.findSome? (fun va => s.addrTrap part svc va len 1)).or (vas.findSome? (fun va => s.rangeTrap part dom svc va len rt))

/-- The checks of acceptance (R133, steps 2 to 4), answering the command with the formats it uses (R180). -/
def State.acceptCopy (s : State) (svc : Bool) (c : CopyCmd) : Res CopyCmd :=
  let f := s.copyFmts c.dst c.src c.dfmt.toNat
  let c' : CopyCmd := if c.fill.isSome then c else { c with dfmt := dw f.1, sfmt := dw f.2 }
  let dlen := c'.own.len
  let slen := if c.fill.isSome then 0 else fmtLen f.2 c.cnt
  let batt := c.fill.isNone && (bfFmt f.1 == 11 || bfFmt f.2 == 11)
  let sparse := bfSparse f.1 || bfSparse f.2
  let aligned := (List.range c.rows).all (fun j =>
    if c.fill.isSome then c.dst % 8 == 0
    else (c.dst + j * c.dpitch) % fmtAlign f.1 == 0 && (c.src + j * c.spitch) % fmtAlign f.2 == 0)
  if (batt && c.cnt % (if sparse then 256 else 16) != 0) || !aligned || c'.overlaps dlen slen then trapWith causeBADOPND 0
  else match s.rowsTrap c.part c.dom svc .wr c.dst c.dpitch dlen c.rows with
    | some x => trapWith x c.dst
    | none =>
      match (if c.fill.isSome then none else s.rowsTrap c.part c.dom svc .rd c.src c.spitch slen c.rows) with
      | some x => trapWith x c.src
      | none => match s.leavingRow c.dst c.dpitch c.rows with
        | some a => trapWith causeWAYBUSY a
        | none => .ok c'

/-- The cluster whose copy engine a core uses. A service core has none (R8), so that no command of one is accepted (log 18). -/
def engineOf (c : Key) : Key := clusterOf c

/-- A copy command issued (R133, step 1): it holds its thread until it is accepted. -/
def State.issueCopy (s : State) (k : Key) (t : Thread) (fill : Option (DW × Bool)) (dst src cnt rows dpitch spitch et rnd : Nat) :
    Res Pend :=
  if s.acquiring k t then parkOn .acquire
  else if cnt = 0 || 2 ^ 32 ≤ cnt || rows = 0 then trapWith causeBADOPND 0
  else
    let f := dw (plainFmt et rnd)
    .ok (.copy ⟨k, t.tid, t.copySeq, t.partN, t.domN, t.launchid, fill, dst % 2 ^ 56, src % 2 ^ 56, cnt, rows, dpitch, spitch, f, f,
      0, 0, 0, 0, 0, none, []⟩)

/-- A thread holding for the acceptance of a command (R133, R220): its pc stays at the instruction, that of the next being kept. -/
def State.holdPend (s : State) (k : Key) (ipc : Addr) (p : Pend) (park : Park) (ev : Instr) : State :=
  ((s.modT k (fun t => { t with npc := t.pc, pc := ipc, pend := some p })).parkThread k park park.limited).push ev (.n1 k)

/-! ## Execution (R134 to R137, R413) -/

/-- The state with the head command of a copy engine changed. -/
def State.modHead (s : State) (cl : Key) (f : CopyCmd → CopyCmd) : State :=
  s.modCluster cl (fun c => { c with copyq := match c.copyq with
    | [] => []
    | x :: l => f x :: l })

/-- The head command after e more elements (R137): its row ends when all are done. -/
def CopyCmd.advance (c : CopyCmd) (e dl sl : Nat) : CopyCmd :=
  if c.cnt ≤ c.done + e then { c with row := c.row + 1, done := 0, dpos := 0, spos := 0, got := [] }
  else { c with got := [], done := c.done + e, dpos := c.dpos + dl, spos := c.spos + sl }

/-- The head command's accesses: to its source, and to its destination. -/
def CopyCmd.srcAcc (c : CopyCmd) (die cl : Nat) : EngAcc := ⟨false, die, c.part, c.dom, .copy cl, c.got⟩
def CopyCmd.dstAcc (c : CopyCmd) (die cl : Nat) : EngAcc := ⟨c.fill.isSome, die, c.part, c.dom, .copy cl, c.got⟩

/-- The address of the head command's next destination byte. -/
def CopyCmd.dstVa (c : CopyCmd) : Nat := c.dst + c.row * c.dpitch + c.dpos

/-- The address of its next source byte. -/
def CopyCmd.srcVa (c : CopyCmd) : Nat := c.src + c.row * c.spitch + c.spos

/-- The bytes that e elements of the source take from the current position. -/
def State.srcLen (s : State) (die cl : Nat) (c : CopyCmd) (e : Nat) : Except EngErr Nat :=
  let f := c.sfmt.toNat
  if bfFmt f = 11 && bfSparse f then
    match s.engPlaces (c.srcAcc die cl) .rd (pageParts c.srcVa 48) with
    | .error x => .error x
    | .ok ps => .ok (sparseLen (bfM f) (sparseStored (s.mem.gatherAt ps)))
  else .ok (fmtLen f e)

/-- The source places of e elements of the head command, and the destination bytes they become (R134, R181): as a number, and how many. -/
def State.unitBytes (s : State) (die cl : Nat) (c : CopyCmd) (e : Nat) : Except EngErr (List Piece × Nat × Nat) :=
  match s.srcLen die cl c e with
  | .error x => .error x
  | .ok sl =>
    match s.engPlaces (c.srcAcc die cl) .rd (pageParts c.srcVa sl) with
    | .error x => .error x
    | .ok sps =>
      let x := s.mem.gatherAt sps
      let out := if sameElems c.dfmt.toNat c.sfmt.toNat then (x, sl) else encodeElems c.dfmt.toNat (decodeElems c.sfmt.toNat e x)
      .ok (sps, out)

/-- e elements of the head command moved (R134, R136, R181), or why not, and whether the destination is to blame. -/
def State.moveElems (s : State) (die : Nat) (cl : Key) (c : CopyCmd) (e : Nat) : Except (EngErr × Bool) State :=
  match c.fill with
  | some (v, full) =>
    match s.engPlaces (c.dstAcc die cl) .wr (pageParts c.dstVa (8 * e)) with
    | .error x => .error (x, true)
    | .ok ps =>
      let val := (List.range e).foldl (fun a i => a + v.toNat * 2 ^ (64 * i)) 0
      let s := ps.foldl (fun s p => s.modMem (fun m => m.heal p.loc (p.n / 8))) ((s.takeWays c.dom ps).scatterAt die c.dom (some cl) ps val)
      let s := ps.foldl (fun s p => (List.range (p.n / 8)).foldl (fun s i => s.putFe none (p.loc + 8 * i) full) s) s
      .ok (s.modHead cl (fun c => c.advance e (8 * e) 0))
  | none =>
    match s.unitBytes die cl c e with
    | .error x => .error (x, false)
    | .ok (sps, v, n) =>
      match s.engPlaces (c.dstAcc die cl) .wr (pageParts c.dstVa n) with
      | .error x => .error (x, true)
      | .ok dps =>
        let sl := (sps.map (·.n)).sum
        .ok ((((s.claimAll c.dom sps).takeWays c.dom (sps ++ dps)).scatterAt die c.dom (some cl) dps v).modHead cl
          (fun c => c.advance e n sl))

/-- The number of elements that stand or fall together on a command's destination (R137). -/
def CopyCmd.granule (c : CopyCmd) : Nat :=
  let f := c.dfmt.toNat
  if bfFmt f = 11 then (if bfSparse f then 256 else 16) else 1

/-- Parts of n bytes each of a unit's destination written in order, up to the first that fails (R137). -/
def State.writeParts (s : State) (die : Nat) (cl : Key) (c : CopyCmd) (n : Nat) : Nat → Nat → Nat → State
  | 0, _, _ => s
  | k + 1, va, v =>
    match s.engPlaces (c.dstAcc die cl) .wr (pageParts va n) with
    | .ok ps => (s.scatterAt die c.dom (some cl) ps (v % 256 ^ n)).writeParts die cl c n k (va + n) (v / 256 ^ n)
    | .error _ => s

/-- What a unit writes whose destination fails in part (R137): each batt or run, or element, before the first that fails. -/
def State.writeBefore (s : State) (die : Nat) (cl : Key) (c : CopyCmd) (e : Nat) : State :=
  let g := c.granule
  if e ≤ g then s
  else match s.unitBytes die cl c e with
    | .error _ => s
    | .ok (sps, v, _) => (s.claimAll c.dom sps).writeParts die cl c (fmtLen c.dfmt.toNat g) (e / g) c.dstVa v

/-- The head command of a copy engine gone on with: another unit in the next cycle, or its end. -/
def State.copyNext (s : State) (cl : Key) : State :=
  match (s.cluster cl).copyq with
  | [] => s
  | c :: _ =>
    if c.stalled.isSome then s
    else if c.status != 0 || c.rows ≤ c.row then s.push .copyComplete (.n1 cl) else s.retry .copyUnitWrite (.n1 cl)

/-- One unit of the head command (R134 to R137): a unit of single elements that fails is tried element by element; of another every batt,
run or element of the destination before the first that fails is written. A page fault stalls the command (R413), a miss waits for its
bursts (R88). -/
def State.copyUnit (s : State) (die : Nat) (cl : Key) : State :=
  match (s.cluster cl).copyq with
  | [] => s
  | c :: _ =>
    if c.stalled.isSome || c.status != 0 || c.rows ≤ c.row || s.switching (groupOfCluster cl) then s
    else
      let u := if c.fill.isSome then 32 else unitElems c.dfmt.toNat c.sfmt.toNat
      let e := min u (c.cnt - c.done)
      let fail (s : State) (x : EngErr × Bool) : State :=
        match x.1 with
        | .wait => (s.probeAll die).retry .copyUnitWrite (.n1 cl)
        | .miss l => s.askAll (.copy cl) c.dom l
        | .fault va code => (s.modHead cl (fun c => { c with stalled := some (addr va) })).raiseEngFault c.k c.part c.dom va x.2 code
        | .status n => (s.modHead cl (fun c => { c with status := BitVec.ofNat 8 n })).copyNext cl
      match s.moveElems die cl c e with
      | .ok s => s.copyNext cl
      | .error (.wait, w) => fail s (.wait, w)
      | .error (.miss l, w) => fail s (.miss l, w)
      | .error x =>
        if u = 32 && 1 < e then
          match s.moveElems die cl c 1 with
          | .ok s => s.copyNext cl
          | .error y => fail s y
        else fail (if x.2 then s.writeBefore die cl c e else s) x

/-- A record pushed to a thread's queue, or for an ended thread its status reported (R137, R158, R221, R376). -/
def State.pushRecord (s : State) (tid part : Nat) (launch : BitVec 32) (st cause : Nat) (f : Thread → Thread) : State :=
  match s.threadOf tid with
  | some _ => s.modTid tid f
  | none => if st = 0 then s else s.report part launch cause

end Sys2Proof.Machine
end

