-- ==== Sys2Proof/Machine/RotorOps.lean ====
section
/-! DEFINITION. Send queues and the acceptance of messages (08_rotor_fabric R147, R148, R160, R161). -/

namespace Sys2Proof.Machine

/-- A send queue. -/
def State.sendq (s : State) (q : Nat) : SendQ := (mget s.io.sendqs q).getD SendQ.reset

/-- The state with a send queue changed. -/
def State.modSendq (s : State) (q : Nat) (f : SendQ → SendQ) : State :=
  s.modIo (fun io => { io with sendqs := mput io.sendqs q (f (s.sendq q)) })

/-- PEER of a queue's configuration (R161). -/
def cfgPeer (c : DW) : Nat := bits c.toNat 11 0
/-- PORT. -/
def cfgPort (c : DW) : Nat := bits c.toNat 19 16
/-- MODE: whether spray. -/
def cfgSpray (c : DW) : Bool := c.getLsbD 28
/-- QUOTA. -/
def cfgQuota (c : DW) : Nat := bits c.toNat 47 32

/-- Whether a queue is assigned to a partition (R147). -/
def State.ownsQueue (s : State) (part q : Nat) : Bool := (s.sendq q).valid && (s.sendq q).part == part

/-- The check that a queue number is of the partition (R160 to R162): PROT with the number. -/
def State.checkQueue (s : State) (part q : Nat) : Res Unit :=
  if s.ownsQueue part q then .ok () else trapWith causePROT q

/-- The descriptor of a message, read and checked (R148): source, length, destination, completion word. -/
def parseDesc (x : Nat) : Option (Nat × Nat × Addr × Addr) :=
  let w (i : Nat) := x / 2 ^ (64 * i) % 2 ^ 64
  let len := bits (w 1) 16 0
  if bits (w 0) 63 56 != 0 || bits (w 1) 63 17 != 0 || len = 0 || 65536 < len || bits (w 2) 63 56 != 0 || (w 2) % 8 != 0
    || bits (w 3) 63 56 != 0 || (w 3) % 8 != 0 then none
  else some (bits (w 0) 55 0, len, addr (w 2), addr (w 3))

/-! ## Records (R158) -/

/-- The cause that a rotor record's status carries for an ended thread (R376). -/
def rotorCause (st : Nat) : Nat :=
  match st with
  | 1 => causeGRANT
  | 2 => causeQHALT
  | 3 | 4 => causeMEMERR
  | _ => causePAGE

/-- The messages of a queue whose records may be pushed now, of each slot the first (R158): they have ended, none before them in the queue has
not, and the slot's q3 holds fewer than 16 records. `seen` are the threads of messages before. -/
def State.dueRecords (s : State) : List Nat → List Msg → List Msg
  | _, [] => []
  | seen, m :: l =>
    if !m.ended then []
    else
      let room := match s.threadOf m.tid with
        | some t => t.q3.length < 16
        | none => true
      if seen.contains m.tid || !room then s.dueRecords (m.tid :: seen) l else m :: s.dueRecords (m.tid :: seen) l

/-- The record pushed next: of those due in any queue, that of the message that ended first. -/
def State.nextRecord (s : State) : Option (Nat × Msg) :=
  (s.io.sendqs.flatMap (fun q => (s.dueRecords [] q.2.msgs).map (fun m => (q.1, m)))).foldl (fun o x => match o with
    | none => some x
    | some y => if x.2.endNo < y.2.endNo then some x else some y) none

/-- Records pushed as far as they are due; the interface holds those for which a slot's q3 has no room (R158). -/
def pushRecords : Nat → State → State
  | 0, s => s
  | fuel + 1, s =>
    match s.nextRecord with
    | none => s
    | some (q, m) =>
      let w := dw (m.seq.toNat * 2 ^ 32 + q * 2 ^ 22 + m.status.toNat)
      let s := s.modSendq q (fun y => { y with msgs := y.msgs.filter (fun x => x.seq != m.seq) })
      pushRecords fuel (s.pushRecord m.tid m.part m.launch m.status.toNat (rotorCause m.status.toNat) (fun t => { t with q3 := t.q3 ++ [w] }))

/-- Every record that is due pushed. -/
def State.flushRecords (s : State) : State := pushRecords ((s.io.sendqs.map (fun q => q.2.msgs.length)).sum) s

/-- OSEND's checks up to its acceptance (R160), answering what it will send and the state in which its descriptor's frame is claimed (R349);
a push of QMAP code 4 makes the same ones (R33). -/
def State.osendCheck (s : State) (k : Key) (t : Thread) (a q : Nat) : Res (Pend × (State → State)) :=
  match t.pend with
  | some p => .ok (p, id)
  | none => do
    if s.acquiring k t then parkOn .acquire
    let p ← s.access k t a 32 32 .rd false
    require (q < 1024)
    s.checkQueue t.partN q
    let x ← s.readNow k t a p.loc 32
    match parseDesc x with
    | none => trapWith causeBADOPND 0
    | some (src, len, rdst, rcw) =>
      require (!(s.sendq q).halt)
      .ok (.osend q src len rdst rcw, fun s => s.claimRead t p.loc)

/-- OSEND's acceptance (R160): it parks while the queue is full, then holds until the .die release conditions hold, and takes
the queue's next number; `dest` is the register that is owed it, none for a push. -/
def State.osendAccept (s : State) (k : Key) (t : Thread) (p : Pend) (dest : Option Nat) : Res State :=
  match p with
  | .osend q src len rdst rcw =>
    let keep (s : State) : State := s.modT k (fun t => { t with pend := some p })
    if !s.queueRoom q then
      .error ⟨.park (if dest.isSome then .queueRoom q else .pushRoom q), fun s => s.modT k (fun t => { t with pend := none })⟩
    else if !s.releasedNow k t .die then .error ⟨.park (.release .die), keep⟩
    else
      let sq := s.sendq q
      let m : Msg := ⟨sq.next, k, t.tid, t.partN, t.domN, t.launchid, src, len, rdst, rcw, dest, false, [], [], false, s.nextId, 0, none, []⟩
      let s := State.modSendq { s with nextId := s.nextId + 1 } q (fun x => { x with next := x.next + 1, msgs := x.msgs ++ [m] })
      let s := s.modT k (fun t => { t with pend := none })
      let s := match dest with
        | some g => s.modT k (fun t => t.oweReg (.g g))
        | none => s
      .ok (s.push .osendBytesHeld (.n2 q sq.next.toNat))
  | _ => .ok s

/-- A checked OSEND put to acceptance, the frame of its descriptor claimed whether it is accepted or waits (R349). -/
def State.osendGo (s : State) (k : Key) (t : Thread) (x : Pend × (State → State)) (dest : Option Nat) : Res State :=
  match (x.2 s).osendAccept k t x.1 dest with
  | .ok s => .ok s
  | .error h => .error ⟨h.stop, fun s => h.eff (x.2 s)⟩

end Sys2Proof.Machine
end

