-- ==== Sys2Proof/Machine/Operands.lean ====
section
/-! DEFINITION. The course of one instruction (03_encoding R51): predicate, sources (02_machine_state R26), destinations, and
the operand forms: registers, port registers (R24, R276), engine queues (R24, R33), and the service-core registers (R25). -/

namespace Sys2Proof.Machine

/-! ## Sources and destinations -/

/-- A register source: its number, the index of R27, and its trap-if-empty bit. -/
inductive Src where
  | x (n idx : Nat) (tie : Bool)   -- a register number of R22
  | v (n idx : Nat) (tie : Bool)   -- a vector register
  | p (n idx : Nat) (tie : Bool)   -- a predicate
  | sub (n : Nat)                  -- a g register substituted in a parameter block (R53)

/-- A register destination. -/
inductive Dst where
  | x (n : Nat)
  | v (n : Nat)
  | p (n : Nat)

/-- What the meaning of an instruction sees: the slot, its thread as it stood at issue, the SRC fields, the state at issue. -/
structure Cx where
  k : Key
  t : Thread
  q : Quals
  s : State

/-- The stop of R26 for an empty register. -/
def emptyStop (t : Thread) (r : RegRef) (n idx : Nat) (tie : Bool) : Res Unit :=
  if t.isMarked r then trapWith causeWAITLIM r.trapNum
  else if tie then .error ⟨.trap causeEMPTY n idx, id⟩
  else parkOn (.reg r)

/-- The check of an empty k source (R24, R276): a take is sent, or the one under way is awaited. -/
def takeStop (s : State) (k : Key) (t : Thread) (i : Nat) (tie : Bool) : Res Unit :=
  match t.boundTo i true false with
  | .error h => .error h
  | .ok b =>
    if b.item.isSome then .ok ()
    else if b.taking then parkOn (.take i)
    else match (s.port b.port).bind (·.op) with
      | some _ => parkOn (.port i)
      | none => .error ⟨.park (.take i), fun s =>
          (s.modT k (fun t => t.setKb i (some { b with taking := true }))).startOp b.port (coreOf k) t.limit .take (.deliver i) tie
            true⟩

/-- The check of one source (R26): `used` counts the earlier reads of the same queue by this instruction (log 19). -/
def checkSrc (s : State) (k : Key) (t : Thread) (used : Nat → Nat) : Src → Res Unit
  | .x n idx tie =>
    if n < 24 then (if t.isFull (.g n) then .ok () else emptyStop t (.g n) n idx tie)
    else if isK n then takeStop s k t (kIndex n) tie
    else if isQsrc n then
      if used n < (t.queue (n - 28)).length then .ok ()
      else if tie then .error ⟨.trap causeEMPTY n idx, id⟩ else parkOn (.queue (n - 28))
    else
      if used n < (s.core (coreOf k)).evq.length then .ok ()
      else if tie then .error ⟨.trap causeEMPTY n idx, id⟩ else parkOn .evq
  | .v n idx tie => if t.isFull (.v n) then .ok () else emptyStop t (.v n) n idx tie
  | .p n idx tie => if t.isFull (.p n) then .ok () else emptyStop t (.p n) n idx tie
  | .sub n => if t.isFull (.g n) then .ok () else emptyStop t (.g n) n 0 false

/-- The number of reads of a queue register among sources. -/
def readsOf (n : Nat) (l : List Src) : Nat :=
  (l.filter (fun x => match x with
    | .x m _ _ => m == n
    | _ => false)).length

/-- The checks of the sources in order (R26); `before` are those already checked. -/
def checkSrcs (s : State) (k : Key) (t : Thread) : List Src → List Src → Res Unit
  | _, [] => .ok ()
  | before, x :: l =>
    match checkSrc s k t (fun n => readsOf n before) x with
    | .error h => .error h
    | .ok _ => checkSrcs s k t (before ++ [x]) l

/-- The value read from a register number (R22, R24): `skip` earlier reads of the same queue precede it. -/
def Cx.get (c : Cx) (n skip : Nat) : DW :=
  if n < 24 then c.t.gv n
  else if isK n then
    match (c.t.kb (kIndex n)).bind (·.item) with
    | some x => x.data.setWidth 64
    | none => 0
  else if isQsrc n then (c.t.queue (n - 28)).getD skip 0
  else (c.s.core (coreOf c.k)).evq.getD skip 0

/-- The state with what the completing instruction's sources take away (R24): delivered items and popped records. -/
def consume (k : Key) (s : State) : Src → State
  | .x n _ _ =>
    if n < 24 then s
    else if isK n then s.modT k (fun t => match t.kb (kIndex n) with
      | some b => t.setKb (kIndex n) (some { b with item := none })
      | none => t)
    else if isQsrc n then s.modT k (fun t => t.popQueue (n - 28))
    else s.modCore (coreOf k) (fun c => { c with evq := c.evq.drop 1 })
  | _ => s

/-- The check of a g, v or p destination that is owed a result (R26). -/
def owedStop (t : Thread) (r : RegRef) (n : Nat) (tie : Bool) : Res Unit :=
  if t.isOwed r then (if tie then .error ⟨.trap causeEMPTY n 2, id⟩ else parkOn (.reg r)) else .ok ()

/-- QMAP's code for a q destination (R32). -/
def Thread.qcode (t : Thread) (n : Nat) : Nat := bits t.qmap.toNat (4 * (n - 44) + 3) (4 * (n - 44))

/-- The check of one destination (R26, R276, R32, R33, R25). -/
def checkDst (s : State) (t : Thread) (k : Key) (tie : Bool) : Dst → Res Unit
  | .x n =>
    if n < 24 then owedStop t (.g n) n tie
    else if isK n then do
      let b ← t.boundTo (kIndex n) false false
      require (t.pmeta != noMeta)
      s.portFree b (kIndex n)
    else if isQdst n then
      if t.qcode n = 0 then trapWith causeILLEGAL 0
      else if 8 ≤ (t.fifo.toList.getD (t.qcode n - 1) []).length then parkOn (.fifo (t.qcode n))
      else .ok ()
    else if (s.core (coreOf k)).msgBusy then parkOn .msg else .ok ()
  | .v n => owedStop t (.v n) n tie
  | .p n => owedStop t (.p n) n tie

/-- The checks of the destinations in order. -/
def checkDsts (s : State) (t : Thread) (k : Key) (tie : Bool) : List Dst → Res Unit
  | [] => .ok ()
  | d :: l =>
    match checkDst s t k tie d with
    | .error h => .error h
    | .ok _ => checkDsts s t k tie l

/-! ## The course of an instruction (R51, R367) -/

/-- The address of the next instruction. -/
def State.npc (s : State) (t : Thread) : Addr := t.pc + BitVec.ofNat 56 (2 * s.ilen)

/-- What an instruction that stopped leaves (R5, R36, R369, R371). -/
def State.stopped (s : State) (k : Key) (t : Thread) (h : Halt) : State :=
  let s := h.eff s
  match h.stop with
  | .trap cause a src => s.takeTrap k cause a src
  | .park p => s.parkThread k p p.limited
  | .drop va w => s.dropThread k t va w (s.faultCode t va) none

/-- Registers 56 and 57 exist on service cores only (R22). -/
def Src.special : Src → Bool
  | .x n _ _ => n == 56 || n == 57
  | _ => false

/-- Registers 56 and 57 as destinations. -/
def Dst.special : Dst → Bool
  | .x n => n == 56 || n == 57
  | _ => false

/-- Whether the predicate lets an instruction execute (R51, steps 1 and 2). -/
def predicate (t : Thread) (q : Quals) : Res Bool :=
  let n := q.pred.toNat
  if t.isFull (.p n) then .ok (t.pv n != q.inv)
  else if t.isMarked (.p n) then trapWith causeWAITLIM (0x40 + n)
  else parkOn (.reg (.p n))

/-- The state in which the meaning of an instruction runs: its pc at the next instruction, its sources taken. -/
def State.issued (s : State) (k : Key) (t : Thread) (srcs : List Src) : State :=
  srcs.foldl (consume k) (s.modT k (fun x => { x with pc := s.npc t }))

/-- An instruction from the predicate on (R51): `svc` for one that only service cores run (R356), `always` for SEL (R66). -/
def State.course (s : State) (k : Key) (t : Thread) (svc always : Bool) (srcs : List Src) (dsts : List Dst)
    (body : Cx → State → Res State) : Res State :=
  if !isService (coreOf k) && (svc || srcs.any Src.special || dsts.any Dst.special) then trapWith causeILLEGAL 0
  else match predicate t s.q with
    | .error h => .error h
    | .ok on =>
      if !on && !always then .ok (s.modT k (fun x => { x with pc := s.npc t }))
      else match checkSrcs s k t [] srcs with
        | .error h => .error h
        | .ok _ =>
          match checkDsts s t k s.q.td dsts with
          | .error h => .error h
          | .ok _ => body ⟨k, t, s.q, s⟩ (s.issued k t srcs)

/-- An instruction run in the current slot. -/
def State.runIn (s : State) (svc always : Bool) (srcs : List Src) (dsts : List Dst) (body : Cx → State → Res State) :
    Host.Outcome State Fault Refusal :=
  match s.thread s.cur with
  | none => .fault .noThread
  | some t =>
    match s.course s.cur t svc always srcs dsts body with
    | .ok s' => .next s'
    | .error h => .next (s.stopped s.cur t h)

/-- An instruction of every core. -/
def State.run (s : State) (srcs : List Src) (dsts : List Dst) (body : Cx → State → Res State) :
    Host.Outcome State Fault Refusal := s.runIn false false srcs dsts body

/-- An instruction that is illegal as decoded: its trap comes before predication (R50). -/
def State.illegal (s : State) : Host.Outcome State Fault Refusal :=
  match s.thread s.cur with
  | none => .fault .noThread
  | some t => .next (s.stopped s.cur t ⟨.trap causeILLEGAL 0 0, id⟩)

/-! ## Third sources (R46) -/

end Sys2Proof.Machine

namespace Sys2Proof

open Machine

/-- The third source as a register of R22, if it is one. -/
def Op.tx (o : Op) (q : Quals) : List Src :=
  match o.t with
  | .reg r => [.x r.toNat 1 q.tt]
  | .imm _ => []

/-- The third source as a vector register. -/
def Op.tv (o : Op) (q : Quals) : List Src :=
  match o.t with
  | .reg r => [.v r.toNat 1 q.tt]
  | .imm _ => []

/-- The third source as a predicate. -/
def Op.tp (o : Op) (q : Quals) : List Src :=
  match o.t with
  | .reg r => [.p r.toNat 1 q.tt]
  | .imm _ => []

/-- The field numbers of an operand. -/
def Op.dn (o : Op) : Nat := o.d.toNat
/-- The s field. -/
def Op.sn (o : Op) : Nat := o.s.toNat
/-- The register number of the third source; 0 for an immediate. -/
def Op.tn (o : Op) : Nat :=
  match o.t with
  | .reg r => r.toNat
  | .imm _ => 0

/-- s as a register source. -/
def Op.sx (o : Op) (q : Quals) : List Src := [.x o.sn 0 q.ts]
/-- d as a register source. -/
def Op.dx (o : Op) (q : Quals) : List Src := [.x o.dn 2 q.td]

end Sys2Proof

namespace Sys2Proof.Machine

/-- T as a 64-bit value with a sign-extended immediate (R46). -/
def Cx.tval (c : Cx) (o : Op) : DW :=
  match o.t with
  | .reg r => c.get r.toNat (if r.toNat = o.sn then 1 else 0)
  | .imm v => v.signExtend 64

/-- T with a zero-extended immediate. -/
def Cx.tvalZ (c : Cx) (o : Op) : DW :=
  match o.t with
  | .reg r => c.get r.toNat (if r.toNat = o.sn then 1 else 0)
  | .imm v => v.setWidth 64

/-- The value of s. -/
def Cx.sval (c : Cx) (o : Op) : DW := c.get o.sn 0
/-- The value of d. -/
def Cx.dval (c : Cx) (o : Op) : DW := c.get o.dn 0

/-! ## Pushes to engines (R33) -/

/-- The FIFO of a QMAP code. -/
def Thread.fifoOf (t : Thread) (code : Nat) : List DW := t.fifo.toList.getD (code - 1) []

/-- The thread with a FIFO set. -/
def Thread.setFifo (t : Thread) (code : Nat) (l : List DW) : Thread := { t with fifo := t.fifo.setIfInBounds (code - 1) l }

/-- A stop of a command that a push completed (R33): a trap removes the command's doublewords; a park keeps them. -/
def pushStop (k : Key) (code : Nat) (h : Halt) : Halt :=
  match h.stop with
  | .trap _ _ _ => ⟨h.stop, fun s => (h.eff s).modT k (fun t => t.setFifo code [])⟩
  | _ => h

/-- The copy command of three pushed doublewords (R33). -/
def pushedCopy (s : State) (c : Cx) (dst src ctl : Nat) : Res Pend :=
  let mode := bits ctl 1 0
  let rnd := bits ctl 7 5
  if mode = 3 || bits ctl 31 8 != 0 || 6 ≤ rnd || (mode != 0 && bits ctl 7 2 != 0) then trapWith causeBADOPND 0
  else
    let n := bits ctl 63 32
    match mode with
    | 0 => s.issueCopy c.k c.t none dst src n 1 0 0 (bits ctl 4 2) rnd
    | 1 => s.issueCopy c.k c.t (some (dw src, true)) dst 0 n 1 0 0 0 0
    | _ => s.issueCopy c.k c.t (some (dw src, false)) dst 0 n 1 0 0 0 0

/-- The register numbers of what an instruction has taken (R24): items of k registers, records of queues, events; each as often as it took. -/
def Cx.taken (c : Cx) (s : State) : List Nat :=
  match s.thread c.k with
  | none => []
  | some t =>
    let item (x : Thread) (i : Nat) : Bool := ((x.kb i).bind (·.item)).isSome
    ((List.range 64).filter (fun n => isK n && item c.t (kIndex n) && !item t (kIndex n))) ++
    ((List.range 4).flatMap (fun i => List.replicate ((c.t.queue i).length - (t.queue i).length) (28 + i))) ++
    List.replicate ((c.s.core (coreOf c.k)).evq.length - (s.core (coreOf c.k)).evq.length) 56

/-- The state with what an instruction has taken put back, to be taken when the command it issued is accepted: a trap leaves it where it was
(R24, R33). -/
def Cx.putBack (c : Cx) (s : State) : State :=
  let l := c.taken s
  (s.modT c.k (fun t => { t with k := c.t.k, q0 := c.t.q0, q1 := c.t.q1, q2 := c.t.q2, q2pos := c.t.q2pos, q3 := c.t.q3, took := l })).modCore
    (coreOf c.k) (fun x => { x with evq := (c.s.core (coreOf c.k)).evq })

/-- What a thread's accepted command takes. -/
def State.takeNow (s : State) (k : Key) (t : Thread) : State :=
  (t.took.foldl (fun s n => consume k s (.x n 0 false)) s).modT k (fun t => { t with took := [] })

/-- The push that completes a command is its issue (R33); one that does not only appends. -/
def State.pushQ (s : State) (c : Cx) (n : Nat) (v : DW) : Res State :=
  let code := c.t.qcode n
  let l := c.t.fifoOf code ++ [v]
  let clear (s : State) : State := s.modT c.k (fun t => t.setFifo code [])
  let guard (r : Res State) : Res State := match r with
    | .ok s => .ok s
    | .error h => .error (pushStop c.k code h)
  match code, l with
  | 1, [dst, src, ctl] => guard (do
      let p ← pushedCopy c.s c dst.toNat src.toNat ctl.toNat
      pure ((clear (c.putBack s)).holdPend c.k c.t.pc p .copyAccept .copyAccept))
  | 3, [h, data, tag] => guard (do
      let (cl, bi, b) ← c.s.checkBrim c.t h.toNat
      require (!b.isV && tag != noMeta)
      pure (((clear s).brimArrive cl bi (.item ⟨data.setWidth 512, tag⟩)).brimReap cl bi))
  | 4, [desc, q] => guard (do
      require (q.toNat < 1024)
      let p ← c.s.osendCheck c.k c.t (desc.toNat % 2 ^ 56) q.toNat
      (clear s).osendGo c.k c.t p none)
  | _, _ => .ok (s.modT c.k (fun t => t.setFifo code l))

/-- A value written to msg (R25): the message is sent once its header and N further doublewords are written. -/
def State.writeMsg (s : State) (c : Cx) (v : DW) : State :=
  let core := coreOf c.k
  let l := (s.core core).msgOut ++ [v]
  let full := bits (l.headD 0).toNat 51 48 + 1 ≤ l.length
  let s := s.modCore core (fun x => { x with msgOut := l, msgBusy := full })
  if !full then s
  else match bits (l.headD 0).toNat 63 56 with
    | 1 => s.push .mapMessage (.n1 core)
    | 2 => s.push .declineMessage (.n1 core)
    | 3 => s.push .wakeMessage (.n1 core)
    | 4 => s.push .serviceResponse (.n1 core)
    | _ => s.modCore core (fun x => { x with msgOut := [], msgBusy := false })

/-! ## Results -/

/-- The item that a k destination offers (R276). -/
def Cx.offerItem (c : Cx) (v : DW) : Item := ⟨v.setWidth 512, c.t.pmeta⟩

/-- The result of an instruction of four cycles offered at the port of a k register (R276): the operation stands from issue, and the offer
leaves four cycles on, with that cycle's clock (R289). -/
def State.offerLater (s : State) (c : Cx) (n : Nat) (b : Binding) (v : DW) : State :=
  let s := s.startOp b.port (coreOf c.k) c.t.limit (.offer (c.offerItem v) false) .none false false
  State.at { s with nextId := s.nextId + 1, owed := s.owed ++ [⟨s.nextId, c.k, [], some (.kreg (kIndex n), v), 0, false, false, none⟩] }
    (s.cycle + 4) .owedResultWrite (.n1 s.nextId)

/-- A result written to a register of R22 (R23, R25, R33, R276). -/
def State.putX (s : State) (c : Cx) (n : Nat) (v : DW) : Res State :=
  if n < 24 then .ok (s.modT c.k (fun t => t.setG n v))
  else if isK n then
    match c.t.kb (kIndex n) with
    | some b => .ok (s.offerLater c n b v)
    | none => .ok s
  else if isQdst n then s.pushQ c n v
  else .ok (s.writeMsg c v)

/-- A result owed (R23): register writes, FMODE flags, and whether the instruction can set any; the write is due. -/
def State.owe (s : State) (k : Key) (ws : List (RegRef × VReg)) (out : Option (OutDest × DW)) (fl : BitVec 5) (fp acq : Bool) :
    State :=
  let o : Owed := ⟨s.nextId, k, ws, out, fl, fp, acq, none⟩
  ({ s with nextId := s.nextId + 1, owed := s.owed ++ [o] }.modT k (fun t => ws.foldl (fun (t : Thread) (w : RegRef × VReg) => t.oweReg w.1) t)).push
    .owedResultWrite (.n1 s.nextId)

/-- A result owed to a register of R22: an offer stands from issue and leaves with the result (R276); a push is made at issue
(log 20). -/
def State.oweX (s : State) (c : Cx) (n : Nat) (v : DW) (fl : BitVec 5) (fp acq : Bool) : Res State :=
  if n < 24 then .ok (s.owe c.k [(.g n, v.setWidth 512)] none fl fp acq)
  else if isK n then
    match c.t.kb (kIndex n) with
    | some b =>
      .ok ((s.startOp b.port (coreOf c.k) c.t.limit (.offer (c.offerItem v) false) .none false false).owe c.k []
        (some (.kreg (kIndex n), v)) fl fp acq)
    | none => .ok s
  else do
    let s ← s.putX c n v
    pure (if fp then s.owe c.k [] none fl fp acq else s)

/-- The state with the current slot's thread changed, in a body. -/
def State.onT (s : State) (c : Cx) (f : Thread → Thread) : State := s.modT c.k f

end Sys2Proof.Machine
end

