-- ==== Sys2Proof/Machine/Scalar.lean ====
section
/-! DEFINITION. Scalar integer arithmetic, logic, moves, bit operations, compares, selection and predicates (04_scalar R62 to
R67). -/

namespace Sys2Proof.Machine

/-- What a meaning answers. -/
abbrev Out := Host.Outcome State Fault Refusal

/-! ## Shapes -/

/-- gd := f(gs, T), visible at 4 cycles (R62, R64, R78). -/
def State.alu (s : State) (o : Op) (f : DW → DW → DW) : Out :=
  s.run (o.sx s.q ++ o.tx s.q) [.x o.dn] (fun c s => s.putX c o.dn (f (c.sval o) (c.tval o)))

/-- gd := f(gs, T), owed (R63, R78). -/
def State.aluOwed (s : State) (o : Op) (f : DW → DW → DW) : Out :=
  s.run (o.sx s.q ++ o.tx s.q) [.x o.dn] (fun c s => s.oweX c o.dn (f (c.sval o) (c.tval o)) 0 false false)

/-- gd := f(gs) (R62, R64). -/
def State.alu1 (s : State) (o : Op) (f : DW → DW) : Out :=
  s.run (o.sx s.q) [.x o.dn] (fun c s => s.putX c o.dn (f (c.sval o)))

/-- gd := f(gd, imm) of an FI instruction (R62). -/
def State.aluImm (s : State) (o : OpI) (f : DW → DW → DW) : Out :=
  s.run [.x o.d.toNat 2 s.q.td] [.x o.d.toNat]
    (fun c s => s.putX c o.d.toNat (f (c.get o.d.toNat 0) (o.imm.signExtend 64)))

/-- pd := f(gs, T) (R65). -/
def State.cmp (s : State) (o : Op) (f : DW → DW → Bool) : Out :=
  s.run (o.sx s.q ++ o.tx s.q) [.p o.dn]
    (fun c s => .ok (s.onT c (fun t => t.setP o.dn (f (c.sval o) (c.tval o)))))

/-- pd := f(ps, pt) (R67); without a REG halfword pt reads as 0. -/
def State.predOp (s : State) (o : Op) (f : Bool → Bool → Bool) : Out :=
  s.run (.p o.sn 0 s.q.ts :: o.tp s.q) [.p o.dn]
    (fun c s => .ok (s.onT c (fun t => t.setP o.dn (f (c.t.pv o.sn) (o.t.isReg && c.t.pv o.tn)))))

/-! ## Arithmetic, logic, shifts and moves (R62) -/

/-- A shift amount: bits 5:0. -/
def amount (t : DW) : Nat := t.toNat % 64

/-- ADD. -/
def execAdd (o : Op) (s : State) : Out := s.alu o (fun a t => a + t)
/-- SUB. -/
def execSub (o : Op) (s : State) : Out := s.alu o (fun a t => a - t)
/-- ADDI. -/
def execAddi (o : OpI) (s : State) : Out := s.aluImm o (fun a t => a + t)
/-- AND. -/
def execAnd (o : Op) (s : State) : Out := s.alu o (fun a t => a &&& t)
/-- OR. -/
def execOr (o : Op) (s : State) : Out := s.alu o (fun a t => a ||| t)
/-- XOR. -/
def execXor (o : Op) (s : State) : Out := s.alu o (fun a t => a ^^^ t)
/-- ANDN. -/
def execAndn (o : Op) (s : State) : Out := s.alu o (fun a t => a &&& ~~~t)
/-- SHL. -/
def execShl (o : Op) (s : State) : Out := s.alu o (fun a t => a <<< amount t)
/-- SHR. -/
def execShr (o : Op) (s : State) : Out := s.alu o (fun a t => a >>> amount t)
/-- SAR. -/
def execSar (o : Op) (s : State) : Out := s.alu o (fun a t => a.sshiftRight (amount t))
/-- SHLI. -/
def execShli (o : OpI) (s : State) : Out := s.aluImm o (fun a t => a <<< amount t)
/-- SHRI. -/
def execShri (o : OpI) (s : State) : Out := s.aluImm o (fun a t => a >>> amount t)
/-- SARI. -/
def execSari (o : OpI) (s : State) : Out := s.aluImm o (fun a t => a.sshiftRight (amount t))
/-- MOV. -/
def execMov (o : Op) (s : State) : Out := s.alu1 o (fun a => a)
/-- LI: no source is read. -/
def execLi (o : OpI) (s : State) : Out :=
  s.run [] [.x o.d.toNat] (fun c s => s.putX c o.d.toNat (o.imm.signExtend 64))
/-- LEA. -/
def execLea (o : Op) (s : State) : Out := s.alu o (fun a t => a + t <<< o.scale.toNat)

/-! ## Multiplication and division (R63) -/

/-- Quotient and remainder of R63. -/
def divRem (signed : Bool) (a t : DW) : DW × DW :=
  if t = 0 then (BitVec.allOnes 64, a)
  else if signed then
    if a = 0x8000000000000000 ∧ t = BitVec.allOnes 64 then (a, 0)
    else
      let q := BitVec.ofInt 64 (a.toInt.tdiv t.toInt)
      (q, a - q * t)
  else (dw (a.toNat / t.toNat), dw (a.toNat % t.toNat))

/-- MUL. -/
def execMul (o : Op) (s : State) : Out := s.aluOwed o (fun a t => a * t)
/-- MULH. -/
def execMulh (o : Op) (s : State) : Out := s.aluOwed o (fun a t => BitVec.ofInt 64 (a.toInt * t.toInt / 2 ^ 64))
/-- MULHU. -/
def execMulhu (o : Op) (s : State) : Out := s.aluOwed o (fun a t => dw (a.toNat * t.toNat / 2 ^ 64))
/-- DIV. -/
def execDiv (o : Op) (s : State) : Out := s.aluOwed o (fun a t => (divRem true a t).1)
/-- DIVU. -/
def execDivu (o : Op) (s : State) : Out := s.aluOwed o (fun a t => (divRem false a t).1)
/-- REM. -/
def execRem (o : Op) (s : State) : Out := s.aluOwed o (fun a t => (divRem true a t).2)
/-- REMU. -/
def execRemu (o : Op) (s : State) : Out := s.aluOwed o (fun a t => (divRem false a t).2)

/-! ## Minimum, maximum, bits and extensions (R64) -/

/-- The number of leading zero bits among the low n bits. -/
def clzN (n : Nat) (x : Nat) : Nat := if x = 0 then n else n - 1 - x.log2

/-- The number of trailing zero bits, at most n. -/
def ctzN : Nat → Nat → Nat
  | 0, _ => 0
  | n + 1, x => if x % 2 = 1 then 0 else ctzN n (x / 2) + 1

/-- The number of one bits among the low n bits. -/
def popcN : Nat → Nat → Nat
  | 0, _ => 0
  | n + 1, x => x % 2 + popcN n (x / 2)

/-- A number's low n digits of a base reversed. -/
def revDigits (base : Nat) : Nat → Nat → Nat → Nat
  | 0, _, acc => acc
  | n + 1, x, acc => revDigits base n (x / base) (acc * base + x % base)

/-- The field position and mask of EXT and INS. -/
def fieldOf (t : DW) : Nat × DW :=
  let pos := bits t.toNat 5 0
  let len := min (bits t.toNat 12 6) (64 - pos)
  (pos, dw ((2 ^ len - 1) * 2 ^ pos))

/-- MIN. -/
def execMin (o : Op) (s : State) : Out := s.alu o (fun a t => if a.toInt ≤ t.toInt then a else t)
/-- MAX. -/
def execMax (o : Op) (s : State) : Out := s.alu o (fun a t => if t.toInt ≤ a.toInt then a else t)
/-- MINU. -/
def execMinu (o : Op) (s : State) : Out := s.alu o (fun a t => if a.toNat ≤ t.toNat then a else t)
/-- MAXU. -/
def execMaxu (o : Op) (s : State) : Out := s.alu o (fun a t => if t.toNat ≤ a.toNat then a else t)
/-- CLZ. -/
def execClz (o : Op) (s : State) : Out := s.alu1 o (fun a => dw (clzN 64 a.toNat))
/-- CTZ. -/
def execCtz (o : Op) (s : State) : Out := s.alu1 o (fun a => dw (ctzN 64 a.toNat))
/-- POPC. -/
def execPopc (o : Op) (s : State) : Out := s.alu1 o (fun a => dw (popcN 64 a.toNat))
/-- BREV. -/
def execBrev (o : Op) (s : State) : Out := s.alu1 o (fun a => dw (revDigits 2 64 a.toNat 0))
/-- BSWAP. -/
def execBswap (o : Op) (s : State) : Out := s.alu1 o (fun a => dw (revDigits 256 8 a.toNat 0))
/-- ROL. -/
def execRol (o : Op) (s : State) : Out := s.alu o (fun a t => a.rotateLeft (amount t))
/-- ROR. -/
def execRor (o : Op) (s : State) : Out := s.alu o (fun a t => a.rotateRight (amount t))
/-- EXT. -/
def execExt (o : Op) (s : State) : Out := s.alu o (fun a t => (a &&& (fieldOf t).2) >>> (fieldOf t).1)
/-- INS: gd is read as well. -/
def execIns (o : Op) (s : State) : Out :=
  s.run (o.sx s.q ++ o.tx s.q ++ o.dx s.q) [.x o.dn] (fun c s =>
    let f := fieldOf (c.tval o)
    s.putX c o.dn ((c.dval o &&& ~~~f.2) ||| ((c.sval o <<< f.1) &&& f.2)))
/-- SXB. -/
def execSxb (o : Op) (s : State) : Out := s.alu1 o (fun a => sextTo 8 a.toNat)
/-- SXH. -/
def execSxh (o : Op) (s : State) : Out := s.alu1 o (fun a => sextTo 16 a.toNat)
/-- SXW. -/
def execSxw (o : Op) (s : State) : Out := s.alu1 o (fun a => sextTo 32 a.toNat)
/-- ZXB. -/
def execZxb (o : Op) (s : State) : Out := s.alu1 o (fun a => a &&& 0xFF)
/-- ZXH. -/
def execZxh (o : Op) (s : State) : Out := s.alu1 o (fun a => a &&& 0xFFFF)
/-- ZXW. -/
def execZxw (o : Op) (s : State) : Out := s.alu1 o (fun a => a &&& 0xFFFFFFFF)

/-! ## Compares and selection (R65, R66) -/

/-- CMPEQ. -/
def execCmpeq (o : Op) (s : State) : Out := s.cmp o (fun a t => a == t)
/-- CMPNE. -/
def execCmpne (o : Op) (s : State) : Out := s.cmp o (fun a t => a != t)
/-- CMPLT. -/
def execCmplt (o : Op) (s : State) : Out := s.cmp o (fun a t => decide (a.toInt < t.toInt))
/-- CMPLTU. -/
def execCmpltu (o : Op) (s : State) : Out := s.cmp o (fun a t => decide (a.toNat < t.toNat))
/-- CMPGE. -/
def execCmpge (o : Op) (s : State) : Out := s.cmp o (fun a t => decide (t.toInt ≤ a.toInt))
/-- CMPGEU. -/
def execCmpgeu (o : Op) (s : State) : Out := s.cmp o (fun a t => decide (t.toNat ≤ a.toNat))

/-- SEL (R66): the SRC predicate selects, both sources are checked, and it is never predicated off. -/
def execSel (o : Op) (s : State) : Out :=
  s.runIn false true (o.sx s.q ++ o.tx s.q) [.x o.dn] (fun c s =>
    s.putX c o.dn (if c.t.pv c.q.pred.toNat != c.q.inv then c.sval o else c.tval o))

/-! ## Predicates (R67) -/

/-- p1 to p31 as sources, in ascending order. -/
def allPredSrcs (tie : Bool) : List Src := (List.range 31).map (fun i => .p (i + 1) 0 tie)

/-- p1 to p31 as destinations. -/
def allPredDsts : List Dst := (List.range 31).map (fun i => .p (i + 1))

/-- PAND. -/
def execPand (o : Op) (s : State) : Out := s.predOp o (fun a b => a && b)
/-- POR. -/
def execPor (o : Op) (s : State) : Out := s.predOp o (fun a b => a || b)
/-- PXOR. -/
def execPxor (o : Op) (s : State) : Out := s.predOp o (fun a b => a != b)
/-- PNOT. -/
def execPnot (o : Op) (s : State) : Out := s.predOp o (fun a _ => !a)

/-- PMOVG: one predicate, or with s = 0 the predicate word. -/
def execPmovg (o : Op) (s : State) : Out :=
  if o.sn = 0 then
    s.run (allPredSrcs s.q.ts) [.x o.dn] (fun c s => s.putX c o.dn (dw (predWord c.t.p)))
  else s.run [.p o.sn 0 s.q.ts] [.x o.dn] (fun c s => s.putX c o.dn (if c.t.pv o.sn then 1 else 0))

/-- PMOVP: one predicate, or with d = 0 predicate word bits 31:1. -/
def execPmovp (o : Op) (s : State) : Out :=
  if o.dn = 0 then
    s.run (o.sx s.q) allPredDsts (fun c s => .ok (s.onT c (fun t => { t with p := predsFrom (c.sval o).toNat (2 ^ 32 - 1) })))
  else s.run (o.sx s.q) [.p o.dn] (fun c s => .ok (s.onT c (fun t => t.setP o.dn (c.sval o != 0))))

end Sys2Proof.Machine
end

