-- ==== Sys2Proof/Machine/ScalarFp.lean ====
section
/-! DEFINITION. Scalar floating point (04_scalar R72 to R76). -/

namespace Sys2Proof.Machine

/-- The format of an instruction's element type. -/
def opFmt (o : Op) : Fmt := fmtOfEt o.et.toNat

/-- gd := ROUND(f(mode, gs, gt)), owed, its flags ORed in when it is written (R71, R73). -/
def State.fpOp (s : State) (o : Op) (f : RMode → Exact → Exact → Exact × Flags) : Out :=
  s.run (o.sx s.q ++ o.tx s.q) [.x o.dn] (fun c s =>
    let md := c.t.mode o.rnd.toNat
    let fm := opFmt o
    let r := finishOp fm md (f md (fm.decode (c.sval o).toNat) (fm.decode (c.tval o).toNat))
    s.oweX c o.dn (dw r.1) r.2 true false)

/-- FADD. -/
def execFadd (o : Op) (s : State) : Out := s.fpOp o (fun md a b => a.add md b)
/-- FSUB. -/
def execFsub (o : Op) (s : State) : Out := s.fpOp o (fun md a b => a.add md b.neg)
/-- FMUL. -/
def execFmul (o : Op) (s : State) : Out := s.fpOp o (fun _ a b => a.mul b)
/-- FDIV. -/
def execFdiv (o : Op) (s : State) : Out := s.fpOp o (fun _ a b => a.div b)
/-- FSQRT. -/
def execFsqrt (o : Op) (s : State) : Out := s.fpOp o (fun _ a _ => a.sqrt)

/-- FMA: gd is read as well, and there is one rounding. -/
def execFma (o : Op) (s : State) : Out :=
  s.run (o.sx s.q ++ o.tx s.q ++ o.dx s.q) [.x o.dn] (fun c s =>
    let md := c.t.mode o.rnd.toNat
    let fm := opFmt o
    let r := finishOp fm md (Exact.fma md (fm.decode (c.sval o).toNat) (fm.decode (c.tval o).toNat) (fm.decode (c.dval o).toNat))
    s.oweX c o.dn (dw r.1) r.2 true false)

/-- gd := f(gs, gt) at 4 cycles, with its flags (R74). -/
def State.fpNow (s : State) (o : Op) (f : Nat → Nat → Nat × Flags) : Out :=
  s.run (o.sx s.q ++ o.tx s.q) [.x o.dn] (fun c s =>
    let r := f (c.sval o).toNat (c.tval o).toNat
    (s.onT c (fun t => t.orFlags r.2)).putX c o.dn (dw r.1))

/-- FMIN. -/
def execFmin (o : Op) (s : State) : Out := s.fpNow o (minMaxNum (opFmt o) false)
/-- FMAX. -/
def execFmax (o : Op) (s : State) : Out := s.fpNow o (minMaxNum (opFmt o) true)

/-- pd := f(gs, gt) with its flags (R74). -/
def State.fpCmp (s : State) (o : Op) (f : Nat → Nat → Bool × Flags) : Out :=
  s.run (o.sx s.q ++ o.tx s.q) [.p o.dn] (fun c s =>
    let r := f (c.sval o).toNat (c.tval o).toNat
    .ok (s.onT c (fun t => (t.orFlags r.2).setP o.dn r.1)))

/-- FCMPEQ. -/
def execFcmpeq (o : Op) (s : State) : Out := s.fpCmp o (fcmpEq (opFmt o))
/-- FCMPLT. -/
def execFcmplt (o : Op) (s : State) : Out := s.fpCmp o (fcmpLt (opFmt o))
/-- FCMPLE. -/
def execFcmple (o : Op) (s : State) : Out := s.fpCmp o (fcmpLe (opFmt o))

/-- A conversion's result as a register value (R72, R75): signed integers sign-extended, everything else zero-extended. -/
def NumTy.widen (t : NumTy) (x : Nat) : DW :=
  match t with
  | .int w => sextTo w x
  | _ => dw x

/-- FCVT (R75): destination and source types come from the conversion code. -/
def execFcvt (o : Op) (s : State) : Out :=
  s.run (o.sx s.q) [.x o.dn] (fun c s =>
    let code := (c.tvalZ o).toNat
    let ty := numTy (bits code 7 4)
    let r := ty.encode (c.t.mode o.rnd.toNat) (c.t.satF8 && ty.narrow) ((numTy (bits code 3 0)).decode (c.sval o).toNat)
    s.oweX c o.dn (ty.widen r.1) r.2 true false)

/-- FCLASS (R76). -/
def execFclass (o : Op) (s : State) : Out := s.alu1 o (fun a => dw (2 ^ fclassBit (opFmt o) a.toNat))

end Sys2Proof.Machine
end

