-- ==== Sys2Proof/Machine/Control.lean ====
section
/-! DEFINITION. Control flow and special registers (04_scalar R68 to R71, 02_machine_state R28 to R32). -/

namespace Sys2Proof.Machine

/-! ## Branches, jumps and calls (R68, R69) -/

/-- A PC-relative target (R40). -/
def relTarget (pc : Addr) (o : OpI) : Addr := pc + 2 * o.imm.signExtend 56

/-- A register target: bits 55:1 and a zero (R40, R68). -/
def regTarget (x : DW) : Addr := x.setWidth 56 &&& ~~~1

/-- The state with the current thread's pc set. -/
def State.goto (s : State) (c : Cx) (pc : Addr) : State := s.onT c (fun t => { t with pc := pc })

/-- BR. -/
def execBr (o : OpI) (s : State) : Out := s.run [] [] (fun c s => .ok (s.goto c (relTarget c.t.pc o)))

/-- A branch if a predicate has a value. -/
def State.branchIf (s : State) (o : OpI) (want : Bool) : Out :=
  s.run [.p o.d.toNat 2 s.q.td] [] (fun c s =>
    .ok (if c.t.pv o.d.toNat == want then s.goto c (relTarget c.t.pc o) else s))

/-- BRP. -/
def execBrp (o : OpI) (s : State) : Out := s.branchIf o true
/-- BRN. -/
def execBrn (o : OpI) (s : State) : Out := s.branchIf o false

/-- JMP. -/
def execJmp (o : Op) (s : State) : Out :=
  s.run (o.sx s.q ++ o.tx s.q) [] (fun c s => .ok (s.goto c (regTarget (c.sval o + c.tval o))))

/-- The return address in g23 (R68). -/
def State.link (s : State) (c : Cx) : State := s.onT c (fun t => t.setG 23 ((c.s.npc c.t).setWidth 64))

/-- CALL. -/
def execCall (o : OpI) (s : State) : Out :=
  s.run [] [.x 23] (fun c s => .ok ((s.link c).goto c (relTarget c.t.pc o)))

/-- CALLR: the sources are read before g23 is written. -/
def execCallr (o : Op) (s : State) : Out :=
  s.run (o.sx s.q ++ o.tx s.q) [.x 23] (fun c s => .ok ((s.link c).goto c (regTarget (c.sval o + c.tval o))))

/-- RET: the s field is 23. -/
def execRet (s : State) : Out :=
  s.run [.x 23 0 s.q.ts] [] (fun c s => .ok (s.goto c (regTarget (c.get 23 0))))

/-- NOP. -/
def execNop (s : State) : Out := s.run [] [] (fun _ s => .ok s)

/-- LOOP (R69). -/
def execLoop (o : OpI) (s : State) : Out :=
  s.run [.x o.d.toNat 2 s.q.td] [.x o.d.toNat] (fun c s => do
    let v := c.get o.d.toNat 0 - 1
    let s ← s.putX c o.d.toNat v
    pure (if v = 0 then s else s.goto c (relTarget c.t.pc o)))

/-! ## Special registers (R28 to R32, R274, R368) -/

/-- The value MOVS returns for a special register (R28, R70); none for a number no rule assigns. -/
def State.special (s : State) (k : Key) (t : Thread) (n : Nat) : Option DW :=
  match n with
  | 0 => some t.ths
  | 1 => some (dw (coordOf k))
  | 2 => some (t.part.setWidth 64)
  | 3 => some (t.domain.setWidth 64)
  | 4 => some (t.fmode.setWidth 64)
  | 5 => some (t.waitlim.setWidth 64)
  | 6 => some (t.retrylim.setWidth 64)
  | 7 => some (dw (s.cycleOf (coreOf k)))
  | 8 => some (dw s.rtime)
  | 9 => some (t.launchid.setWidth 64)
  | 10 => some (t.graphid.setWidth 64)
  | 11 => some (t.trapcause.setWidth 64)
  | 12 => some (t.trappc.setWidth 64)
  | 13 => some (t.trapaddr.setWidth 64)
  | 14 => some (t.uivec.setWidth 64)
  | 15 => some (t.qmap.setWidth 64)
  | 16 => some t.pmeta
  | 17 => some ((s.core (coreOf k)).tvec.setWidth 64)
  | 18 => some ((s.core (coreOf k)).tframe.setWidth 64)
  | _ => none

/-- The v registers as a write of 0 to VLIVE leaves them (R29, R414): zero, full, unmarked. -/
def Thread.clearV (t : Thread) : Thread := { t with v := Vector.replicate 8 (RegCell.zero 512) }

/-- THS as MOVSW writes it (R29): PROG, UIE and VLIVE; 0 in VLIVE clears the v registers. -/
def Thread.writeThs (t : Thread) (v : DW) : Thread :=
  let m : DW := 0x1F00002800
  let t := { t with ths := (t.ths &&& ~~~m) ||| (v &&& m) }
  if v.getLsbD thsVLIVE then t else t.clearV

/-- QMAP as MOVSW writes it (R32): a code from 5 to 15 stores 0. -/
def qmapFrom (v : DW) : BitVec 48 :=
  BitVec.ofNat 48 ((List.range 12).foldr (fun i acc =>
    let x := bits v.toNat (4 * i + 3) (4 * i)
    (if 4 < x then 0 else x) * 16 ^ i + acc) 0)

/-- A special register written (R2, R28): read-only registers stay as they are. -/
def State.putSpecial (s : State) (k : Key) (n : Nat) (v : DW) : State :=
  match n with
  | 0 => s.modT k (fun t => t.writeThs v)
  | 3 => s.modT k (fun t => { t with domain := v.setWidth 12 })
  | 4 => s.modT k (fun t => { t with fmode := fmodeFrom v })
  | 5 => s.modT k (fun t => { t with waitlim := v.setWidth 40 })
  | 6 => s.modT k (fun t => { t with retrylim := v.setWidth 16 })
  | 11 => s.modT k (fun t => { t with trapcause := v.setWidth 16 })
  | 12 => s.modT k (fun t => { t with trappc := v.setWidth 56 })
  | 13 => s.modT k (fun t => { t with trapaddr := v.setWidth 56 })
  | 14 => s.modT k (fun t => { t with uivec := v.setWidth 56 &&& ~~~1 })
  | 15 => s.modT k (fun t => { t with qmap := qmapFrom v })
  | 16 => s.modT k (fun t => { t with pmeta := v })
  | 17 => s.modCore (coreOf k) (fun c => { c with tvec := v.setWidth 56 &&& ~~~1 })
  | 18 => s.modCore (coreOf k) (fun c => { c with tframe := v.setWidth 56 &&& ~~~511 })
  | _ => s

/-- The wait of R71 for FMODE, and of R207 for a write of 0 to VLIVE. -/
def Cx.specialWait (c : Cx) (n : Nat) : Res Unit :=
  if n = 4 && c.s.owed.any (fun o => o.k == c.k && o.fp) then parkOn .owedFlags else .ok ()

/-- MOVS (R70). -/
def execMovs (o : OpI) (s : State) : Out :=
  s.run [] [.x o.d.toNat] (fun c s =>
    match c.s.special c.k c.t o.imm.toNat with
    | none => trapWith causeILLEGAL 0
    | some v => do
      c.specialWait o.imm.toNat
      s.putX c o.d.toNat v)

/-- MOVSW (R70): gd is a source; DOMAIN is writable from service cores only (R2). -/
def execMovsw (o : OpI) (s : State) : Out :=
  s.run [.x o.d.toNat 2 s.q.td] [] (fun c s =>
    let n := o.imm.toNat
    let v := c.get o.d.toNat 0
    if 18 < n || (n = 3 && !isService (coreOf c.k)) then trapWith causeILLEGAL 0
    else do
      c.specialWait n
      if n = 0 && !v.getLsbD thsVLIVE && c.t.owesV then parkOn .owedV
      pure (s.putSpecial c.k n v))

end Sys2Proof.Machine
end

