-- ==== Sys2Proof/Machine/ConfigSpace.lean ====
section
/-! DEFINITION. Configuration space (05_memory_spaces R82): its map, reads, and the checks and effects of writes
(21_isolation R341, R345, R349 to R351, R355, 25_host R398, R399). -/

namespace Sys2Proof.Machine

/-- The registers and tables of R82's map. -/
inductive CfgReg where
  | pkgid | bootstat | sqbase | rlybase | svcbuf
  | part (p i : Nat)
  | dom (n i : Nat)
  | grant (i w : Nat)
  | sendq (q : Nat)
  | eth (e i : Nat)
  | ingress (h i : Nat)
  | ptroot (g : Key)
  | gsched (g : Key)
  | frel (g : Key)
  | wmask (c : Key)
  | wshare (c : Key) (p : Nat)
  | bandbox (d a : Nat)
deriving DecidableEq, Repr

/-- The registers of a die, by offset from the die's base. -/
def dieReg (d x : Nat) : Option CfgReg :=
  if x < 0x1000 then
    let g := d * 16 + x / 0x100
    match x % 0x100 / 8 with
    | 0 => some (.ptroot g)
    | 1 => some (.gsched g)
    | 2 => some (.frel g)
    | _ => none
  else if 0x10000 ≤ x ∧ x < 0x10000 + 0x200 * 64 then
    let c := d * 64 + (x - 0x10000) / 0x200
    let y := (x - 0x10000) % 0x200
    if y = 0 then some (.wmask c) else if 0x100 ≤ y ∧ y < 0x200 then some (.wshare c ((y - 0x100) / 8)) else none
  else if 0x10000000 ≤ x ∧ x < 0x18000000 then some (.bandbox d (x - 0x10000000))
  else none

/-- The register at an offset, a multiple of 8 (R82). -/
def cfgReg (x : Nat) : Option CfgReg :=
  if x = 0 then some .pkgid
  else if x = 8 then some .bootstat
  else if x = 0x10 then some .sqbase
  else if x = 0x18 then some .rlybase
  else if x = 0x20 then some .svcbuf
  else if 0x10000 ≤ x ∧ x < 0x10800 then some (.part ((x - 0x10000) / 64) (x % 64 / 8))
  else if 0x20000 ≤ x ∧ x < 0x30000 then some (.dom ((x - 0x20000) / 16) (x % 16 / 8))
  else if 0x100000 ≤ x ∧ x < 0x108000 then some (.grant ((x - 0x100000) / 32) (x % 32 / 8))
  else if 0x200000 ≤ x ∧ x < 0x202000 then some (.sendq ((x - 0x200000) / 8))
  else if 0x300000 ≤ x ∧ x < 0x301000 then some (.eth ((x - 0x300000) / 16) (x % 16 / 8))
  else if 0x400000 ≤ x ∧ x < 0x401000 then some (.ingress ((x - 0x400000) / 32) (x % 32 / 8))
  else if 2 ^ 44 ≤ x ∧ x < 2 ^ 44 + 2 ^ 43 then dieReg ((x - 2 ^ 44) / 2 ^ 40) (x % 2 ^ 40)
  else none

/-- An ingress channel (R399). -/
def State.ingress (s : State) (h : Nat) : Ingress := (mget s.io.ingress h).getD ⟨none, false, 0, 0, 0, 0, 0, 0, false, []⟩

/-- The state with an ingress channel changed. -/
def State.modIngress (s : State) (h : Nat) (f : Ingress → Ingress) : State :=
  s.modIo (fun io => { io with ingress := mput io.ingress h (f (s.ingress h)) })

/-- A doubleword of a partition's record (R341, R82). -/
def Partition.cfg (p : Partition) (i : Nat) : DW :=
  match i with
  | 0 => p.pcfg
  | 1 => p.pgrp.toList.getD 0 0
  | 2 => p.pgrp.toList.getD 1 0
  | 3 => p.pnext.toList.getD 0 0
  | 4 => p.pnext.toList.getD 1 0
  | 5 => p.psave
  | _ => 0

/-- A doubleword of an ingress channel (R399). -/
def Ingress.cfg (h : Ingress) (i : Nat) : DW :=
  match i with
  | 0 => dw ((if h.valid then 2 ^ 63 else 0) + h.eq)
  | 1 => dw (h.port * 2 ^ 32 + h.handle.toNat)
  | 2 => dw (h.offered * 2 ^ 48 + h.disc * 2 ^ 32 + (h.held + 1023) / 1024 * 2 ^ 16 + (if h.err then 1 else 0))
  | _ => 0

/-- A byte of a die's Bandbox (R7, R353): as it was written last, by Plynvas or by the tick that put an image into its half. The layout
of an image is not given, so its bytes are free values (log 75); a half that never held one reads 0. -/
def Die.bandByte (x : Die) (a : Nat) : Byte :=
  match mget x.bandbox a with
  | some b => b
  | none => match x.halves.toList.getD (a / 0x4000000) none with
    | some h => Config.imageByte h.2 (a % 0x4000000)
    | none => 0

/-- The value a configuration load returns (R82). A written GSCHED reads as before until it takes effect (log 132). -/
def State.cfgRead (s : State) : CfgReg → DW
  | .pkgid => s.io.pkgid
  | .bootstat => dw (s.io.boot.stage + (if s.io.boot.ready then 8 else 0) + s.io.boot.failImage * 2 ^ 8 + s.io.boot.failSig * 2 ^ 12)
  | .sqbase => s.io.sqbase
  | .rlybase => s.io.rlybase
  | .svcbuf => s.io.svcbuf
  | .part p i => (s.partn p).cfg i
  | .dom n i => let d := (mget s.io.doms n).getD (0, 0); if i = 0 then d.1 else d.2
  | .grant n w =>
    let g := (mget s.io.grants n).getD (0, 0, 0)
    match w with
    | 0 => g.1
    | 1 => g.2.1
    | 2 => g.2.2
    | _ => 0
  | .sendq q => let x := s.sendq q; dw ((if x.valid then 2 ^ 63 else 0) + x.part)
  | .eth e i => if i = 0 then (s.eth e).w0 else (s.eth e).qcb
  | .ingress h i => (s.ingress h).cfg i
  | .ptroot g => (s.group g).ptroot
  | .gsched g => (s.group g).gsched
  | .frel _ => 0
  | .wmask c => (s.cluster c).wmask
  | .wshare c p => ((mget (s.cluster c).wshare p).getD 0).setWidth 64
  | .bandbox d a => dw ((List.range 8).foldr (fun i acc => ((s.die d).bandByte (a + i)).toNat + 256 * acc) 0)

/-- PERIOD of a gang schedule, in microseconds (R351). -/
def gPeriod (v : DW) : Nat := bits v.toNat 63 47
/-- NLAST. -/
def gNlast (v : DW) : Nat := bits v.toNat 41 40
/-- P[i]. -/
def gPart (v : DW) (i : Nat) : Nat := bits v.toNat (24 + 5 * i) (20 + 5 * i)

/-- The partition that a schedule gives a group to at a time (R351). -/
def ownerAt (v : DW) (rtime : Nat) : Nat :=
  if gPeriod v = 0 then gPart v 0 else gPart v (rtime / (gPeriod v * 1000) % (gNlast v + 1))

/-- The partition due on a die at the next tick, by the schedule of its first group that rotates through three or more (R353). -/
def State.dueNext (s : State) (d : Nat) : Option Nat :=
  (((List.range 16).map (fun i => (s.group (d * 16 + i)).gsched)).find? (fun v => 2 ≤ gNlast v && gPeriod v != 0)).map (fun v =>
    ownerAt v ((s.rtime / (gPeriod v * 1000) + 1) * (gPeriod v * 1000)))

/-- A doubleword of a die's Bandbox written (R7). The last doubleword of a half ends the loading of the image due at the next tick
(R353, log 75). -/
def State.bandWrite (s : State) (d a : Nat) (v : DW) : State :=
  let s := s.modDie d (fun x => { x with
    bandbox := (List.range 8).foldl (fun m i => mput m (a + i) (BitVec.ofNat 8 (v.toNat / 256 ^ i))) x.bandbox })
  if a % 0x4000000 / 8 != 0x7FFFFF then s
  else match s.dueNext d with
    | some p => { s with nextId := s.nextId + 1 }.modDie d (fun x => { x with
        halves := x.halves.setIfInBounds (a / 0x4000000) (some (p, s.nextId)) })
    | none => s

/-- Whether a partition is valid. -/
def Partition.valid (p : Partition) : Bool := p.pcfg.getLsbD 63

/-- The refusals of R341, R345 and R351: an exact BADOPND trap of the store. -/
def State.cfgCheck (s : State) (r : CfgReg) (v : DW) : Res Unit :=
  match r with
  | .part p 0 =>
    let dm := if (s.partn p).valid then bits (s.partn p).pcfg.toNat 11 0 else bits v.toNat 11 0
    require (!(v.getLsbD 63 && (List.range 32).any (fun q => q != p && (s.partn q).valid && bits (s.partn q).pcfg.toNat 11 0 == dm)))
  | .gsched g =>
    let n := gNlast v
    require ((n == 0 || (1000 ≤ gPeriod v && gPeriod v ≤ 100000)) &&
      (List.range (n + 1)).all (fun i => s.inPart (gPart v i) g))
  | .wshare c p =>
    let gone := ((mget (s.cluster c).wshare p).getD 0) &&& ~~~(v.setWidth 16)
    let m := (s.cluster c).wmask
    let pend := if m.getLsbD 32 then (m.setWidth 16) ^^^ ((m >>> 16).setWidth 16) else (0 : BitVec 16)
    require ((gone &&& (m.setWidth 16 ||| pend)) == 0)
  | _ => .ok ()

/-- The event in which a configuration store is performed. -/
def CfgReg.event (r : CfgReg) (v : DW) : Instr :=
  match r with
  | .part _ 0 => .pcfgWrite
  | .part _ 1 | .part _ 2 => .pgrpWrite
  | .part _ 3 | .part _ 4 => .pnextWrite
  | .gsched _ => .gschedWrite
  | .wshare _ _ => .wshareWrite
  | .frel _ => .frelWrite
  | .ingress _ 0 => if v.getLsbD 63 then .ingressBind else .ingressUnbind
  | _ => .configWrite

/-- A doubleword masked to the bits of its fields (R3). -/
def keep (v : DW) (h l : Nat) : DW := v &&& dw ((2 ^ (h + 1 - l) - 1) * 2 ^ l)

/-- A register without behaviour of its own written (R82): reserved bits stay zero, read-only fields as they are. -/
def State.cfgWrite (s : State) (r : CfgReg) (v : DW) : State :=
  match r with
  | .pkgid => s.modIo (fun io => { io with pkgid := keep v 11 0 })
  | .sqbase => s.modIo (fun io => { io with sqbase := keep v 55 32 })
  | .rlybase => s.modIo (fun io => { io with rlybase := keep v 55 30 ||| keep v 7 0 })
  | .svcbuf => s.modIo (fun io => { io with svcbuf := keep v 55 24 })
  | .part p 5 => s.modPart p (fun x => { x with psave := keep v 55 20 })
  | .dom n i =>
    let d := (mget s.io.doms n).getD (0, 0)
    s.modIo (fun io => { io with doms := mput io.doms n (if i = 0 then (keep v 55 4, d.2) else (d.1, keep v 10 0)) })
  | .grant n w =>
    let g := (mget s.io.grants n).getD (0, 0, 0)
    let g' := match w with
      | 0 => (keep v 63 63 ||| keep v 43 22 ||| keep v 9 0, g.2)
      | 1 => (g.1, keep v 55 0, g.2.2)
      | 2 => (g.1, g.2.1, keep v 55 0)
      | _ => g
    s.modIo (fun io => { io with grants := mput io.grants n g' })
  | .sendq q => s.modSendq q (fun x => { x with
      valid := v.getLsbD 63, part := bits v.toNat 4 0, next := if v.getLsbD 63 then 0 else x.next })
  | .eth e i => s.modEth e (fun x => if i = 0 then { x with w0 := keep v 63 63 ||| keep v 10 8 ||| keep v 4 0 }
      else { x with qcb := keep v 55 6, staken := 0, rtaken := 0, posted := [] })
  | .ingress h 1 => s.modIngress h (fun x => { x with port := bits v.toNat 41 32, handle := v.setWidth 32 })
  | .ptroot g => s.modGroup g (fun x => { x with ptroot := keep v 31 11 })
  | .bandbox d a => s.bandWrite d a v
  | _ => s

/-- The check of a configuration access (R82): the width, the map. -/
def cfgAt (va n : Nat) : Res CfgReg :=
  if n != 8 || va % 8 != 0 then trapWith causeMISALIGN va
  else match cfgReg (va % 2 ^ 48) with
    | none => trapWith causeBADADDR va
    | some r => .ok r

end Sys2Proof.Machine
end

