-- ==== Sys2Proof/Machine/Memory.lean ====
section
/-! DEFINITION. Loads, stores, full/empty instructions, acquire, release and posted stores, multi-register transfers, atomics,
fences, watches and the user completion handler (07_memory_instructions R114 to R132, R138 to R140, 14_scheduling R248). -/

namespace Sys2Proof.Machine

/-! ## Addresses, access and migration -/

/-- a = (gs + T)[55:0] (R114). -/
def Cx.eaddr (c : Cx) (o : Op) : Nat := (c.sval o + c.tval o).toNat % 2 ^ 56

/-- a = gs[55:0] (R114). -/
def Cx.base (c : Cx) (o : Op) : Nat := (c.sval o).toNat % 2 ^ 56

/-- Later memory instructions park while an acquire is outstanding (R102). -/
def Cx.afterAcquire (c : Cx) : Res Unit := if c.s.acquiring c.k c.t then parkOn .acquire else .ok ()

/-- ACCESS of a memory instruction (R115), then the wait of R102. -/
def Cx.access (c : Cx) (va n al : Nat) (rt : Right) (late : Bool) : Res Place := do
  let p ← c.s.access c.k c.t va n al rt late
  c.afterAcquire
  pure p

/-- Where a load or store goes that passed its checks: memory, or a register of configuration space (R82). -/
inductive Spot where
  | mem (p : Place)
  | cfg (r : CfgReg)

/-- ACCESS of a load or store (R115), which on a service core also reaches configuration space (R82), through the PLB as everything else
does (R81). -/
def Cx.spotAt (c : Cx) (va n al : Nat) (rt : Right) (late : Bool) : Res Spot :=
  if regionOf va = 0xF1 && isService (coreOf c.k) then
    match c.s.addrTrap c.t.partN true va n al with
    | some x => trapWith x va
    | none =>
      match cfgAt va n, c.s.plb c.k c.t.domN va n rt with
      | .error h, _ => .error h
      | _, .error h => .error h
      | .ok r, .ok _ => .ok (.cfg r)
  else match c.s.access c.k c.t va n al rt late with
    | .error h => .error h
    | .ok p => .ok (.mem p)

/-- The same, then the wait of R102. -/
def Cx.spot (c : Cx) (va n al : Nat) (rt : Right) (late : Bool) : Res Spot := do
  let x ← c.spotAt va n al rt late
  c.afterAcquire
  pure x

/-- A doubleword stored to a register of configuration space (R82). -/
def State.cfgStore (s : State) (c : Cx) (r : CfgReg) (va : Nat) (v : DW) : State :=
  (s.usePlb (coreOf c.k) c.t.domN va 8).push (r.event v) (.val c.k (va % 2 ^ 48) v)

/-- The PLB entry of an access is used (R344), and its frame claimed if no switch refuses it (R349). -/
def State.claimFor (s : State) (c : Cx) (p : Place) : State :=
  let s := s.usePlb (coreOf c.k) c.t.domN p.va 1
  if p.refuse.isSome then s else s.claim c.t.domN p.loc

/-- Whether a thread of a slot may migrate (R20, R131, R137, R158, R219, R221, R262, R290, R329, R374, R414). -/
def State.migratable (s : State) (k : Key) (t : Thread) : Bool :=
  !t.thsBit thsVLIVE && !t.thsBit thsUIE && !t.thsBit thsINTRAP && !t.thsBit thsUIACT && t.qmap == 0 && t.uivec == 0 &&
  t.pmeta == 0 && t.fifo.toList.all List.isEmpty && !t.anyMark && t.watch == .none && t.lease == .none &&
  t.q0.isEmpty && t.q1.isEmpty && t.q2.isEmpty && t.q3.isEmpty && t.k.toList.all Option.isNone && t.tgt.toList.all Option.isNone &&
  !((s.core (coreOf k)).journal.any (fun e => e.2.tid == t.tid)) &&
  !(s.clusters.any (fun c => c.2.copyq.any (fun x => x.tid == t.tid) || c.2.brim.any (fun r => match r.2.b with
    | some b => b.tid == t.tid
    | none => false))) &&
  !(s.groups.any (fun g => g.2.plank.queue.any (fun x => x.tid == t.tid))) &&
  !(s.io.sendqs.any (fun q => q.2.msgs.any (fun m => m.tid == t.tid)))

/-- The free slots of a core, ascending: no thread and no reservation (R245, R248). -/
def State.freeSlots (s : State) (core : Key) : List Key :=
  if s.coreStopped core || s.io.retired.contains (.core core) then []
  else ((List.range (if isService core then 1 else 8)).map (fun i => core * 8 + i)).filter (fun k =>
    (s.thread k).isNone && !(s.cluster (clusterOf core)).resSlots.contains k)

/-- The lowest-numbered free slot of the lowest-numbered core of a cluster with one (R245, order 2). -/
def State.clusterSlot (s : State) (cl : Key) : Option Key :=
  (List.range 16).findSome? (fun i => (s.freeSlots (coreInCluster cl i)).head?)

/-- Whether a cluster can reserve a slot or an inbox entry (R248, step 1). -/
def State.canReserve (s : State) (part : Nat) (cl : Key) : Bool :=
  s.residentOn part (groupOfCluster cl) && s.joined (dieOfCluster cl) &&
  ((s.clusterSlot cl).isSome || (s.cluster cl).inbox.length + (s.cluster cl).resInbox < 16)

/-- The accesses of R248 move a thread in migration mode to a home on another compute die, if it may go and is taken. -/
def Cx.movesTo (c : Cx) (loc : Nat) : Res Unit :=
  let cl := homeCluster loc
  if c.t.thsBit thsMIGR && !isService (coreOf c.k) && homeDie loc != dieOfCore (coreOf c.k) && c.s.migratable c.k c.t &&
      c.s.canReserve c.t.partN cl then
    .error ⟨.park (.migrate cl), fun s => s.push .migrationReservation (.n2 c.k cl)⟩
  else .ok ()

/-- A request of the current instruction sent, with the register it owes. -/
def State.request (s : State) (c : Cx) (kind : ReqKind) (ps : List Piece) (rel : Option Scope) (dest : Option RegRef) : State :=
  let s := (s.send c.k c.t kind ps rel (c.s.npc c.t)).2
  match dest with
  | some r => s.onT c (fun t => t.oweReg r)
  | none => s

/-- A read sent: a word with an uncorrectable error, unless an engine still owns it, traps as the instruction issues, its
destination left empty (R115, R392; log 28). -/
def State.requestRead (s : State) (c : Cx) (kind : ReqKind) (ps : List Piece) (rel : Option Scope) (dest : RegRef) : Res State :=
  match ps.findSome? (fun p => if p.n = 0 || c.s.ownedBusy c.t.domN p.va p.n .anyone then none
      else (c.s.mem.badWord p.loc p.n).map (fun w => p.va + 8 * w - p.loc)) with
  | some va => .error ⟨.trap causeMEMERR va 0, fun s => s.modT c.k (fun t => t.emptyReg dest)⟩
  | none => .ok (s.request c kind ps rel (some dest))

/-- The scope of an etype code (R47), 0 being the default. -/
def scopeOf (et : Nat) (dflt : Scope) : Scope :=
  match et with
  | 1 => .thread
  | 2 => .core
  | 3 => .cluster
  | 4 => .die
  | 5 => .package
  | 6 => .system
  | _ => dflt

/-! ## Plain loads and stores (R116, R117) -/

/-- Whether a posted store or an accumulation of the thread to these bytes is not yet performed (R124, R206). -/
def Cx.posting (c : Cx) (va n : Nat) : Bool :=
  c.s.reqs.any (fun r => r.tid == c.t.tid && (match r.kind with
    | .stp _ => r.pieces.any (fun p => meets (p.va / 8 * 8) 8 va n)
    | .acc _ | .accz => r.pieces.any (fun p => meets p.va p.n va n)
    | _ => false))

/-- A read whose value is fixed in its core (R97): a request that needs nothing more than to return. -/
def State.answered (s : State) (c : Cx) (kind : ReqKind) (ps : List Piece) (dest : RegRef) (v : Nat) : State :=
  (s.request c kind ps none (some dest)).modReq s.nextId (fun r => { r with
    left := true, here := true, fin := some (.ok (BitVec.ofNat 512 v) 0) })

/-- The number of a thread's last request to some bytes that is not performed yet, 0 for none: its later reads there come after it (R99). -/
def State.lastOwn (s : State) (t : Thread) (ps : List Piece) : Nat :=
  (s.reqs.filter (fun r => r.tid == t.tid && r.fin.isNone && piecesMeet r.pieces ps)).foldl (fun m r => max m r.id) 0

/-- What a core's data cache answers a read of a line with a home on its die, once the die's clock is known there (R97, R98, R106). -/
def State.cacheHit (s : State) (c : Cx) (va loc n : Nat) : Option Nat :=
  let d := dieOfCore (coreOf c.k)
  if homeDie loc != d || !(s.behind d (s.clockOf d)).isEmpty || s.ownedBusy c.t.domN va n .anyone then none
  else s.dRead (coreOf c.k) c.t.domN va n

/-- One load to a register, its access being checked (R97, R99, R100): taken from the youngest covering store of the core's buffer, if `buf`
says that the load reads it; waiting for stores that cover it in part; from the core's data cache; or from its home. -/
def State.loadReg (s : State) (c : Cx) (va n : Nat) (p : Place) (kind : ReqKind) (dest : RegRef) (buf : Bool) : Res State :=
  if c.posting va n then parkOn (.loc (addr va) n)
  else
    let s := s.claimFor c p
    let ps : List Piece := [⟨va, p.loc, n, 0⟩]
    let m := s.lastOwn c.t ps
    match c.s.forward c.k p.loc n, if m = 0 then s.cacheHit c va p.loc n else none with
    | .hit id _ v, _ =>
      if buf && m < id then .ok ((s.answered c kind ps dest v).seenBy (coreOf c.k) id c.t.tid) else s.requestRead c kind ps none dest
    | .wait, _ => if buf then parkOn (.loc (addr va) n) else s.requestRead c kind ps none dest
    | .none, some v => .ok ((s.answered c kind ps dest v).dUse (coreOf c.k) c.t.domN va)
    | .none, none => s.requestRead c kind ps none dest

/-- A doubleword loaded from a register of configuration space (R82). -/
def State.cfgLoad (s : State) (c : Cx) (r : CfgReg) (va d : Nat) (acq : Bool) : State :=
  (s.usePlb (coreOf c.k) c.t.domN va 8).owe c.k [(.g d, (c.s.cfgRead r).setWidth 512)] none 0 false acq

/-- A plain load (R116); on a service core also of configuration space (R82). -/
def State.plainLoad (s : State) (o : Op) (n : Nat) (signed : Bool) : Out :=
  s.run (o.sx s.q ++ o.tx s.q) [.x o.dn] (fun c s =>
    let va := c.eaddr o
    match c.spot va n n .rd false with
    | .error h => .error h
    | .ok (.cfg r) => .ok (s.cfgLoad c r va o.dn false)
    | .ok (.mem p) => do
      c.movesTo p.loc
      s.loadReg c va n p (.load o.dn n signed false) (.g o.dn) true)

/-- LDB. -/
def execLdb (o : Op) (s : State) : Out := s.plainLoad o 1 true
/-- LDBU. -/
def execLdbu (o : Op) (s : State) : Out := s.plainLoad o 1 false
/-- LDH. -/
def execLdh (o : Op) (s : State) : Out := s.plainLoad o 2 true
/-- LDHU. -/
def execLdhu (o : Op) (s : State) : Out := s.plainLoad o 2 false
/-- LDW. -/
def execLdw (o : Op) (s : State) : Out := s.plainLoad o 4 true
/-- LDWU. -/
def execLdwu (o : Op) (s : State) : Out := s.plainLoad o 4 false
/-- LDD. -/
def execLdd (o : Op) (s : State) : Out := s.plainLoad o 8 false

/-- A plain store (R117) through the store buffer; on a service core also to configuration space (R82). -/
def State.plainStore (s : State) (o : Op) (n : Nat) : Out :=
  s.run (o.sx s.q ++ o.tx s.q ++ o.dx s.q) [] (fun c s =>
    let va := c.eaddr o
    let v := c.dval o
    match c.spot va n n .wr true with
    | .error h => .error h
    | .ok (.cfg r) => do
      c.s.cfgCheck r v
      pure (s.cfgStore c r va v)
    | .ok (.mem p) => do
      if !c.s.bufferRoom c.k 1 then parkOn (.storeBuffer 1)
      pure ((s.claimFor c p).buffer c.k c.t [⟨va, p.loc, n, v.setWidth 512⟩] p.refuse))

/-- STB. -/
def execStb (o : Op) (s : State) : Out := s.plainStore o 1
/-- STH. -/
def execSth (o : Op) (s : State) : Out := s.plainStore o 2
/-- STW. -/
def execStw (o : Op) (s : State) : Out := s.plainStore o 4
/-- STD. -/
def execStd (o : Op) (s : State) : Out := s.plainStore o 8

/-! ## Full/empty instructions (R119 to R122) -/

/-- Whether a synchronising access reads (R119). -/
def Sop.loads (op : Sop) : Bool := op == .ldfe || op == .ldff

/-- The rights of a synchronising access (R344). -/
def Sop.right (op : Sop) : Right :=
  match op with
  | .ldfe => .rw
  | .ldff => .rd
  | _ => .wr

/-- A synchronising access issued (R119): it holds its thread, whose pc stays here until the access is performed. -/
def State.sync (s : State) (o : Op) (op : Sop) : Out :=
  s.run (o.sx s.q ++ o.tx s.q ++ (if op.loads then [] else o.dx s.q)) (if op.loads then [.x o.dn] else []) (fun c s => do
    let va := c.eaddr o
    let p ← c.access va 8 8 op.right false
    if op.loads then c.movesTo p.loc
    let s := s.claimFor c p
    let rel := if op.loads then none else some (scopeOf o.et.toNat .cluster)
    let data := if op.loads then 0 else c.dval o
    let id := s.nextId
    let near := nearSlice (coreOf c.k) (homeCluster p.loc)
    let s := s.request c (.sync op o.dn data (near && c.t.retrylim == 0)) [⟨va, p.loc, 8, data.setWidth 512⟩] rel (if op.loads then some (.g o.dn) else none)
    pure (((s.goto c c.t.pc).onT c (fun t => { t with tries := 0 })).parkThread c.k (.sync id) (!near)))

/-- LDFE. -/
def execLdfe (o : Op) (s : State) : Out := s.sync o .ldfe
/-- LDFF. -/
def execLdff (o : Op) (s : State) : Out := s.sync o .ldff
/-- STEF. -/
def execStef (o : Op) (s : State) : Out := s.sync o .stef
/-- STFF. -/
def execStff (o : Op) (s : State) : Out := s.sync o .stff

/-- SETE (R122). -/
def execSete (o : Op) (s : State) : Out :=
  s.run (o.sx s.q ++ o.tx s.q) [] (fun c s => do
    let va := c.eaddr o
    let p ← c.access va 8 8 .wr false
    pure ((s.claimFor c p).request c .sete [⟨va, p.loc, 8, 0⟩] (some (scopeOf o.et.toNat .cluster)) none))

/-- PROBE (R122). -/
def execProbe (o : Op) (s : State) : Out :=
  s.run (o.sx s.q ++ o.tx s.q) [.p o.dn] (fun c s => do
    let va := c.eaddr o
    let p ← c.access va 8 8 .rd false
    pure ((s.claimFor c p).request c (.probe o.dn) [⟨va, p.loc, 8, 0⟩] none (some (.p o.dn))))

/-! ## Acquire, release and posted stores (R123, R124) -/

/-- LDA: it does not read the store buffer (R100). -/
def execLda (o : Op) (s : State) : Out :=
  s.run (o.sx s.q ++ o.tx s.q) [.x o.dn] (fun c s =>
    let va := c.eaddr o
    match c.spot va 8 8 .rd false with
    | .error h => .error h
    | .ok (.cfg r) => .ok (s.cfgLoad c r va o.dn true)
    | .ok (.mem p) => do
      c.movesTo p.loc
      s.loadReg c va 8 p (.load o.dn 8 false true) (.g o.dn) false)

/-- STRL; one to configuration space waits in its thread for its release conditions (log 122). -/
def execStrl (o : Op) (s : State) : Out :=
  s.run (o.sx s.q ++ o.tx s.q ++ o.dx s.q) [] (fun c s =>
    let va := c.eaddr o
    let sc := scopeOf o.et.toNat .die
    match c.spot va 8 8 .wr true with
    | .error h => .error h
    | .ok (.cfg r) => do
      c.s.cfgCheck r (c.dval o)
      if !c.s.releasedNow c.k c.t sc then parkOn (.release sc)
      pure (s.cfgStore c r va (c.dval o))
    | .ok (.mem p) =>
      let s := s.claimFor c p
      match p.refuse with
      | some cause => .ok (s.push .storeRefusal (.val c.t.tid cause (dw va)))
      | none => .ok (s.request c .strl [⟨va, p.loc, 8, (c.dval o).setWidth 512⟩] (some sc) none))

/-- A free journal entry of a core (R374): the lowest-numbered. -/
def State.freeEntry (s : State) (core : Key) : Option Nat :=
  lowestFree (fun i => (mget (s.core core).journal i).isSome) 64 0

/-- The write of journal entry j sent, or refused at a switch (R124, R342). -/
def State.post (s : State) (c : Cx) (j va : Nat) (p : Place) (v : DW) : State :=
  match p.refuse with
  | some cause => State.push { s with nextId := s.nextId + 1 } .journalRefusal (.n3 (coreOf c.k) j cause)
  | none => s.request c (.stp j) [⟨va, p.loc, 8, v.setWidth 512⟩] none none

/-- STP; a register of configuration space acknowledges it in the step that performs it, which frees its entry (log 122). -/
def execStp (o : Op) (s : State) : Out :=
  s.run (o.sx s.q ++ o.tx s.q ++ o.dx s.q) [] (fun c s => do
    let va := c.eaddr o
    let x ← c.spot va 8 8 .wr true
    match c.s.freeEntry (coreOf c.k), x with
    | none, _ => parkOn .journal
    | some _, .cfg r =>
      c.s.cfgCheck r (c.dval o)
      pure (s.cfgStore c r va (c.dval o))
    | some j, .mem p =>
      let e : JEnt := ⟨c.k, c.t.tid, c.t.domN, p.loc, s.nextId, p.refuse.isNone, c.t.partN, c.t.launchid, addr va, c.dval o, .pending, none⟩
      let s := s.modCore (coreOf c.k) (fun x => { x with journal := mput x.journal j e })
      pure ((s.claimFor c p).post c j va p (c.dval o)))

/-! ## Multi-register transfers (R125, R126) -/

/-- The check of word i of an LDM or STM: its place, or the stop there. `v` is the value that an STM stores. -/
def Cx.wordAt (c : Cx) (a i : Nat) (rt : Right) (late : Bool) (v : DW) : Res Spot :=
  let va := (a + 8 * i) % 2 ^ 56
  match c.spotAt va 8 (if i = 0 then 8 else 1) rt late with
  | .error h => .error h
  | .ok (.cfg r) =>
    match if rt == .wr then c.s.cfgCheck r v else .ok () with
    | .error h => .error h
    | .ok _ => .ok (.cfg r)
  | .ok (.mem p) =>
    if rt == .rd && !c.s.ownedBusy c.t.domN va 8 .anyone then
      match c.s.mem.badWord p.loc 8 with
      | some w => trapWith causeMEMERR (va + 8 * w - p.loc)
      | none => .ok (.mem p)
    else .ok (.mem p)

/-- The places of words i to i + m - 1, up to the first that stops; d is the first register. -/
def Cx.words (c : Cx) (a d : Nat) (rt : Right) (late : Bool) : Nat → Nat → List (Nat × Spot) × Option (Nat × Halt)
  | 0, _ => ([], none)
  | m + 1, i =>
    match c.wordAt a i rt late (c.t.gv (d + i)) with
    | .error h => ([], some (i, h))
    | .ok p =>
      let r := c.words a d rt late m (i + 1)
      ((i, p) :: r.1, r.2)

/-- Whether a stop abandons the whole instruction, as every park does. -/
def Halt.isPark (h : Halt) : Bool :=
  match h.stop with
  | .park _ => true
  | _ => false

/-- The load of one word of an LDM of n words (R125). -/
def State.ldmWord (s : State) (c : Cx) (a d n i : Nat) : Spot → Res State
  | .mem p => s.loadReg c ((a + 8 * i) % 2 ^ 56) 8 p (.ldm (d + i) i n) (.g (d + i)) true
  | .cfg r => .ok (s.answered c (.ldm (d + i) i n) [] (.g (d + i)) (c.s.cfgRead r).toNat)

/-- The loads of the words of an LDM (R125). -/
def State.ldmWords (c : Cx) (a d n : Nat) : State → List (Nat × Spot) → Res State
  | s, [] => .ok s
  | s, (i, p) :: l =>
    match s.ldmWord c a d n i p with
    | .error h => .error h
    | .ok s => s.ldmWords c a d n l

/-- The state that an LDM or STM which stopped at word i leaves (R126). -/
def State.stopAt (s : State) (c : Cx) (i : Nat) : State := s.onT c (fun t => t.setProg i)

/-- LDM: registers from PROG on are emptied first; a fault at word i stops there. -/
def execLdm (o : Op) (s : State) : Out :=
  s.run (o.sx s.q ++ o.tx s.q) [] (fun c s => do
    let a := c.base o
    let n := (c.tval o).toNat
    let d := o.dn
    let i := c.t.prog
    require (n != 0 && d + n ≤ 24 && !(d ≤ o.sn && o.sn < d + n))
    let _ ← c.spot a 8 8 .rd false
    checkDsts c.s c.t c.k c.q.td ((List.range (n - i)).map (fun j => .x (d + i + j)))
    let w := c.words a d .rd false (n - i) i
    let empties (s : State) : State :=
      s.onT c (fun t => (List.range (n - i)).foldl (fun t j => t.modG (d + i + j) RegCell.leaveEmpty) t)
    match w.2 with
    | none =>
      let s ← (empties s).ldmWords c a d n w.1
      pure (s.stopAt c 0)
    | some (j, h) =>
      if h.isPark then .error h
      else
        let _ ← (empties s).ldmWords c a d n w.1
        .error ⟨h.stop, fun s => h.eff (match (empties s).ldmWords c a d n w.1 with
          | .ok s => s.stopAt c j
          | .error _ => s)⟩)

/-- The stores of the words of an STM, as many as the buffer takes (R100, R125). -/
def State.stmWords (c : Cx) (a d : Nat) : State → List (Nat × Spot) → State × Option Nat
  | s, [] => (s, none)
  | s, (i, .cfg r) :: l => (s.cfgStore c r (a + 8 * i) (c.t.gv (d + i))).stmWords c a d l
  | s, (i, .mem p) :: l =>
    if !s.bufferRoom c.k 1 then (s, some i)
    else ((s.claimFor c p).buffer c.k c.t [⟨(a + 8 * i) % 2 ^ 56, p.loc, 8, (c.t.gv (d + i)).setWidth 512⟩] p.refuse).stmWords c a d l

/-- STM: its data registers are checked in ascending order; a fault at word i, or a full buffer, stops there. -/
def execStm (o : Op) (s : State) : Out :=
  s.run (o.sx s.q ++ o.tx s.q) [] (fun c s => do
    let a := c.base o
    let n := (c.tval o).toNat
    let d := o.dn
    let i := c.t.prog
    require (n != 0 && d + n ≤ 24)
    let _ ← c.spot a 8 8 .wr true
    checkSrcs c.s c.k c.t [] ((List.range (n - i)).map (fun j => .x (d + i + j) 2 c.q.td))
    let w := c.words a d .wr true (n - i) i
    match w.2 with
    | none =>
      let r := s.stmWords c a d w.1
      match r.2 with
      | none => pure (r.1.stopAt c 0)
      | some j => .error ⟨.park (.storeBuffer 1), fun s => (s.stmWords c a d w.1).1.stopAt c j⟩
    | some (j, h) =>
      if h.isPark then .error h
      else
        match (s.stmWords c a d w.1).2 with
        | none => .error ⟨h.stop, fun s => h.eff ((s.stmWords c a d w.1).1.stopAt c j)⟩
        | some j => .error ⟨.park (.storeBuffer 1), fun s => (s.stmWords c a d w.1).1.stopAt c j⟩)

/-! ## Atomics (R127) -/

/-- An atomic issued: gd is owed the old value, and the release conditions of the scope hold before the request leaves. -/
def State.atomic (s : State) (o : Op) (op : Aop) : Out :=
  s.run (o.sx s.q ++ o.tx s.q ++ (if op == .cas then o.dx s.q else [])) [.x o.dn] (fun c s => do
    let va := c.base o
    let p ← c.access va 8 8 .rw false
    c.movesTo p.loc
    (s.claimFor c p).requestRead c (.atomic op o.dn (c.tval o) (if op == .cas then c.dval o else 0)) [⟨va, p.loc, 8, 0⟩]
      (some (scopeOf o.et.toNat .cluster)) (.g o.dn))

/-- AADD. -/
def execAadd (o : Op) (s : State) : Out := s.atomic o .add
/-- AAND. -/
def execAand (o : Op) (s : State) : Out := s.atomic o .and
/-- AOR. -/
def execAor (o : Op) (s : State) : Out := s.atomic o .or
/-- AXOR. -/
def execAxor (o : Op) (s : State) : Out := s.atomic o .xor
/-- AMIN. -/
def execAmin (o : Op) (s : State) : Out := s.atomic o .min
/-- AMAX. -/
def execAmax (o : Op) (s : State) : Out := s.atomic o .max
/-- AMINU. -/
def execAminu (o : Op) (s : State) : Out := s.atomic o .minu
/-- AMAXU. -/
def execAmaxu (o : Op) (s : State) : Out := s.atomic o .maxu
/-- ASWAP. -/
def execAswap (o : Op) (s : State) : Out := s.atomic o .swap
/-- ACAS. -/
def execAcas (o : Op) (s : State) : Out := s.atomic o .cas

/-! ## Fences and watches (R129 to R132) -/

/-- The instruction-cache copies of a core dropped (R42). -/
def State.dropFetched (s : State) (core : Key) : State := s.modCore core (fun x => { x with icache := [] })

/-- FENCE: a scope of .core or wider also orders instruction fetch after it (R42). -/
def execFence (o : Op) (s : State) : Out :=
  s.run [] [] (fun c s =>
    let sc := scopeOf o.et.toNat .die
    if !c.s.releasedNow c.k c.t sc || c.s.acquiring c.k c.t then parkOn (.release sc)
    else .ok (if sc == .thread then s else s.dropFetched (coreOf c.k)))

/-- The thread's watch withdrawn at its home, with its request if that is still on its way (R131). -/
def State.unwatch (s : State) (tid : Nat) : State :=
  State.endWatch { s with reqs := s.reqs.filter (fun r => !(r.tid == tid && (match r.kind with
    | .watch _ _ => true
    | _ => false))) } tid

/-- WATCH. -/
def execWatch (o : Op) (s : State) : Out :=
  s.run (o.sx s.q ++ o.tx s.q ++ o.dx s.q) [] (fun c s => do
    let va := c.base o
    let p ← c.access va 8 8 .rd false
    let rel := (c.tval o).toNat
    require (rel ≤ 6)
    let s := (s.claimFor c p).unwatch c.t.tid
    let id := s.nextId
    let s := s.request c (.watch rel (c.dval o)) [⟨va, p.loc, 8, 0⟩] none none
    pure (s.onT c (fun t => { t with watch := .armed id (addr va) })))

/-- WAIT. -/
def execWait (o : Op) (s : State) : Out :=
  s.run [] [.x o.dn] (fun c s =>
    match c.t.watch with
    | .wake v => .ok (s.onT c (fun t => { t.setG o.dn v with watch := .none }))
    | .armed _ _ => parkOn .watch
    | .refused a => .error ⟨.trap causeWATCHFULL a.toNat 0, fun s => s.modT c.k (fun t => { t with watch := .none })⟩
    | .none => trapWith causeNOWATCH 0)

/-! ## The user completion handler (R138 to R140) -/

/-- UIEN. -/
def execUien (o : Op) (s : State) : Out :=
  s.run (o.sx s.q) [] (fun c s => do
    let on := (c.sval o).getLsbD 0
    require (!(on && c.t.uivec == 0))
    pure (s.onT c (fun t => t.setThs thsUIE on)))

/-- The thread with the shadow set restored (R140). -/
def Thread.unshadow (t : Thread) : Thread :=
  let g (i : Nat) : RegCell 64 := t.shadow.g.toList.getD i (RegCell.zero 64)
  { t.reload (predWord t.shadow.p) (predFe t.shadow.p) (fun i => (g i).val) (fun i => (g i).full) with
    pc := t.shadow.pc
    ths := withBit t.ths thsUIACT false }

/-- UIRET. -/
def execUiret (s : State) : Out :=
  s.run [] [] (fun c s =>
    if !c.t.thsBit thsUIACT then trapWith causeILLEGAL 0
    else if c.t.owesFrame then parkOn .owedRegs
    else .ok (s.onT c (fun t => t.unshadow)))

end Sys2Proof.Machine
end

