-- ==== Sys2Proof/Machine/Copy.lean ====
section
/-! DEFINITION. The copy instructions (07_memory_instructions R133 to R136) and the parameter blocks of R53. -/

namespace Sys2Proof.Machine

/-! ## Parameter blocks (R53) -/

/-- The substituted registers of a block, as sources, in ascending order of word and field. -/
def blockSrcs (m : Mnem) (o : OpP) : List Src :=
  m.block.filterMap (fun f => if f.isMark (f.get o) then some (.sub (f.get o % 64)) else none)

/-- The value of field i of a block: a literal, or a substituted register's whole value. -/
def Cx.field (c : Cx) (m : Mnem) (o : OpP) (i : Nat) : Nat :=
  match m.block[i]? with
  | none => 0
  | some f => if f.isMark (f.get o) then (c.t.gv (f.get o % 64)).toNat else f.get o

/-! ## Copies (R133 to R136) -/

/-- A copy command issued: it holds its thread until it is accepted, and takes its sources' items then (R24). -/
def State.holdCopy (s : State) (c : Cx) (r : Res Pend) : Res State := do
  let p ← r
  pure ((c.putBack s).holdPend c.k c.t.pc p .copyAccept .copyAccept)

/-- CPY. -/
def execCpy (o : Op) (s : State) : Out :=
  s.run (o.sx s.q ++ o.tx s.q ++ o.dx s.q) [] (fun c s =>
    s.holdCopy c (c.s.issueCopy c.k c.t none (c.dval o).toNat (c.sval o).toNat (c.tval o).toNat 1 0 0 o.et.toNat o.rnd.toNat))

/-- CPYT: fields DST, SRC, COLS, ROWS, SSTRIDE, DSTRIDE in block order. -/
def execCpyt (o : OpP) (s : State) : Out :=
  s.run (blockSrcs .cpyt o) [] (fun c s =>
    let f := c.field .cpyt o
    s.holdCopy c (c.s.issueCopy c.k c.t none (f 0) (f 1) (f 2) (f 3) (8 * f 5) (8 * f 4) o.o.et.toNat o.o.rnd.toNat))

/-- A fill with a value, leaving its words full or empty (R136). -/
def State.fill (s : State) (o : Op) (full : Bool) : Out :=
  s.run (o.sx s.q ++ o.tx s.q ++ o.dx s.q) [] (fun c s =>
    s.holdCopy c (c.s.issueCopy c.k c.t (some (c.sval o, full)) (c.dval o).toNat 0 (c.tval o).toNat 1 0 0 0 0))

/-- CPYW. -/
def execCpyw (o : Op) (s : State) : Out := s.fill o true
/-- CPYC. -/
def execCpyc (o : Op) (s : State) : Out := s.fill o false

end Sys2Proof.Machine
end

