-- ==== Sys2Proof/Machine/Vector.lean ====
section
/-! DEFINITION. Vector instructions (11_vector_instructions R188 to R207). -/

namespace Sys2Proof.Machine

/-! ## Lanes (R188) -/

/-- The width of an element-type code. -/
def etW (et : Nat) : Nat := (numTy et).w

/-- Whether an element-type code is floating point. -/
def etFp (et : Nat) : Bool := 4 ≤ et && et < 8

/-- The lanes of a register at a width, lane 0 first. -/
def lanes (w : Nat) (v : VReg) : List Nat := (List.range (512 / w)).map (fun i => v.toNat / 2 ^ (w * i) % 2 ^ w)

/-- The register that holds lanes; lanes that are absent are 0. -/
def ofLanes (w : Nat) (l : List Nat) : VReg := BitVec.ofNat 512 (l.foldr (fun x acc => x % 2 ^ w + 2 ^ w * acc) 0)

/-- Lanes and the flags of all of them, from lanewise results. -/
def packLanes (w : Nat) (l : List (Nat × Flags)) : VReg × Flags :=
  (ofLanes w (l.map (·.1)), l.foldl (fun a x => a ||| x.2) 0)

/-- The vector sources s and t. -/
def vsvt (o : Op) (q : Quals) : List Src := .v o.sn 0 q.ts :: o.tv q

/-- vd written at 4 cycles, with flags. -/
def State.putV (s : State) (c : Cx) (d : Nat) (r : VReg × Flags) : State :=
  s.onT c (fun t => (t.orFlags r.2).setV d r.1)

/-- vd owed, with flags. -/
def State.oweV (s : State) (c : Cx) (d : Nat) (r : VReg × Flags) (fp : Bool) : State :=
  s.owe c.k [(.v d, r.1)] none r.2 fp false

/-! ## Loads and stores (R193 to R195) -/

/-- The lanes' addresses of a strided or indexed access (R194). -/
def laneAddrs (base : DW) (offs : List DW) : List Nat := offs.map (fun x => (base + x).toNat % 2 ^ 56)

/-- The checks of lanes in ascending order, up to the first that fails (R194). -/
def Cx.laneChecks (c : Cx) (n : Nat) (rt : Right) : List Nat → Res (List (Nat × Range))
  | [] => .ok []
  | va :: l => do
    let r ← c.s.checks c.k c.t va n n rt
    let rs ← c.laneChecks n rt l
    pure ((va, r) :: rs)

/-- The places of lanes that passed them. -/
def Cx.laneGo (c : Cx) (rt : Right) (late : Bool) : List (Nat × Range) → Res (List (Nat × Place))
  | [] => .ok []
  | (va, r) :: l => do
    let p ← c.s.goesTo c.k c.t r va rt late
    let ps ← c.laneGo rt late l
    pure ((va, p) :: ps)

/-- The places of lanes: every lane passes its checks before any is translated or sent (R194); then the wait of R102. -/
def Cx.lanePlaces (c : Cx) (n : Nat) (rt : Right) (late : Bool) (l : List Nat) : Res (List (Nat × Place)) := do
  let rs ← c.laneChecks n rt l
  let ps ← c.laneGo rt late rs
  c.afterAcquire
  pure ps

/-- What a core's data cache answers a lane, which may take two lines. -/
def State.cacheLane (s : State) (c : Cx) (va loc n : Nat) : Option Nat :=
  if n ≤ 32 then s.cacheHit c va loc n
  else match s.cacheHit c va loc 32, s.cacheHit c (va + 32) (loc + 32) 32 with
    | some a, some b => some (a + 2 ^ 256 * b)
    | _, _ => none

/-- What the store buffer gives a lane (R100), unless a later access of its thread to the place is under way (R99): the store and the bytes. -/
def State.laneHit (s : State) (c : Cx) (n : Nat) (x : Nat × Place) : Option (Nat × Nat) :=
  match s.forward c.k x.2.loc n with
  | .hit id _ v => if s.lastOwn c.t [⟨x.1, x.2.loc, n, 0⟩] < id then some (id, v) else none
  | _ => none

/-- What a lane finds in its core: in the store buffer or in the data cache. -/
def State.laneNear (s : State) (c : Cx) (n : Nat) (x : Nat × Place) : Option Nat :=
  match s.laneHit c n x with
  | some h => some h.2
  | none => if s.lastOwn c.t [⟨x.1, x.2.loc, n, 0⟩] = 0 then s.cacheLane c x.1 x.2.loc n else none

/-- Whether a lane waits for an own write (R124, R206) or for stores that cover it in part (R100). -/
def Cx.laneWaits (c : Cx) (n : Nat) (x : Nat × Place) : Bool :=
  c.posting x.1 n || (match c.s.forward c.k x.2.loc n with
    | .wait => true
    | _ => false)

/-- A vector load of lanes of n bytes (R193, R194): each lane takes its bytes from the store buffer if a store covers it; if the core holds
every lane the load needs no more than to return, else one request asks for the others. A piece of no bytes holds what a lane has. -/
def State.vload (s : State) (c : Cx) (d n : Nat) (ls : List (Nat × Place)) : Res State :=
  match ls.find? (c.laneWaits n) with
  | some x => parkOn (.loc (addr x.1) n)
  | none =>
    let near := ls.map (c.s.laneNear c n)
    let s := (ls.filterMap (c.s.laneHit c n)).foldl (fun s h => s.seenBy (coreOf c.k) h.1 c.t.tid)
      (ls.foldl (fun s x => s.claimFor c x.2) s)
    if near.all Option.isSome then
      let s := ls.foldl (fun s x => (s.dUse (coreOf c.k) c.t.domN x.1).dUse (coreOf c.k) c.t.domN (x.1 + n - 1)) s
      .ok (s.answered c (.vload d n) (ls.map (fun x => ⟨x.1, x.2.loc, n, 0⟩)) (.v d) (ofLanes (8 * n) (near.map (·.getD 0))).toNat)
    else
      let far := (ls.find? (fun x => (c.s.laneHit c n x).isNone)).map (·.2.loc)
      s.requestRead c (.vload d n) (ls.map (fun x => match c.s.laneHit c n x with
        | some h => ⟨x.1, far.getD 0, 0, BitVec.ofNat 512 h.2⟩
        | none => ⟨x.1, x.2.loc, n, 0⟩)) none (.v d)

/-- A vector store: one store-buffer entry, lane 0 first; a lane that a switch refuses fails on its own (R195). -/
def State.vstore (s : State) (c : Cx) (n : Nat) (ls : List (Nat × Place)) (data : List Nat) : Res State :=
  if !c.s.bufferRoom c.k 1 then parkOn (.storeBuffer 1)
  else
    let xs := ls.zip data
    let s := xs.foldl (fun s x => s.claimFor c x.1.2) s
    let s := xs.foldl (fun s x => match x.1.2.refuse with
      | some cause => s.push .storeRefusal (.val c.t.tid cause (dw x.1.1))
      | none => s) s
    let ps := (xs.filter (fun x => x.1.2.refuse.isNone)).map (fun x => (⟨x.1.1, x.1.2.loc, n, BitVec.ofNat 512 x.2⟩ : Piece))
    .ok (if ps.isEmpty then s else s.buffer c.k c.t ps none)

/-- VLD. -/
def execVld (o : Op) (s : State) : Out :=
  s.run (o.sx s.q ++ o.tx s.q) [.v o.dn] (fun c s => do
    let ls ← c.lanePlaces 64 .rd false [c.eaddr o]
    s.vload c o.dn 64 ls)

/-- VST. -/
def execVst (o : Op) (s : State) : Out :=
  s.run (o.sx s.q ++ o.tx s.q ++ [.v o.dn 2 s.q.td]) [] (fun c s => do
    let ls ← c.lanePlaces 64 .wr true [c.eaddr o]
    s.vstore c 64 ls [(c.t.vv o.dn).toNat])

/-- The offsets i * T of a strided access. -/
def Cx.strides (c : Cx) (o : Op) : List DW := (List.range (512 / etW o.et.toNat)).map (fun i => dw i * c.tval o)

/-- The offsets of an indexed access: the lanes of vt, signed. -/
def Cx.indexes (c : Cx) (o : Op) : List DW := (lanes (etW o.et.toNat) (c.t.vv o.tn)).map (sextTo (etW o.et.toNat))

/-- VLDS. -/
def execVlds (o : Op) (s : State) : Out :=
  s.run (o.sx s.q ++ o.tx s.q) [.v o.dn] (fun c s => do
    let n := etW o.et.toNat / 8
    let ls ← c.lanePlaces n .rd false (laneAddrs (c.sval o) (c.strides o))
    s.vload c o.dn n ls)

/-- VSTS. -/
def execVsts (o : Op) (s : State) : Out :=
  s.run (o.sx s.q ++ o.tx s.q ++ [.v o.dn 2 s.q.td]) [] (fun c s => do
    let w := etW o.et.toNat
    let ls ← c.lanePlaces (w / 8) .wr true (laneAddrs (c.sval o) (c.strides o))
    s.vstore c (w / 8) ls (lanes w (c.t.vv o.dn)))

/-- VGATH. -/
def execVgath (o : Op) (s : State) : Out :=
  s.run (o.sx s.q ++ o.tv s.q) [.v o.dn] (fun c s => do
    let n := etW o.et.toNat / 8
    let ls ← c.lanePlaces n .rd false (laneAddrs (c.sval o) (c.indexes o))
    s.vload c o.dn n ls)

/-- VSCAT. -/
def execVscat (o : Op) (s : State) : Out :=
  s.run (o.sx s.q ++ o.tv s.q ++ [.v o.dn 2 s.q.td]) [] (fun c s => do
    let w := etW o.et.toNat
    let ls ← c.lanePlaces (w / 8) .wr true (laneAddrs (c.sval o) (c.indexes o))
    s.vstore c (w / 8) ls (lanes w (c.t.vv o.dn)))

/-! ## Lane arithmetic (R196, R197) -/

/-- A two-operand lane operation: integer lanes wrap, floating-point lanes round and set flags. -/
def lane2 (et : Nat) (md : RMode) (fi : Int → Int → Int) (ff : RMode → Exact → Exact → Exact × Flags) (a b : Nat) : Nat × Flags :=
  if etFp et then
    let f := fmtOfEt et
    finishOp f md (ff md (f.decode a) (f.decode b))
  else (ofIntN (etW et) (fi (sval (etW et) a) (sval (etW et) b)), 0)

/-- vd := f lanewise on vs and vt; the result is owed if `slow`, or if it is floating point and `fpSlow`. -/
def State.vop2 (s : State) (o : Op) (slow : Bool) (f : RMode → Nat → Nat → Nat × Flags) : Out :=
  s.run (vsvt o s.q) [.v o.dn] (fun c s =>
    let w := etW o.et.toNat
    let r := packLanes w (((lanes w (c.t.vv o.sn)).zip (lanes w (c.t.vv o.tn))).map (fun x => f (c.t.mode o.rnd.toNat) x.1 x.2))
    .ok (if slow then s.oweV c o.dn r (etFp o.et.toNat) else s.putV c o.dn r))

/-- VADD. -/
def execVadd (o : Op) (s : State) : Out :=
  s.vop2 o (etFp o.et.toNat) (fun md => lane2 o.et.toNat md (· + ·) (fun md a b => a.add md b))
/-- VSUB. -/
def execVsub (o : Op) (s : State) : Out :=
  s.vop2 o (etFp o.et.toNat) (fun md => lane2 o.et.toNat md (· - ·) (fun md a b => a.add md b.neg))
/-- VMUL. -/
def execVmul (o : Op) (s : State) : Out :=
  s.vop2 o true (fun md => lane2 o.et.toNat md (· * ·) (fun _ a b => a.mul b))

/-- The signed quotient of R63 at a width. -/
def quot (w : Nat) (a b : Int) : Int := if b = 0 then -1 else if a = -(2 ^ (w - 1)) ∧ b = -1 then a else a.tdiv b

/-- VDIV. -/
def execVdiv (o : Op) (s : State) : Out :=
  s.vop2 o true (fun md => lane2 o.et.toNat md (quot (etW o.et.toNat)) (fun _ a b => a.div b))

/-- A lane minimum or maximum. -/
def laneMinMax (et : Nat) (wantMax : Bool) (a b : Nat) : Nat × Flags :=
  if etFp et then minMaxNum (fmtOfEt et) wantMax a b
  else (if (sval (etW et) a ≤ sval (etW et) b) != wantMax then a else b, 0)

/-- VMIN. -/
def execVmin (o : Op) (s : State) : Out := s.vop2 o false (fun _ => laneMinMax o.et.toNat false)
/-- VMAX. -/
def execVmax (o : Op) (s : State) : Out := s.vop2 o false (fun _ => laneMinMax o.et.toNat true)

/-- VFMA: vd is read as well; one rounding. -/
def execVfma (o : Op) (s : State) : Out :=
  s.run (vsvt o s.q ++ [.v o.dn 2 s.q.td]) [.v o.dn] (fun c s =>
    let et := o.et.toNat
    let w := etW et
    let md := c.t.mode o.rnd.toNat
    let f := fmtOfEt et
    let one (x : (Nat × Nat) × Nat) : Nat × Flags :=
      if etFp et then finishOp f md (Exact.fma md (f.decode x.1.1) (f.decode x.1.2) (f.decode x.2))
      else (ofIntN w (sval w x.1.1 * sval w x.1.2 + sval w x.2), 0)
    .ok (s.oweV c o.dn (packLanes w ((((lanes w (c.t.vv o.sn)).zip (lanes w (c.t.vv o.tn))).zip (lanes w (c.t.vv o.dn))).map one))
      (etFp et)))

/-- vd := f lanewise on vs, at 4 cycles. -/
def State.vop1 (s : State) (o : Op) (f : Nat → Nat) : Out :=
  s.run [.v o.sn 0 s.q.ts] [.v o.dn] (fun c s =>
    let w := etW o.et.toNat
    .ok (s.putV c o.dn (ofLanes w ((lanes w (c.t.vv o.sn)).map f), 0)))

/-- VABS: FP lanes lose their sign bit. -/
def execVabs (o : Op) (s : State) : Out :=
  s.vop1 o (fun a =>
    let w := etW o.et.toNat
    if etFp o.et.toNat then a % 2 ^ (w - 1) else ofIntN w (sval w a).natAbs)

/-- VNEG: FP lanes have their sign bit inverted. -/
def execVneg (o : Op) (s : State) : Out :=
  s.vop1 o (fun a =>
    let w := etW o.et.toNat
    if etFp o.et.toNat then (a + 2 ^ (w - 1)) % 2 ^ w else ofIntN w (-(sval w a)))

/-- VSQRT. -/
def execVsqrt (o : Op) (s : State) : Out :=
  s.run [.v o.sn 0 s.q.ts] [.v o.dn] (fun c s =>
    let w := etW o.et.toNat
    let f := fmtOfEt o.et.toNat
    .ok (s.oweV c o.dn (packLanes w ((lanes w (c.t.vv o.sn)).map (fun a =>
      finishOp f (c.t.mode o.rnd.toNat) (Exact.sqrt (f.decode a))))) true))

/-- vd := f on all 512 bits (R198). -/
def State.vbits (s : State) (o : Op) (f : VReg → VReg → VReg) : Out :=
  s.run (vsvt o s.q) [.v o.dn] (fun c s => .ok (s.putV c o.dn (f (c.t.vv o.sn) (c.t.vv o.tn), 0)))

/-- VAND. -/
def execVand (o : Op) (s : State) : Out := s.vbits o (· &&& ·)
/-- VOR. -/
def execVor (o : Op) (s : State) : Out := s.vbits o (· ||| ·)
/-- VXOR. -/
def execVxor (o : Op) (s : State) : Out := s.vbits o (· ^^^ ·)

/-- A shift of integer lanes by the low log2(w) bits of a count: lane i of vt, or the immediate (R197). -/
def State.vshift (s : State) (o : Op) (f : Nat → Nat → Nat → Nat) : Out :=
  s.run (vsvt o s.q) [.v o.dn] (fun c s =>
    let w := etW o.et.toNat
    let xs := lanes w (c.t.vv o.sn)
    let ns := if o.t.isReg then lanes w (c.t.vv o.tn) else xs.map (fun _ => (c.tvalZ o).toNat)
    .ok (s.putV c o.dn (ofLanes w ((xs.zip ns).map (fun x => f w x.1 (x.2 % w))), 0)))

/-- VSHL. -/
def execVshl (o : Op) (s : State) : Out := s.vshift o (fun _ a n => a * 2 ^ n)
/-- VSHR. -/
def execVshr (o : Op) (s : State) : Out := s.vshift o (fun w a n => ofIntN w (sval w a / 2 ^ n))

/-! ## Compare and select (R199, R200) -/

/-- A lane comparison with its flags: relation 0 eq, 1 lt, 2 le. -/
def laneCmp (et rel : Nat) (a b : Nat) : Bool × Flags :=
  if etFp et then
    let f := fmtOfEt et
    match rel with
    | 0 => fcmpEq f a b
    | 1 => fcmpLt f a b
    | _ => fcmpLe f a b
  else
    let x := sval (etW et) a
    let y := sval (etW et) b
    (match rel with
    | 0 => x == y
    | 1 => decide (x < y)
    | _ => decide (x ≤ y), 0)

/-- VCMP: the d field holds the relation and g0 to g7 (R191). -/
def execVcmp (o : Op) (s : State) : Out :=
  s.run (vsvt o s.q) [.x (o.dn % 8)] (fun c s =>
    let w := etW o.et.toNat
    let rs := ((lanes w (c.t.vv o.sn)).zip (lanes w (c.t.vv o.tn))).map (fun x => laneCmp o.et.toNat (o.dn / 8 % 4) x.1 x.2)
    let fl := rs.foldl (fun a x => a ||| x.2) (0 : Flags)
    .ok (s.onT c (fun t => (t.orFlags fl).setG (o.dn % 8) (dw (bitsOf (·.1) rs)))))

/-- VSEL. -/
def execVsel (o : Op) (s : State) : Out :=
  s.run (.v o.sn 0 s.q.ts :: o.tx s.q ++ [.v o.dn 2 s.q.td]) [.v o.dn] (fun c s =>
    let w := etW o.et.toNat
    let m := (c.tval o).toNat
    let xs := ((lanes w (c.t.vv o.sn)).zip (lanes w (c.t.vv o.dn))).zipIdx
    .ok (s.putV c o.dn (ofLanes w (xs.map (fun x => if bit m x.2 then x.1.1 else x.1.2)), 0)))

/-! ## Reductions (R201) -/

/-- One level of the pairwise tree. -/
def pairUp (f : Nat → Nat → Nat × Flags) : List Nat → List Nat × Flags
  | a :: b :: l =>
    let r := pairUp f l
    let x := f a b
    (x.1 :: r.1, x.2 ||| r.2)
  | l => (l, 0)

/-- The pairwise tree over 2^k lanes. -/
def treeOf (f : Nat → Nat → Nat × Flags) : Nat → List Nat → Nat × Flags
  | 0, l => (l.headD 0, 0)
  | k + 1, l =>
    let r := pairUp f l
    let x := treeOf f k r.1
    (x.1, r.2 ||| x.2)

/-- A reduction: the tree of f over FP lanes, or the fold of g over sign-extended integer lanes; owed. -/
def State.vreduce (s : State) (o : Op) (f : RMode → Nat → Nat → Nat × Flags) (g : List Int → Int) : Out :=
  s.run [.v o.sn 0 s.q.ts] [.x o.dn] (fun c s =>
    let et := o.et.toNat
    let xs := lanes (etW et) (c.t.vv o.sn)
    if etFp et then
      let r := treeOf (f (c.t.mode o.rnd.toNat)) xs.length.log2 xs
      s.oweX c o.dn (dw r.1) r.2 true false
    else s.oweX c o.dn (BitVec.ofInt 64 (g (xs.map (sval (etW et))))) 0 false false)

/-- VRSUM. -/
def execVrsum (o : Op) (s : State) : Out :=
  s.vreduce o (fun md => lane2 o.et.toNat md (· + ·) (fun md a b => a.add md b)) (fun l => l.foldl (· + ·) 0)
/-- VRMAX. -/
def execVrmax (o : Op) (s : State) : Out :=
  s.vreduce o (fun _ => laneMinMax o.et.toNat true) (fun l => l.foldl max (l.headD 0))
/-- VRMIN. -/
def execVrmin (o : Op) (s : State) : Out :=
  s.vreduce o (fun _ => laneMinMax o.et.toNat false) (fun l => l.foldl min (l.headD 0))

/-! ## Lane moves (R202) -/

/-- VBCAST. -/
def execVbcast (o : Op) (s : State) : Out :=
  s.run (o.sx s.q) [.v o.dn] (fun c s =>
    let w := etW o.et.toNat
    .ok (s.putV c o.dn (ofLanes w (List.replicate (512 / w) (c.sval o).toNat), 0)))

/-- VPERM. -/
def execVperm (o : Op) (s : State) : Out :=
  s.run (vsvt o s.q) [.v o.dn] (fun c s =>
    let w := etW o.et.toNat
    let xs := lanes w (c.t.vv o.sn)
    .ok (s.putV c o.dn (ofLanes w ((lanes w (c.t.vv o.tn)).map (fun i => xs.getD (i % (512 / w)) 0)), 0)))

/-- VEXT. -/
def execVext (o : Op) (s : State) : Out :=
  s.run (.v o.sn 0 s.q.ts :: o.tx s.q) [.x o.dn] (fun c s => do
    let w := etW o.et.toNat
    let i := (c.tvalZ o).toNat
    require (i < 512 / w)
    let x := (lanes w (c.t.vv o.sn)).getD i 0
    s.putX c o.dn (if etFp o.et.toNat then dw x else sextTo w x))

/-- VINS. -/
def execVins (o : Op) (s : State) : Out :=
  s.run (o.sx s.q ++ o.tx s.q ++ [.v o.dn 2 s.q.td]) [.v o.dn] (fun c s => do
    let w := etW o.et.toNat
    let i := (c.tvalZ o).toNat
    require (i < 512 / w)
    pure (s.putV c o.dn (ofLanes w ((lanes w (c.t.vv o.dn)).set i (c.sval o).toNat), 0)))

/-! ## Conversion (R203, R204) -/

/-- L(c): the lane count of a conversion code. -/
def codeLanes (c : Nat) : Nat := if c = 11 then 16 else 512 / (numTy c).w

/-- The checks of R204 on the immediate. -/
def vcvtOk (x : Nat) : Bool :=
  let m := bits x 14 11
  let d := bits x 7 4
  let s := bits x 3 0
  let n := min (codeLanes s) (codeLanes d)
  bits x 19 15 == 0 && s ≤ 11 && d ≤ 11 && s != d &&
  (if s = 11 ∨ d = 11 then 2 ≤ m && m ≤ 8 && codeLanes s != 8 && codeLanes d != 8 else m == 0) && bits x 10 8 < codeLanes s / n

/-- VCVT's result (R204). -/
def vcvt (md : RMode) (sat : Bool) (x : Nat) (v : VReg) : VReg × Flags :=
  let m := bits x 14 11
  let d := bits x 7 4
  let s := bits x 3 0
  let n := min (codeLanes s) (codeLanes d)
  let src := if s = 11 then denseElems m (v.toNat % 2 ^ (16 * (m + 1))) else (lanes (numTy s).w v).map (numTy s).decode
  let xs := (src.drop (bits x 10 8 * n)).take n
  if d = 11 then
    let r := toBatt m md sat xs
    (BitVec.ofNat 512 (denseBatt m r.1 r.2.1), r.2.2)
  else packLanes (numTy d).w (xs.map ((numTy d).encode md (sat && (numTy d).narrow)))

/-- VCVT. -/
def execVcvt (o : Op) (s : State) : Out :=
  s.run [.v o.sn 0 s.q.ts] [.v o.dn] (fun c s => do
    let x := (c.tvalZ o).toNat
    require (vcvtOk x)
    pure (s.oweV c o.dn (vcvt (c.t.mode o.rnd.toNat) c.t.satF8 x (c.t.vv o.sn)) true))

/-! ## Exact dot products (R205, R206) -/

/-- The access to an ACC object (R187, R205): MISALIGN for a misplaced one falls where R115 checks alignment. -/
def Cx.accAccess (c : Cx) (a : Nat) (rt : Right) (late : Bool) : Res Place :=
  match c.s.addrTrap c.t.partN (isService (coreOf c.k)) a 96 1 with
  | some cause => trapWith cause a
  | none => if accMisplaced a then trapWith causeMISALIGN a else c.access a 96 1 rt late

/-- An accumulation, or the zeroing, of an ACC object sent to its home (R187, R205, R206). -/
def State.accumulate (s : State) (c : Cx) (a : Nat) (kind : ReqKind) : Res State := do
  let p ← c.accAccess a .rw true
  match p.refuse with
  | some cause => pure (s.push .storeRefusal (.val c.t.tid cause (dw a)))
  | none => pure ((s.claimFor c p).request c kind [⟨a, p.loc, 96, 0⟩] none none)

/-- VDOTA: the exact lane products in ascending order. -/
def execVdota (o : Op) (s : State) : Out :=
  s.run (vsvt o s.q ++ o.dx s.q) [] (fun c s =>
    let ty := numTy o.et.toNat
    let xs := (lanes ty.w (c.t.vv o.sn)).zip (lanes ty.w (c.t.vv o.tn))
    s.accumulate c ((c.dval o).toNat % 2 ^ 56) (.acc (xs.map (fun x => ((ty.decode x.1).mul (ty.decode x.2)).1))))

end Sys2Proof.Machine
end

