-- ==== Sys2Proof/Machine/Plank.lean ====
section
/-! DEFINITION. The page-4 instructions (12_plank R223 to R235): the Plank's lease and commands as they issue, and the core's
instructions on ACC objects and bank format registers. What follows acceptance stands in EvPlank. -/

namespace Sys2Proof.Machine

/-! ## The lease (R217, R225) -/

/-- A grant made due in the next cycle, if the lease is free (R217); a service core has no Plank (R8, log 18). -/
def State.wantGrant (s : State) (g : Key) : State :=
  if g < 128 && (s.group g).plank.holder.isNone then s.at (s.cycle + 1) .leaseGrant (.n1 g) else s

/-- A request for the lease: gd is owed the CYCLE value of the grant, and a nonzero wait limit runs from here (R225, R372). -/
def State.requestLease (s : State) (c : Cx) (d : Nat) : State :=
  let id := s.nextId
  let s := State.onT { s with nextId := id + 1 } c (fun t =>
    { t.oweReg (.g d) with lease := if t.lease == .none then .requested else t.lease, leaseOwe := some (d, id) })
  let s := if c.t.waitlim == 0 then s else s.at (s.cycle + c.t.waitlim.toNat) .waitlimExpiry (.n2 c.t.tid id)
  s.wantGrant (groupOf (coreOf c.k))

/-- The grant cycle of a group's lease as a core's CYCLE counts (R28, R225). -/
def State.grantCycle (s : State) (core : Key) : Nat := (s.group (groupOf core)).plank.granted - (s.die (dieOfCore core)).start

/-- MLEASE. -/
def execMlease (o : Op) (s : State) : Out :=
  s.run [] [.x o.dn] (fun c s =>
    match c.t.lease with
    | .held => s.putX c o.dn (dw (c.s.grantCycle (coreOf c.k)))
    | .requested => parkOn .lease
    | .lapsed => if c.t.leaseOwe.isSome then parkOn .lease else .ok (s.requestLease c o.dn)
    | .none => .ok (s.requestLease c o.dn))

/-- MRELS. -/
def execMrels (s : State) : Out :=
  s.run [] [] (fun c s =>
    .ok (if c.t.lease == .none then s else s.endLease (groupOf (coreOf c.k)) c.t.tid))

/-! ## Commands at issue (R220, R226 to R229) -/

/-- The outcome that the lease state gives a Plank command as it issues (R220, R391), and the wait of R102. -/
def Cx.plankReady (c : Cx) : Res Unit := do
  if c.t.lease == .none || (c.s.group (groupOf (coreOf c.k))).plank.retired then trapWith causeNOLEASE 0
  c.afterAcquire

/-- A Plank command issued: it holds its thread until it is accepted (R220); `fifo` has it pop its address (R224). -/
def State.holdPlank (s : State) (c : Cx) (op : PlankOp) (fifo : Bool) : State :=
  let p : PlankCmd := ⟨c.k, c.t.tid, c.t.plankSeq, c.t.partN, c.t.domN, c.t.launchid, op, 0, 0, false, 0, 0, none, [], none⟩
  s.holdPend c.k c.t.pc (.plank p fifo) .plankAccept .plankAccept

/-- MLDW (R226): fields SRC, LEN, WOFF. Its source goes through the checks of the core only: what a switch refuses ends the command with
STATUS 3 (R221, R342). -/
def execMldw (o : OpP) (s : State) : Out :=
  s.run (blockSrcs .mldw o) [] (fun c s => do
    c.plankReady
    let src := c.field .mldw o 0 % 2 ^ 56
    let len := c.field .mldw o 1
    let woff := c.field .mldw o 2
    if len != 0 then
      let _ ← c.s.checks c.k c.t src len 1 .rd
    require (len != 0 && len % 32 == 0 && 32 * woff + len ≤ 0x200000 && src % 32 == 0)
    pure ((s.usePlb (coreOf c.k) c.t.domN src len).holdPlank c (.ldw src len woff) false))

/-- A multiply command (R227): fields AADDR, BPITCH, APITCH, COLS and ROWS, KLEN, WOFF, FLAGS. -/
def State.multiply (s : State) (m : Mnem) (o : OpP) (sparse : Bool) : Out :=
  s.run (blockSrcs m o) [] (fun c s => do
    c.plankReady
    let f := c.field m o
    let rows := bits (f 3) 15 8
    let cols := bits (f 3) 7 0
    let qa := bit (f 6) 1
    require (64 ≤ f 4 && f 4 % 64 == 0 && 1 ≤ rows && rows ≤ 64 && 1 ≤ cols && cols ≤ 64 && !(qa && f 0 != 0) && f 6 < 4)
    pure (s.holdPlank c (.mul sparse (bit (f 6) 0) (f 0 % 2 ^ 56) (f 2) (f 1) (f 4) rows cols (f 5)) qa))

/-- MMUL. -/
def execMmul (o : OpP) (s : State) : Out := s.multiply .mmul o false
/-- MMULS. -/
def execMmuls (o : OpP) (s : State) : Out := s.multiply .mmuls o true

/-- MDRAIN (R228): fields DST, COLS and ROWS, DPITCH, reserved, MODE. -/
def execMdrain (o : OpP) (s : State) : Out :=
  s.run (blockSrcs .mdrain o) [] (fun c s => do
    c.plankReady
    let f := c.field .mdrain o
    let rows := bits (f 1) 15 8
    let cols := bits (f 1) 7 0
    let qd := bit (f 4) 2
    require (1 ≤ rows && rows ≤ 64 && 1 ≤ cols && cols ≤ 64 && !(qd && f 0 != 0) && f 4 < 8)
    let rnd := if o.o.rnd = 0 then 1 else o.o.rnd.toNat
    pure (s.holdPlank c (.drain (f 0 % 2 ^ 56) (f 2) rows cols rnd (bit (f 4) 0) (bit (f 4) 1)) qd))

/-- MZERO (R229). -/
def execMzero (s : State) : Out :=
  s.run [] [] (fun c s => do
    c.plankReady
    pure (s.holdPlank c .zero false))

/-! ## MSTAT (R230) -/

/-- The status word of MSTAT selector 0, as a slot's thread reads it. -/
def Plank.status (p : Plank) (cycle : Nat) (tid : Nat) : Nat :=
  p.queue.length + (if p.gov then 32 else 0) +
  (match p.holder with
  | none => 0
  | some h => (if h = tid then 64 else 0) + 128 + p.lastKey / 8 * 2 ^ 8 + p.lastKey % 8 * 2 ^ 14 + (64 - p.cmds) * 2 ^ 17 +
      (65536 - (cycle - p.since)) * 2 ^ 24)

/-- MSTAT: a selector in T[7:0] (R230). -/
def State.mstat (s : State) (o : Op) : Out :=
  s.run (o.tx s.q) [.x o.dn] (fun c s => do
    let t := (c.tvalZ o).toNat
    let p := (c.s.group (groupOf (coreOf c.k))).plank
    require (t % 256 ≤ 3 && (if t % 256 = 3 then t < 8192 else t < 256))
    s.putX c o.dn (match t % 256 with
      | 0 => dw (p.status c.s.cycle c.t.tid)
      | 1 => dw p.govDelay
      | 2 => dw p.completed
      | _ => (mget p.segFmt (bits t 12 8)).getD 0))

/-- MSTAT with selector 0, or a selector in a register. -/
def execMstatStatus (o : Op) (s : State) : Out := s.mstat o
/-- MSTAT with selector 1. -/
def execMstatGovernor (o : Op) (s : State) : Out := s.mstat o
/-- MSTAT with selector 2. -/
def execMstatCompleted (o : Op) (s : State) : Out := s.mstat o
/-- MSTAT with selector 3. -/
def execMstatSegment (o : Op) (s : State) : Out := s.mstat o

/-! ## Long-accumulator instructions (R231 to R233) -/

/-- ACCW: one operand, decoded from the low bits of gs. -/
def execAccw (o : Op) (s : State) : Out :=
  s.run (o.sx s.q ++ o.dx s.q) [] (fun c s =>
    let ty := numTy o.et.toNat
    s.accumulate c ((c.dval o).toNat % 2 ^ 56) (.acc [ty.decode ((c.sval o).toNat % 2 ^ ty.w)]))

/-- ACCZ. -/
def execAccz (o : Op) (s : State) : Out :=
  s.run (o.dx s.q) [] (fun c s => s.accumulate c ((c.dval o).toNat % 2 ^ 56) .accz)

/-- ACCR: it holds its thread until the home has answered. -/
def execAccr (o : Op) (s : State) : Out :=
  s.run (o.sx s.q) [.x o.dn] (fun c s => do
    let a := c.base o
    let p ← c.accAccess a .rd false
    if c.posting a 96 then parkOn (.loc (addr a) 96)
    let id := s.nextId
    let rm := if o.rnd = 0 then c.t.rm else o.rnd.toNat
    let s := (s.claimFor c p).request c (.accr o.dn o.et.toNat rm) [⟨a, p.loc, 96, 0⟩] none (some (.g o.dn))
    pure ((s.goto c c.t.pc).parkThread c.k (.answer id) false))

/-! ## Bank format registers (R178, R179, R234) -/

/-- The access of BFMT and BFMTR: a scratch address that passes R84 and the PLB. -/
def Cx.bank (c : Cx) (a : Nat) (rt : Right) : Res Unit := do
  if regionOf a != 0xF0 then trapWith causeBADADDR a
  let _ ← c.access a 1 1 rt false

/-- BFMT: the home answers at once (log 2). -/
def execBfmt (o : Op) (s : State) : Out :=
  s.run (o.sx s.q ++ o.dx s.q) [] (fun c s => do
    let a := c.base o
    c.bank a .wr
    require (!bfBad (c.dval o).toNat)
    pure (s.modCluster (scratchCl a) (fun x => { x with bfmt := mput x.bfmt (scratchWay a) (c.dval o) })))

/-- BFMTR. -/
def execBfmtr (o : Op) (s : State) : Out :=
  s.run (o.sx s.q) [.x o.dn] (fun c s => do
    let a := c.base o
    c.bank a .rd
    s.putX c o.dn (dw (c.s.bankFmt a)))

end Sys2Proof.Machine
end

