-- ==== Sys2Proof/Machine/Turn.lean ====
section
/-! DEFINITION. What the machine does next: issue turns, due events, boundaries (22_traps R367), instruction fetch (03_encoding R39 to R42),
waking (02_machine_state R34, R36) and the passing of cycles (01_device R17). -/

namespace Sys2Proof.Machine

/-- What the next step is: an instruction or event to execute in a state, or a state reached without one. -/
inductive Act where
  | run (i : Instr) (s : State)
  | done (s : State)

/-! ## Fetch (R41) -/

/-- The bytes of a line from an address to the line's end. -/
def lineBytes (l : BitVec 256) (va : Nat) : List Byte :=
  (List.range (32 - va % 32)).map (fun i => BitVec.ofNat 8 (l.toNat / 256 ^ (va % 32 + i)))

/-- The fill of a line asked of its home (R41), unless the thread already asked for it. -/
def State.askLine (s : State) (k : Key) (t : Thread) (va loc : Nat) : State :=
  if s.reqs.any (fun r => r.tid == t.tid && r.k == k && r.kind == .fetch (addr va)) then s
  else (s.send k t (.fetch (addr va)) [⟨va, loc, 32, 0⟩] none t.pc).2

/-- The instruction bytes of one line from va on (R41): X is needed; a missing line is filled while the thread parks, a page
fault drops the thread, and a word with an uncorrectable error in the line's part that is fetched traps (R392). A line is fetched whole
as it was filled, which R42 leaves open halfword by halfword (log 125). -/
def State.fetchLine (s : State) (k : Key) (t : Thread) (va : Nat) : Res (List Byte) :=
  match s.addrTrap t.partN (isService (coreOf k)) va 2 2 with
  | some c => trapWith c va
  | none =>
    match s.plb k t.domN va 2 .x with
    | .error h => .error h
    | .ok _ =>
      match s.iLine (coreOf k) t.domN va with
      | some l => .ok (lineBytes l va)
      | none =>
        match s.access k t va 2 2 .x false with
        | .error h => .error h
        | .ok p =>
          match s.mem.badWord p.loc (32 - va % 32) with
          | some w => trapWith causeMEMERR (va + 8 * w - p.loc)
          | none => .error ⟨.park (.fill (va / 32)), fun s =>
              (s.usePlb (coreOf k) t.domN va 2).askLine k t (va / 32 * 32) (p.loc / 32 * 32)⟩

/-- The instruction at a thread's pc (R39, R49): it may reach into a second line. -/
def State.fetch (s : State) (k : Key) (t : Thread) : Res Decoded :=
  match s.fetchLine k t t.pc.toNat with
  | .error h => .error h
  | .ok b1 =>
    match decodeBytes b1 with
    | .ok d => .ok d
    | .error .truncated =>
      (match s.fetchLine k t ((t.pc.toNat / 32 * 32 + 32) % 2 ^ 56) with
      | .error h => .error h
      | .ok b2 =>
        match decodeBytes (b1 ++ b2) with
        | .ok d => .ok d
        | .error _ => trapWith causeILLEGAL 0)
    | .error _ => trapWith causeILLEGAL 0

/-- The line of an address used, and its PLB entry (R87, R344). -/
def State.useLine (s : State) (k : Key) (t : Thread) (va : Nat) : State :=
  (s.iUse (coreOf k) t.domN va).usePlb (coreOf k) t.domN va 2

/-- The lines used that an instruction of n halfwords at a thread's pc lies in. -/
def State.usedLines (s : State) (k : Key) (t : Thread) (n : Nat) : State :=
  let va := t.pc.toNat
  let s := s.useLine k t va
  if va % 32 + 2 * n ≤ 32 then s else s.useLine k t ((va / 32 * 32 + 32) % 2 ^ 56)

/-! ## Boundaries (R367) -/

/-- Whether the user completion interrupt is due (R138). -/
def Thread.uiDue (t : Thread) : Bool :=
  t.thsBit thsUIE && !t.thsBit thsUIACT && !t.thsBit thsINTRAP && !t.q0.isEmpty

/-- Whether a thread stands at a boundary: ready, or parked on what does not hold it (R367). -/
def Thread.atBoundary (t : Thread) : Bool :=
  match t.run with
  | .ready => true
  | .parked p => !p.holds
  | _ => false

/-- What acts on a thread before its next instruction (R367), in order: a WAKE duty, a cancel (which also ends a held or dropped
wait, R241), the oldest asynchronous trap, the user completion interrupt. -/
def Thread.boundary (t : Thread) : Option Instr :=
  if t.atBoundary && !t.duty.isEmpty then some .wakeDuty
  else if t.thsBit thsCANP && t.run != .ending then some .cancelAtBoundary
  else if t.atBoundary && !t.asyncTraps.isEmpty && !t.thsBit thsINTRAP then some .asyncTrapEntry
  else if t.atBoundary && t.uiDue then some .uiEntry
  else none

/-! ## Turns (R34) -/

/-- Whether a slot can use a turn now: ready and not leaving its slot, with an instruction that still holds it to issue again, or standing
where a boundary acts, four cycles after its last issue. -/
def State.eligible (s : State) (t : Thread) : Bool :=
  ((((t.run == .ready && t.leaving.isNone) || t.run == .again) && t.readyAt ≤ s.cycle) || t.boundary.isSome) &&
  (match t.lastIssue with
  | some c => c + 4 ≤ s.cycle
  | none => true)

/-- The eligible slot of a core in its order from cycle c on (R34); a stopped core has none (R361). -/
def State.slotFrom (s : State) (core : Key) : Nat → Nat → Option Key
  | 0, _ => none
  | fuel + 1, c =>
    let k := core * 8 + c % 8
    match s.thread k with
    | some t => if s.eligible t then some k else s.slotFrom core fuel (c + 1)
    | none => s.slotFrom core fuel (c + 1)

/-- The slot a core issues in this cycle. -/
def State.owner (s : State) (core : Key) : Option Key :=
  if s.coreStopped core then none else s.slotFrom core 8 (s.cycleOf core)

/-- The next slot to issue in this cycle, cores being taken in rising order from the cursor on. -/
def State.nextSlot (s : State) : List (Nat × Thread) → Option Key
  | [] => none
  | e :: l =>
    if coreOf e.1 < s.cursor then s.nextSlot l
    else match s.owner (coreOf e.1) with
      | some k => some k
      | none => s.nextSlot l

/-- A thread that uses a turn in a cycle. -/
def Thread.issuing (t : Thread) (cycle : Nat) : Thread :=
  { t with lastIssue := some cycle, run := if t.run = .again then .ready else t.run }

/-- The state in which a slot uses its core's turn of this cycle. -/
def State.turnOf (s : State) (k : Key) : State := { s with cur := k, cursor := coreOf k + 1 }.modT k (fun t => t.issuing s.cycle)

/-- Whether the instruction at a thread's pc is the one whose page fault was declined (R371). -/
def Thread.declinedHere (t : Thread) : Option Addr :=
  match t.declined with
  | some (pc, va) => if pc = t.pc then some va else none
  | none => none

/-- A decline forgotten once the thread goes on elsewhere outside its handlers. -/
def Thread.forgets (t : Thread) : Thread :=
  if t.thsBit thsINTRAP || t.thsBit thsUIACT then t else { t with declined := none }

/-- A slot's turn: what acts at the boundary, the PAGE trap of a declined fault (R371), or the instruction at its pc. -/
def State.slotTurn (s : State) (k : Key) (t : Thread) : Act :=
  match t.boundary with
  | some .cancelAtBoundary => .run .cancelAtBoundary { s with arg := .n1 k }
  | some i => .run i { s.turnOf k with arg := .n1 k }
  | none =>
    let s := s.turnOf k
    match t.declinedHere with
    | some va => .done ((s.modT k (fun t => { t with declined := none })).takeTrap k causePAGE va.toNat 0)
    | none =>
      let s := if t.declined.isSome then s.modT k Thread.forgets else s
      match s.fetch k t with
      | .error h => .done (s.stopped k t h)
      | .ok d => .run d.i { s.usedLines k t d.len with ilen := d.len, q := d.q }

/-! ## Waking and the passing of cycles -/

/-- The thread with a barrier target set or unset (R270). -/
def Thread.setTgt (t : Thread) (n : Nat) (e : Option Nat) : Thread := { t with tgt := t.tgt.setIfInBounds n e }

/-- Fields of a barrier register (R249). -/
def barStep (b : DW) : Nat := bits b.toNat 47 44
/-- NARR. -/
def barNarr (b : DW) : Nat := bits b.toNat 43 40
/-- X0. -/
def barX0 (b : DW) : Nat := bits b.toNat 31 27
/-- Y0. -/
def barY0 (b : DW) : Nat := bits b.toNat 26 22
/-- W. -/
def barW (b : DW) : Nat := bits b.toNat 21 16
/-- H. -/
def barH (b : DW) : Nat := bits b.toNat 15 10
/-- CNT. -/
def barCnt (b : DW) : Nat := bits b.toNat 9 6

/-- A barrier register with CNT set. -/
def barSetCnt (b : DW) (n : Nat) : DW := (b &&& ~~~(0x3C0 : DW)) ||| dw (n % 16 * 64)

/-- A barrier register with EPOCH one on. -/
def barNext (b : DW) : DW := (b &&& ~~~(0xFF00000000 : DW)) ||| dw ((bits b.toNat 39 32 + 1) % 256 * 2 ^ 32)

/-- A barrier register at the end of a cycle: CNT returns to 0 in the cycle after the one in which it reached NARR (R250), unless the
arrival that it makes is held (R270). -/
def Barrier.settle (b : Barrier) : Barrier :=
  if barNarr b.reg != 0 && barCnt b.reg == barNarr b.reg && !b.heldArr then { b with reg := barSetCnt b.reg 0 } else b

/-- The barrier registers of every core at the end of a cycle. -/
def State.settleBars (s : State) : State :=
  { s with cores := s.cores.map (fun e => (e.1, { e.2 with bars := e.2.bars.map Barrier.settle })) }

/-- A thread whose wait is over: a BARW keeps the epoch it waited for as its target, so that its reissue finds it reached (R270, log
22). -/
def Thread.reached (t : Thread) (p : Park) : Thread :=
  match p with
  | .barrier n e => t.setTgt n (some e)
  | _ => t

/-- What a slot's state becomes at the end of a cycle (R36, R260, R369): its wait is over, its trap can be entered, to be ready two cycles
on, or its thread can end. -/
def State.wakeSlot (s : State) (k : Key) : State :=
  match s.thread k with
  | none => s
  | some t =>
    match t.run with
    | .parked p => if s.parkOver k t p then (s.wakeThread k).modT k (fun t => t.reached p) else s
    | .entering cause a src =>
      if t.owesFrame || !s.bufferRoom k 8 then s else (s.takeTrap k cause a src).modT k (fun t => { t with readyAt := s.cycle + 2 })
    | .ending => if s.mayEnd k t then s.finishEnd k else s
    | _ => s

/-- Whether a context out of its slot becomes ready now (R252): its wait is over or a boundary acts on it. -/
def State.ctxWakes (s : State) (c : Ctx) : Bool :=
  c.ready.isNone && !c.hold && !c.th.thsBit thsCANP &&
  (match c.th.run with
  | .ready | .again | .entering _ _ _ => true
  | .parked p => s.parkOver c.slot c.th p || c.th.boundary.isSome
  | _ => false)

/-- The contexts of a core's cache and backing area that become ready, marked with this cycle. -/
def State.wakeContexts (s : State) (core : Key) : State :=
  let c := s.core core
  if (c.cache ++ c.backing).any s.ctxWakes then
    let f (x : Ctx) : Ctx :=
      if s.ctxWakes x then { x with ready := some s.cycle, th := match x.th.run with
        | .parked p => if s.parkOver x.slot x.th p then (x.th.woken s.cycle).reached p else { x.th.unwait with run := .ready }
        | _ => x.th } else x
    (s.modCore core (fun c => { c with cache := c.cache.map f, backing := c.backing.map f })).offerSlots (clusterOf core)
  else s

/-- The state without a context. -/
def State.dropCtx (s : State) (id : Nat) : State :=
  let f (l : List Ctx) : List Ctx := l.filter (fun x => x.id != id)
  { s with
    cores := s.cores.map (fun e => (e.1, { e.2 with cache := f e.2.cache, backing := f e.2.backing }))
    clusters := s.clusters.map (fun e => (e.1, { e.2 with inbox := f e.2.inbox })) }

/-- A Brim binding of a removed or ended thing closed as by WCLOSE mode 1 (R329, R336, R355): its records in q2 are dropped, its ports
freed. -/
def State.dropBrim (s : State) (bi : Nat) (b : BrimB) : State :=
  let drop (r : List DW) : Bool := bits (r.headD 0).toNat 63 56 == bi
  let s := s.modTid b.tid (fun t => { t with
    q2pos := if ((t.q2.head?).map drop).getD false then 0 else t.q2pos
    q2 := t.q2.filter (fun r => !drop r) })
  let s := s.unholdPort b.port
  match b.tlPort with
  | some p => s.unholdPort p
  | none => s

/-- An image of a group without what an ended thread left in it: its context, journal entries, lease, watch and Brim bindings. -/
def GImage.without (x : GImage) (tid : Nat) : GImage :=
  let f (l : List Ctx) : List Ctx := l.filter (fun c => c.th.tid != tid)
  let unbind (r : BrimRec) : BrimRec := if r.b.any (fun b => b.tid == tid) then ⟨r.gen + 1, none⟩ else r
  { x with
    cores := x.cores.map (fun e => (e.1, { e.2 with
      cache := f e.2.cache, backing := f e.2.backing, journal := e.2.journal.filter (fun j => j.2.tid != tid || j.2.st == .pending) }))
    clusters := x.clusters.map (fun e => (e.1, { e.2 with inbox := f e.2.inbox, brim := e.2.brim.map (fun r => (r.1, unbind r.2)) }))
    plank := if x.plank.holder = some tid then { x.plank with holder := none } else x.plank }

/-- A cancelled context of a partition that is not resident on its group ends where it stands (R241, R260, R375). -/
def State.endImaged (s : State) (part : Nat) (g : Key) (t : Thread) : State :=
  let x := s.image part g
  let s := t.ports.foldl (fun s p => s.withdraw p none false) (s.dropWait t)
  let s := x.cores.foldl (fun s c => c.2.journal.foldl (fun s j => match j.2.st with
    | .refused cause => if j.2.tid = t.tid then s.report j.2.part j.2.launch cause.toNat else s
    | .pending => s) s) s
  let s := (s.reportStores t).endWatch t.tid
  let s := t.ports.foldl (fun s p => s.modPort p (fun y => { y with holder := none })) s
  let s := x.clusters.foldl (fun s c => c.2.brim.foldl (fun s r => match r.2.b with
    | some b => if b.tid = t.tid then s.dropBrim r.1 b else s
    | none => s) s) s
  (s.modImage part g (fun y => y.without t.tid)).leaveLaunch t

/-- The contexts of an image that stand in no slot. -/
def GImage.waiting (x : GImage) : List Thread :=
  x.cores.flatMap (fun e => (e.2.cache ++ e.2.backing).map (·.th)) ++ x.clusters.flatMap (fun e => e.2.inbox.map (·.th))

/-- The cancelled contexts of every image ended. -/
def State.endImages (s : State) : State :=
  s.parts.foldl (fun s p => p.2.images.foldl (fun s x =>
    (x.2.waiting.filter (fun t => t.thsBit thsCANP)).foldl (fun s t => s.endImaged p.1 x.1 t) s) s) s

/-- A cancelled thread that is not in a slot ends where it stands, under the conditions of .die (R241, R243). -/
def State.endCtx (s : State) (c : Ctx) : State :=
  if c.th.thsBit thsCANP && s.releasedNow c.slot c.th .die then
    let s := c.th.ports.foldl (fun s p => s.withdraw p none false) s
    let s := (s.dropWait c.th).endContext (coreOf c.slot) c.th
    (s.dropCtx c.id).leaveLaunch c.th
  else s

/-- Everything that wakes or ends at the end of a cycle; the rotor interface pushes its records first (R158). -/
def State.wakeAll (s : State) : State :=
  let s := s.flushRecords.settleBars
  let s := s.threads.foldl (fun s e => s.wakeSlot e.1) s
  let s := (s.contexts.foldl State.endCtx s).endImages
  s.cores.foldl (fun s e => s.wakeContexts e.1) s

/-- The cycle at which a slot's thread next uses a turn or stops waiting by itself, if that is known. -/
def Thread.turnTime (t : Thread) : Option Nat :=
  let free := match t.lastIssue with
    | some c => c + 4
    | none => 0
  if t.boundary.isSome then some free
  else match t.run with
    | .ready | .again => some (max free t.readyAt)
    | _ => none

/-- The cycle before which RTIME cannot reach a value (R144). -/
def State.alarmCycle (s : State) (r : Nat) : Nat := s.cycle + ((r - s.rtime) * 130000 + 100009 - s.frac) / 100010

/-- The next cycle in which something can happen: no wait passes over a timer, an alarm, a turn or a packet's hop. -/
def State.nextCycle (s : State) : Nat :=
  let ts := s.timers.map (·.1) ++ (s.alarms.take 1).map (fun e => s.alarmCycle e.1) ++ s.threads.filterMap (fun e => e.2.turnTime)
  if !s.fabric.isEmpty || s.outs.any (fun e => e.2.stop || e.2.skid != 0) then s.cycle + 1
  else match ts with
  | [] => s.cycle + 1
  | t :: l => max (s.cycle + 1) (l.foldl min t)

/-- What RTIME is moved by over some cycles to follow the locked ports: at most 100 ppm of them (R144). -/
def slewStep (slew : Int) (n : Nat) : Int := max (-(10 * n)) (min (10 * n) slew)

/-- Time moved on to a cycle: RTIME counts 10/13 ns a cycle of the main clock (log 6), and follows the locked ports (R17, R144). -/
def State.moveTo (s : State) (c : Nat) : State :=
  let d := slewStep s.slew (c - s.cycle)
  let n := ((s.frac + 100000 * (c - s.cycle) : Nat) + d).toNat
  { s with cycle := c, rtime := s.rtime + n / 130000, frac := n % 130000, slew := s.slew - d, cursor := 0 }

/-- The end of a cycle: once no more events are due in it, the packets move on, and the cycle passes. -/
def State.endCycle (s : State) : State :=
  let s := s.wakeAll
  if s.agenda.isEmpty then
    let s := s.moveFabric
    s.moveTo s.nextCycle
  else s

/-! ## The next step -/

/-- A cursor past every core: the issue turns of the cycle are over. -/
def cursorEnd : Nat := 16384

/-- The next event of this cycle, and the state without it: an alarm or a timer that is due, then what events and instructions have made due
in the cycle. -/
def State.nextEvent (s : State) : Option (Ev × State) :=
  match s.alarms.head?.filter (fun e => e.1 ≤ s.rtime), s.timers.head?.filter (fun e => e.1 ≤ s.cycle), s.agenda with
  | some e, _, _ => some (e.2, { s with alarms := s.alarms.drop 1 })
  | none, some e, _ => some (e.2, { s with timers := s.timers.drop 1 })
  | none, none, e :: l => some (e, { s with agenda := l })
  | none, none, [] => none

/-- The next step: the next slot's turn of this cycle, whose source checks see what was written before it (R36); then what is due in it; then
its end. -/
def State.turn (s : State) : Act :=
  match (s.nextSlot s.threads).bind (fun k => (s.thread k).map (fun t => (k, t))) with
  | some (k, t) => s.slotTurn k t
  | none =>
    match s.nextEvent with
    | some (e, s') => .run e.i { s' with arg := e.arg, cursor := cursorEnd }
    | none => .done s.endCycle

end Sys2Proof.Machine
end

