-- ==== Sys2Proof/Machine/EvPlank.lean ====
section
/-! DEFINITION. The Plank after issue (12_plank R209 to R222, R226 to R229): lease grants and limits, acceptance, the governor,
and the execution of commands. -/

namespace Sys2Proof.Machine

/-! ## The lease (R217, R218) -/

/-- LEASE_GRANT: the waiting slot whose key is first after the last holder's is granted the free lease. -/
def execLeaseGrant (s : State) : Out :=
  .next (match s.arg with
    | .n1 g =>
      let p := (s.group g).plank
      if p.holder.isSome then s
      else match firstAfter p.lastKey (s.leaseWaiters g) with
        | none => s
        | some (key, tid) =>
          let s := s.modPlank g (fun p => { p with holder := some tid, lastKey := key })
          let v := dw (s.cycle - (s.die (dieOfGroup g)).start)
          let s := s.modTid tid (fun t =>
            let t := match t.leaseOwe with
              | some x => t.setG x.1 v
              | none => t
            { t with lease := .held, leaseOwe := none })
          s.leaseBegins g
    | _ => s)

/-- LEASE_CYCLE_LIMIT: the lease whose cycles count from that cycle has reached 65,536; while the group changes hands its cycles do not
count (R218). -/
def execLeaseCycleLimit (s : State) : Out :=
  .next (match s.arg with
    | .n2 g since =>
      let p := (s.group g).plank
      if p.holder.isSome && p.since = since && !s.switching g then s.leaseLimit g else s
    | _ => s)

/-! ## Acceptance (R220, R224, R226 to R228) -/

/-- Whether n bytes from an offset of the weight buffer lie in it. -/
def inBuffer (off n : Nat) : Bool := off + n ≤ 0x200000

/-- The formats of the segments that n bytes from an offset touch. -/
def Plank.segFmts (p : Plank) (off n : Nat) : List Nat :=
  if n = 0 then [] else (List.range ((off + n - 1) / 65536 + 1 - off / 65536)).map (fun i => ((mget p.segFmt (off / 65536 + i)).getD 0).toNat)

/-- Whether n bytes from an address lie in the bank of another address (R83, R84). -/
def inBank (bank va n : Nat) : Bool :=
  regionOf va == 0xF0 && va / 2 ^ 19 == bank / 2 ^ 19 && bits va 18 0 + n ≤ 0x60000

/-- Whether a bank format is one that a narrow command takes (R210). -/
def narrowFmt (f : Nat) : Bool := [1, 2, 5, 6, 7, 9, 10, 11].contains (bfFmt f)

/-- Whether two formats make an allowed command (R210). -/
def mulFormats (fa fb : Nat) : Bool := (bfFmt fa == 8 && bfFmt fb == 8) || (narrowFmt fa && narrowFmt fb)

/-- The checks of R115 over the rows of a tile, as a trap at its first address. -/
def State.tileAccess (s : State) (p : PlankCmd) (rt : Right) (a pitch len rows : Nat) : Res Unit :=
  match s.rowsTrap p.part p.dom (isService (coreOf p.k)) rt a pitch len rows with
  | some x => trapWith x a
  | none => .ok ()

/-- A weight buffer as the commands already queued will leave its formats (R226, R227; log 27). -/
def Plank.ahead (p : Plank) : Plank :=
  { p with segFmt := p.queue.foldl (fun m c => match c.op with
      | .ldw _ len woff =>
        let lo := 32 * woff / 65536
        (List.range ((32 * woff + len - 1) / 65536 + 1 - lo)).foldl (fun m i => mput m (lo + i) c.fa) m
      | _ => m) p.segFmt }

/-- The checks of acceptance, answering the command with its address and formats (R226 to R228). -/
def State.acceptPlank (s : State) (p : PlankCmd) (popped : Option DW) : Res PlankCmd :=
  let pl := (s.group (groupOf (coreOf p.k))).plank.ahead
  match p.op with
  | .ldw src len _ => do
    require (bfFmt (s.bankFmt src) != 0 && inBank src src len)
    pure { p with fa := dw (s.bankFmt src) }
  | .mul sp z a0 apitch bpitch k rows cols woff => do
    let a := match popped with
      | some v => v.toNat % 2 ^ 56
      | none => a0
    let fa := s.bankFmt a
    let off := 32 * woff
    let fb := (pl.segFmts off 1).headD 0
    let la := fmtLen fa k
    let lb := fmtLen fb k
    require (inBuffer off 1 && mulFormats fa fb &&
      !((bfSparse fa || bfSparse fb) && k % 256 != 0) &&
      (List.range cols).all (fun j => inBuffer (off + j * bpitch) lb && (pl.segFmts (off + j * bpitch) lb).all (· == fb)) &&
      a % fmtAlign fa == 0 && apitch % fmtAlign fa == 0 && bpitch % fmtAlign fb == 0 &&
      (List.range rows).all (fun i => inBank a (a + i * apitch) la))
    s.tileAccess p .rd a apitch la rows
    pure { p with op := .mul sp z a apitch bpitch k rows cols woff, fa := dw fa, fb := dw fb }
  | .drain d0 dpitch rows cols rnd round clear => do
    let d := match popped with
      | some v => v.toNat % 2 ^ 56
      | none => d0
    let f := s.bankFmt d
    let len := if round then fmtLen f cols else 128 * (cols - 1) + 96
    require (if round then
        bfFmt f != 0 && !bfSparse f && (bfFmt f != 11 || cols % 16 == 0) && d % fmtAlign f == 0 && dpitch % fmtAlign f == 0 &&
        (List.range rows).all (fun i => inBank d (d + i * dpitch) len)
      else d % 256 == 0 && dpitch % 256 == 0 && regionClass d ≤ 1)
    s.tileAccess p .wr d dpitch len rows
    match s.leavingRow d dpitch rows with
    | some a => trapWith causeWAYBUSY a
    | none => pure ()
    pure { p with op := .drain d dpitch rows cols rnd round clear, fa := dw f }
  | .zero => .ok p

/-- Whether a Plank may start a command now: not while it is replaced or its group switches partitions (R352, R390). -/
def State.plankFree (s : State) (g : Key) : Bool := !s.io.replacing.contains (.plank g) && !s.switching g

/-- The head of a Plank's queue made to start: a multiply is put before the governor (R222), the others start at once. -/
def State.plankStart (s : State) (g : Key) : State :=
  match (s.group g).plank.queue with
  | [] => s
  | p :: l =>
    if !s.plankFree g then s
    else match p.op with
    | .mul .. => s.pushOnce .governorStart .none
    | _ => (s.modPlank g (fun x => { x with queue := { p with started := true } :: l })).pushOnce .plankCommandEnd (.n1 g)

/-- PLANK_ACCEPT: the command of a holding thread is accepted, or traps (R220); a Plank out of service takes none (R391). -/
def execPlankAccept (s : State) : Out :=
  .next (match s.arg with
    | .n1 k =>
      match s.thread k with
      | none => s
      | some t =>
        match t.run, t.pend with
        | .parked .plankAccept, some (.plank p fifo) =>
          let g := groupOf (coreOf k)
          let fail (h : Halt) : State := (s.modT k (fun t => { t with run := .ready, pend := none })).stopped k t h
          if (s.group g).plank.retired then fail ⟨.trap causeNOLEASE 0 0, id⟩
          else if t.lease != .held || 16 ≤ (s.group g).plank.queue.length || !s.releasedNow k t .die then s.retry .plankAccept (.n1 k)
          else
            let popped := if fifo then (t.fifoOf 2).head? else none
            if fifo && popped.isNone then fail ⟨.trap causeBADOPND 0 0, id⟩
            else match s.acceptPlank p popped with
              | .error h => fail h
              | .ok p' =>
                if s.ownedElsewhere p'.own (.plank g) then s.retry .plankAccept (.n1 k)
                else
                let idle := (s.group g).plank.queue.isEmpty
                let n := (s.group g).plank.cmds + 1
                let s := (s.modPlank g (fun x => { x with queue := x.queue ++ [p'], cmds := n })).dropOwned p'.own
                let s := s.modT k (fun t =>
                  let t := if fifo then t.setFifo 2 ((t.fifoOf 2).drop 1) else t
                  { t.complete t.npc s.cycle with pend := none, plankSeq := t.plankSeq + 1 })
                let s := if n = 64 then s.leaseLimit g else s
                if idle then s.plankStart g else s
        | _, _ => s
    | _ => s)

/-! ## The governor (R18, R222) -/

/-- The estimated draw of a multiply command. -/
def PlankCmd.draw (p : PlankCmd) : Nat :=
  match p.op with
  | .mul _ _ _ _ _ k rows cols _ => Config.commandDraw (bfFmt p.fa.toNat == 8) rows cols k
  | _ => 0

/-- The estimated draw of the module: its running multiply commands and everything else. -/
def State.draw (s : State) : Nat :=
  Config.otherDraw s.cycle + (s.groups.map (fun g => match g.2.plank.queue with
    | p :: _ => if p.started then p.draw else 0
    | [] => 0)).sum

/-- A group's due multiply command started if the budget admits it, else delayed by a cycle, which counts once (R230). -/
def State.govern (s : State) (g : Key) : State :=
  match (s.group g).plank.queue with
  | [] => s
  | p :: l =>
    match p.op with
    | .mul .. =>
      if p.started || !s.plankFree g then s
      else if s.draw + p.draw ≤ s.io.budget then
        (s.modPlank g (fun x => { x with queue := { p with started := true } :: l, gov := false })).pushOnce .plankCommandEnd (.n1 g)
      else
        let s := s.modPlank g (fun x => { x with
          gov := true, govDelay := if x.govAt = s.cycle + 1 then x.govDelay else x.govDelay + 1, govAt := s.cycle + 1 })
        if s.timers.contains (s.cycle + 1, ⟨.governorStart, .none⟩) then s else s.at (s.cycle + 1) .governorStart .none
    | _ => s

/-- GOVERNOR_START: the waiting multiply commands considered in ascending die and group order. -/
def execGovernorStart (s : State) : Out := .next (s.groups.foldl (fun s e => s.govern e.1) s)

/-! ## Operands (R209, R214, R215) -/

/-- Bytes of the weight buffer as a little-endian number. -/
def wbufRead (w : List Host.Cell) (off : Nat) : Nat → Nat
  | 0 => 0
  | n + 1 => (cellGet w off).toNat + 256 * wbufRead w (off + 1) n

/-- What an operand line read so far gives: chunks of 64 elements in order, and why it stopped if it did. -/
structure Line where
  chunks : List (List Exact)
  err : Option EngErr

/-- The chunks of a row or column whose elements take fixed space: n chunks from chunk c on. -/
def flatChunks (rd : Nat → Nat → Except EngErr Nat) (f : Nat) : Nat → Nat → Line
  | 0, _ => ⟨[], none⟩
  | n + 1, c =>
    let len := fmtLen f 64
    match rd (c * len) len with
    | .error e => ⟨[], some e⟩
    | .ok x =>
      let l := flatChunks rd f n (c + 1)
      ⟨decodeElems f 64 x :: l.chunks, l.err⟩

/-- The stored elements of the batts of a run before batt b (R177). -/
def storedBefore (hdrs b : Nat) : Nat := (List.range b).foldr (fun i acc => popN 16 (hdrs / 2 ^ (24 * i + 8)) + acc) 0

/-- The chunks of a row or column of sparse runs: n chunks, the run at an offset being at its chunk j (0 to 3) with its headers
read once j is not 0. -/
def sparseChunks (rd : Nat → Nat → Except EngErr Nat) (m : Nat) : Nat → Nat → Nat → Nat → Line
  | 0, _, _, _ => ⟨[], none⟩
  | n + 1, off, j, hdrs0 =>
    match (if j = 0 then rd off 48 else .ok hdrs0) with
    | .error e => ⟨[], some e⟩
    | .ok h =>
      let lo := m * storedBefore h (4 * j)
      let hi := m * storedBefore h (4 * j + 4)
      match (if lo = hi then .ok 0 else rd (off + 48 + lo / 8) ((hi + 7) / 8 - lo / 8)) with
      | .error e => ⟨[], some e⟩
      | .ok x =>
        let es := sparseRun m h 4 (4 * j) (x / 2 ^ (lo % 8))
        let l := if j = 3 then sparseChunks rd m n (off + sparseLen m (sparseStored h)) 0 0 else sparseChunks rd m n off (j + 1) h
        ⟨es :: l.chunks, l.err⟩

/-- The chunks of K elements in a format. -/
def lineChunks (rd : Nat → Nat → Except EngErr Nat) (f k : Nat) : Line :=
  if bfFmt f = 11 && bfSparse f then sparseChunks rd (bfM f) (k / 64) 0 0 0 else flatChunks rd f (k / 64) 0

/-! ## Products (R211 to R213) -/

/-- Whether an element is zero (R212). -/
def Exact.isZero : Exact → Bool
  | .fin _ m _ => m == 0
  | _ => false

/-- A narrow accumulation of products in ascending k (R212). -/
def narrowSum (h : BitVec 4) (v : BitVec 640) : List (Exact × Exact) → BitVec 4 × BitVec 640
  | [] => (h, v)
  | (a, b) :: l =>
    if a.isZero || b.isZero then narrowSum h v l
    else let r := accAdd h v (a.mul b).1; narrowSum r.1 r.2 l

/-- The FP64 steps of a cell in ascending k (R213). -/
def f64Steps (acc : Option DW) (fl : Flags) : List (Exact × Exact) → Option DW × Flags
  | [] => (acc, fl)
  | (a, b) :: l =>
    let r := match acc with
      | none => finishOp fmt64 .rne (a.mul b)
      | some x => finishOp fmt64 .rne (Exact.fma .rne a b (fmt64.decode x.toNat))
    f64Steps (some (dw r.1)) (fl ||| r.2) l

/-- One cell after the products of a row and a column (R211 to R213). -/
def cellAfter (fp64 : Bool) (old : Option Accu) (xs : List (Exact × Exact)) : Option Accu × Flags :=
  if fp64 then
    let r := f64Steps (match old with
      | some (.f64 x) => some x
      | _ => none) 0 xs
    (r.1.map .f64, r.2)
  else
    let a : BitVec 4 × BitVec 640 := match old with
      | some (.exact h v) => (h, v)
      | _ => (0, 0)
    let r := narrowSum a.1 a.2 xs
    (some (.exact r.1 r.2), 0)

/-- Whether an accumulator conflicts with a command's mode (R211). -/
def Accu.conflicts (fp64 : Bool) : Accu → Bool
  | .exact _ _ => fp64
  | .f64 _ => !fp64

/-- The keys of a tile's accumulators, rows first. -/
def tileKeys (rows cols : Nat) : List Nat := (List.range rows).flatMap (fun i => (List.range cols).map (fun j => i * 64 + j))

/-- The accumulators with one set, or made EMPTY. -/
def accSet (m : Map Accu) (k : Nat) (a : Option Accu) : Map Accu :=
  match a with
  | some a => mput m k a
  | none => mdel m k

/-- A tile's accumulators after its first n chunks (R209, R221), and the flags of its steps. -/
def tileAfter (fp64 : Bool) (n : Nat) (as bs : List Line) (acc : Map Accu) : Map Accu × Flags :=
  as.zipIdx.foldl (fun m a => bs.zipIdx.foldl (fun m b =>
    let key := a.2 * 64 + b.2
    let xs := ((a.1.chunks.take n).flatten).zip ((b.1.chunks.take n).flatten)
    let r := cellAfter fp64 (mget m.1 key) xs
    (accSet m.1 key r.1, m.2 ||| r.2)) m) (acc, 0)

/-! ## Execution (R221) -/

/-- How the execution of the head command goes on: it must wait, it is stalled by a page fault, or it ended with a status. -/
inductive Ran where
  | again (s : State)
  | stall (s : State)
  | ended (s : State) (status : Nat) (fl : Flags)

/-- The places of a Plank access of the head command. -/
def State.plankPlaces (s : State) (g : Key) (p : PlankCmd) (rt : Right) (va n : Nat) : Except EngErr (List Piece) :=
  s.engPlaces ⟨false, dieOfGroup g, p.part, p.dom, .plank g, p.got⟩ rt (pageParts va n)

/-- The engine by which a Plank's writes are known until they have drained (R111). -/
def plankEng (g : Key) : Key := 1024 + g

/-- The rows of A of a multiply, chunk by chunk. -/
def State.mulRows (s : State) (g : Key) (p : PlankCmd) (a apitch k rows : Nat) : List Line :=
  (List.range rows).map (fun i => lineChunks (fun off n =>
    match s.plankPlaces g p .rd (a + i * apitch + off) n with
    | .error e => .error e
    | .ok ps => .ok (s.mem.gatherAt ps)) p.fa.toNat k)

/-- Its columns of B, of which the words that `bad` holds for, by their offset, fail. -/
def State.mulCols (s : State) (g : Key) (p : PlankCmd) (bad : Nat → Bool) (woff bpitch k cols : Nat) : List Line :=
  let w := (s.group g).plank.wbuf
  (List.range cols).map (fun j => lineChunks (fun off n =>
    let o := 32 * woff + j * bpitch + off
    if (List.range n).any (fun i => bad ((o + i) / 8 * 8)) then .error (.status 1) else .ok (wbufRead w o n)) p.fb.toNat k)

/-- Whether a multiply conflicts with what its tile holds (R211). -/
def State.mulConflict (s : State) (g : Key) (p : PlankCmd) (zero : Bool) (rows cols : Nat) : Bool :=
  !zero && (tileKeys rows cols).any (fun i => ((mget (s.group g).plank.acc i).map (Accu.conflicts (bfFmt p.fa.toNat == 8))).getD false)

/-- The tile after its ZERO flag has acted and the products of the first n chunks are added (R221), and the flags of its steps. -/
def State.mulTile (s : State) (g : Key) (p : PlankCmd) (zero : Bool) (rows cols n : Nat) (as bs : List Line) : State × Flags :=
  let acc := (s.group g).plank.acc
  let r := tileAfter (bfFmt p.fa.toNat == 8) n as bs (if zero then (tileKeys rows cols).foldl mdel acc else acc)
  (s.modPlank g (fun x => { x with acc := r.1 }), r.2)

/-- The number of chunks that every row or column of some gives. -/
def chunksOf (ls : List Line) (n : Nat) : Nat := (ls.map (fun l => l.chunks.length)).foldl min n

/-- A multiply executed whole, or up to the first chunk with a failed word (R221). -/
def State.runMul (s : State) (g : Key) (p : PlankCmd) (zero : Bool) (a apitch bpitch k rows cols woff : Nat) : Ran :=
  if s.mulConflict g p zero rows cols then .ended s 4 0
  else
    let as := s.mulRows g p a apitch k rows
    let n := chunksOf as (k / 64)
    match (as.find? (fun l => l.err.isSome && l.chunks.length = n)).bind (·.err) with
    | some .wait => .again (s.probeAll (dieOfGroup g))
    | some (.fault _ _) | some (.miss _) => .again s
    | err =>
      let s := match s.plankPlaces g p .rd a 1 with
        | .ok ps => s.takeWays p.dom ps
        | .error _ => s
      let r := s.mulTile g p zero rows cols n as (s.mulCols g p (fun _ => false) woff bpitch k cols)
      .ended r.1 (match err with
        | some (.status st) => st
        | _ => 0) r.2

/-- A number's bytes written into the weight buffer. -/
def wbufWrite (w : List Host.Cell) (off : Nat) : Nat → Nat → List Host.Cell
  | 0, _ => w
  | n + 1, v => wbufWrite (cellPut w off (BitVec.ofNat 8 v)) (off + 1) n (v / 256)

/-- n bytes brought into the weight buffer, with the source bank's format for every segment touched (R226). -/
def State.fillWeights (s : State) (g : Key) (p : PlankCmd) (off n v : Nat) : State :=
  s.modPlank g (fun x => { x with
    wbuf := wbufWrite x.wbuf off n v
    segFmt := mput (mput x.segFmt (off / 65536) p.fa) ((off + n - 1) / 65536) p.fa })

/-- The head command of a Plank changed. -/
def State.modPlankHead (s : State) (g : Key) (f : PlankCmd → PlankCmd) : State :=
  s.modPlank g (fun x => { x with queue := match x.queue with
    | [] => []
    | p :: l => f p :: l })

/-- The next bytes of an MLDW, at most 256, word by word where a word fails (R221, R226); `done` counts those brought. -/
def State.runLdw (s : State) (g : Key) (p : PlankCmd) (src len woff : Nat) : Ran :=
  let go (n : Nat) : Except EngErr State :=
    match s.plankPlaces g p .rd (src + p.done) n with
    | .error e => .error e
    | .ok ps => .ok (((s.takeWays p.dom ps).fillWeights g p (32 * woff + p.done) n (s.mem.gatherAt ps)).modPlankHead g
        (fun q => { q with done := q.done + n }))
  if len ≤ p.done then .ended s 0 0
  else match go (min 256 (len - p.done)) with
    | .ok s => .again s
    | .error .wait => .again (s.probeAll (dieOfGroup g))
    | .error _ =>
      match go 8 with
      | .ok s => .again s
      | .error (.status st) => .ended s st 0
      | .error _ => .again s

/-- One unit of a drain: its address, length, bytes, the accumulators it empties, and its flags. -/
structure DrainUnit where
  va : Nat
  n : Nat
  v : Nat
  keys : List Nat
  fl : Flags

/-- An accumulator as an ACC object (R228): its bytes and flags. -/
def accObject (a : Option Accu) : Nat × Flags :=
  let obj (h : BitVec 4) (v : BitVec 640) : Nat := h.toNat + v.toNat * 2 ^ 64
  match a with
  | none => (0, 0)
  | some (.exact h v) => (obj h v, 0)
  | some (.f64 x) =>
    let e := fmt64.decode x.toNat
    let r := accAdd 0 0 e
    (obj r.1 r.2, match e with
      | .fin neg m ex => flagIf (accScale neg m ex).2 flagNX
      | _ => 0)

/-- An accumulator as the value a rounded drain writes (R228), with NV of R186. -/
def accExact (a : Option Accu) : Exact × Flags :=
  match a with
  | none => (.fin false 0 0, 0)
  | some (.exact h v) => accValue h v
  | some (.f64 x) => (fmt64.decode x.toNat, 0)

/-- The units of one row of a drain (R228). -/
def drainRow (acc : Map Accu) (f rnd : Nat) (round : Bool) (va i cols : Nat) : List DrainUnit :=
  if !round then
    (List.range cols).map (fun j =>
      let x := accObject (mget acc (i * 64 + j))
      ⟨va + 128 * j, 96, x.1, [i * 64 + j], x.2⟩)
  else if bfFmt f = 11 then
    let bl := 2 * (bfM f + 1)
    (List.range (cols / 16)).map (fun b =>
      let xs := (List.range 16).map (fun q => accExact (mget acc (i * 64 + 16 * b + q)))
      let r := toBatt (bfM f) (rmode rnd) (bfSat f) (xs.map (·.1))
      ⟨va + bl * b, bl, denseBatt (bfM f) r.1 r.2.1, (List.range 16).map (fun q => i * 64 + 16 * b + q),
        xs.foldl (fun a x => a ||| x.2) r.2.2⟩)
  else
    let ty := fmtNumTy (bfFmt f)
    (List.range cols).map (fun j =>
      let x := accExact (mget acc (i * 64 + j))
      let r := ty.encode (rmode rnd) (bfSat f) x.1
      ⟨va + ty.w / 8 * j, ty.w / 8, r.1 % 2 ^ ty.w, [i * 64 + j], r.2 ||| x.2⟩)

/-- The next unit of a drain (R228), in the order of rows and columns: `done` counts those written. -/
def PlankCmd.nextUnit (p : PlankCmd) (acc : Map Accu) (dst dpitch rows cols rnd : Nat) (round : Bool) : Option DrainUnit :=
  let per := if round && bfFmt p.fa.toNat = 11 then cols / 16 else cols
  let i := p.done / per
  if rows ≤ i then none else (drainRow acc p.fa.toNat rnd round (dst + i * dpitch) i cols)[p.done % per]?

/-- n bytes from an address, cut at the words' ends. -/
def wordParts (va n : Nat) : List (Nat × Nat) :=
  (List.range ((va + n + 7) / 8 - va / 8)).map (fun i =>
    let a := max va ((va / 8 + i) * 8)
    (a, min (va + n) ((va / 8 + i + 1) * 8) - a))

/-- The words of a unit written up to the first that fails (R221, R392). -/
def State.drainWords (s : State) (g : Key) (p : PlankCmd) : List (Nat × Nat) → Nat → State
  | [], _ => s
  | (va, n) :: l, v =>
    match s.plankPlaces g p .wr va n with
    | .ok ps => (s.scatterAt (dieOfGroup g) p.dom (some (plankEng g)) ps (v % 256 ^ n)).drainWords g p l (v / 256 ^ n)
    | .error _ => s

/-- One unit of a drain written (R221, R228), or what it waits for. -/
def State.runUnit (s : State) (g : Key) (p : PlankCmd) (clear : Bool) (u : DrainUnit) : Ran :=
  match s.plankPlaces g p .wr u.va u.n with
  | .ok ps =>
    let s := ((s.takeWays p.dom ps).scatterAt (dieOfGroup g) p.dom (some (plankEng g)) ps u.v).modPlankHead g (fun q => { q with
      done := q.done + 1, flags := q.flags ||| u.fl, got := [] })
    .again (if clear then s.modPlank g (fun x => { x with acc := u.keys.foldl mdel x.acc }) else s)
  | .error .wait => .again (s.probeAll (dieOfGroup g))
  | .error (.miss l) => .stall (s.askAll (.plank g) p.dom l)
  | .error (.fault va code) =>
    .stall ((s.modPlankHead g (fun q => { q with stalled := some (addr va) })).raiseEngFault p.k p.part p.dom va true code)
  | .error (.status st) => .ended (s.drainWords g p (wordParts u.va u.n) u.v) st p.flags

/-- The head command gone on with. -/
def State.runPlank (s : State) (g : Key) (p : PlankCmd) : Ran :=
  match p.op with
  | .ldw src len woff => s.runLdw g p src len woff
  | .mul _ z a ap bp k rows cols woff => s.runMul g p z a ap bp k rows cols woff
  | .drain dst dp rows cols rnd round clear =>
    match p.nextUnit (s.group g).plank.acc dst dp rows cols rnd round with
    | some u => s.runUnit g p clear u
    | none => .ended s 0 p.flags
  | .zero => .ended (s.modPlank g (fun x => { x with acc := [] })) 0 0

/-- The flag bits of a Plank record (R221). -/
def recordFlags (fl : Flags) : Nat :=
  (if fl.getLsbD 4 then 2 ^ 11 else 0) + (if fl.getLsbD 2 then 2 ^ 10 else 0) + (if fl.getLsbD 1 then 2 ^ 9 else 0) +
  (if fl.getLsbD 0 then 2 ^ 8 else 0)

/-- The head command ended (R221): its record goes to q1, and the next command starts. -/
def State.plankEnd (s : State) (g : Key) (status : Nat) (fl : Flags) : State :=
  match (s.group g).plank.queue with
  | [] => s
  | p :: l =>
    let s := s.modPlank g (fun x => { x with queue := l, completed := x.completed + 1 })
    (s.pushRecord p.tid p.part p.launch status (recordCause status) (fun t =>
      { t with q1 := t.q1 ++ [dw (p.seq.toNat * 2 ^ 32 + recordFlags fl + status)] })).plankStart g

/-- The head command ended once its writes have drained (R111). -/
def State.plankOver (s : State) (g : Key) (status : Nat) (fl : Flags) : State :=
  if s.draining (plankEng g) then
    (s.modPlankHead g (fun q => { q with ended := some status, flags := fl })).retryOnce .plankCommandEnd (.n1 g)
  else s.plankEnd g status fl

/-- PLANK_COMMAND_END: the head command goes on by a unit, or ends. -/
def execPlankCommandEnd (s : State) : Out :=
  .next (match s.arg with
    | .n1 g =>
      match (s.group g).plank.queue with
      | [] => s
      | p :: _ =>
        if !p.started || p.stalled.isSome || s.switching g then s
        else match p.ended with
          | some st => s.plankOver g st p.flags
          | none =>
            match s.runPlank g p with
            | .again s => s.retry .plankCommandEnd (.n1 g)
            | .stall s => s
            | .ended s st fl => s.plankOver g st fl
    | _ => s)

/-- The tile of a command, as accumulator keys. -/
def PlankOp.tile : PlankOp → List Nat
  | .mul _ _ _ _ _ _ rows cols _ => tileKeys rows cols
  | .drain _ _ rows cols _ _ _ => tileKeys rows cols
  | _ => []

/-- An error in the word at an offset of the weight buffer (R221, R393): a running multiply is left as its chunks before the one that reads
the word leave it, and the segments of its B range take format 0. -/
def State.wbufError (s : State) (g : Key) (p : PlankCmd) (off : Nat) : State :=
  match p.op with
  | .mul _ zero a ap bp k rows cols woff =>
    let bs := s.mulCols g p (fun o => o == off / 8 * 8) woff bp k cols
    let as := s.mulRows g p a ap k rows
    let n := if bs.all (fun l => l.err.isNone) then 0 else chunksOf as (chunksOf bs (k / 64))
    let s := if s.mulConflict g p zero rows cols then s else (s.mulTile g p zero rows cols n as bs).1
    let segs := (List.range cols).flatMap (fun j =>
      let o := 32 * woff + j * bp
      (List.range ((o + fmtLen p.fb.toNat k - 1) / 65536 + 1 - o / 65536)).map (fun i => o / 65536 + i))
    s.modPlank g (fun x => { x with segFmt := segs.foldl mdel x.segFmt })
  | _ => s

/-- PLANK_STATE_ERROR (R393): `w` is 0 for an error in an accumulator of the tile, else it lies in the weight buffer at an offset. -/
def execPlankStateError (s : State) : Out :=
  .next (match s.arg with
    | .n3 g w off =>
      match (s.group g).plank.queue with
      | [] => s
      | p :: _ =>
        if !p.started then s
        else
          let s := if w = 0 then s.modPlank g (fun x => { x with acc := p.op.tile.foldl mdel x.acc }) else s.wbufError g p off
          s.plankOver g 1 p.flags
    | _ => s)

end Sys2Proof.Machine
end

