-- ==== Sys2Proof/Machine/Image.lean ====
section
/-! DEFINITION. The connector image and its checks (16_connectors R293 to R297). -/

namespace Sys2Proof.Machine

/-- Whether a list's numbers all pass a test of their index and value. -/
def allIdx {α : Type} (f : Nat → α → Bool) (l : List α) : Bool := l.zipIdx.all (fun x => f x.2 x.1)

/-- A port table entry (R293). -/
def parsePort (x : Nat) : Option PortDesc :=
  if bits x 39 2 != 0 then none else some ⟨bits x 63 48, bits x 47 40, bit x 1, bit x 0⟩

/-- A buffer table entry (R293). -/
def parseBuf (x : Nat) : Option BufDesc :=
  let cap := bits x 3 0
  if bits x 15 4 != 0 || cap = 0 || 8 < cap then none
  else some ⟨bits x 63 48, bits x 47 40, bits x 39 24, bits x 23 16, cap⟩

/-- A filter entry (R294); `size` is the item's data part in bytes. -/
def parseFilter (size x c m : Nat) : Option Filter :=
  let w := bits x 5 4
  let off := bits x 13 8
  let rel := bits x 2 0
  if bits x 63 14 != 0 || bit x 7 || bit x 3 || w = 3 || rel = 7 || (rel != 6 && m != 0) || off % 2 ^ (w + 1) != 0 ||
      size < off + 2 ^ (w + 1) || (bit x 6 && (off != 0 || w != 0)) then none
  else some ⟨off, bit x 6, w, rel, dw c, dw m⟩

/-- The halfwords of n doublewords from one on. -/
def halvesAt (w : Nat → Nat) (i n : Nat) : List Nat := (List.range (4 * n)).map (fun j => w (i + j / 4) / 2 ^ (16 * (j % 4)) % 65536)

/-- A guard entry at a doubleword, with its length (R295). -/
def parseGuard (w : Nat → Nat) (nend i : Nat) : Option (Guard × Nat) :=
  let f := (nend + 63) / 64
  let nr := bits (w (i + 2)) 63 56
  let nc := bits (w (i + 2)) 55 53
  let rw := (nr + 3) / 4
  let rs := halvesAt w (i + 3 + f) rw
  let cs := if nc = 0 then [] else halvesAt w (i + 3 + f + rw) 1
  let fire := (List.range f).foldl (fun a j => a + w (i + 3 + j) * 2 ^ (64 * j)) 0
  if bits (w (i + 2)) 52 0 != 0 || 4 < nc || (rs.drop nr).any (· != 0) || (cs.drop nc).any (· != 0) || cs.any (fun x => bits x 14 12 != 0)
    then none
  else some (⟨dw (w i), dw (w (i + 1)), fire, (rs.take nr).map (fun x => (bits x 15 8, bits x 7 0)),
    (cs.take nc).map (fun x => (bit x 15, bits x 11 8, bits x 7 0))⟩, 3 + f + rw + (if nc = 0 then 0 else 1))

/-- n guard entries from a doubleword on, which end within `last` doublewords, and where they end. -/
def parseGuards (w : Nat → Nat) (nend last : Nat) : Nat → Nat → Option (List Guard × Nat)
  | 0, i => if i ≤ last then some ([], i) else none
  | n + 1, i =>
    match parseGuard w nend i with
    | none => none
    | some (g, len) => (parseGuards w nend last n (i + len)).map (fun r => (g :: r.1, r.2))

/-- A region of an image (R293, R294) from its table entry, with the doublewords its body begins and ends at; `first` is where the tables
end. -/
def parseRegion (w : Nat → Nat) (first len size x : Nat) : Option (RegionDesc × Nat × Nat) :=
  let off := bits x 63 32
  let nl := bits x 31 16
  if bits x 15 0 != 0 || nl = 0 || 512 < nl || off % 8 != 0 || off < first || len < off + 8 then none
  else
    let i := off / 8
    let h := w i
    let nend := bits h 63 55
    let ng := bits h 47 40
    let nf := bits h 39 32
    if bits h 54 48 != 0 || bits h 31 0 != 0 || nend = 0 || 256 < nend || ng = 0 || 64 < ng || 16 < nf || len < off + 8 + 24 * nf then none
    else
      match (List.range nf).mapM (fun j => parseFilter size (w (i + 1 + 3 * j)) (w (i + 2 + 3 * j)) (w (i + 3 + 3 * j))) with
      | none => none
      | some fs => (parseGuards w nend (len / 8) ng (i + 1 + 3 * nf)).map (fun gs => (⟨nend, nl, fs, gs.1⟩, i, gs.2))

/-- The checks of R296 on one region of an image. -/
def Image.regionOk (im : Image) (r : Nat) (rd : RegionDesc) : Bool :=
  let src (e : Nat) : Bool := match im.endpt r e with
    | .port _ false | .bufOut _ => true
    | _ => false
  let snk (e : Nat) : Bool := match im.endpt r e with
    | .port _ true | .bufIn _ => true
    | _ => false
  let named (e : Nat) : Nat :=
    (im.ports.filter (fun p => p.region == r && p.endpt == e)).length +
    (im.bufs.filter (fun b => b.ireg == r && b.iend == e)).length + (im.bufs.filter (fun b => b.oreg == r && b.oend == e)).length
  let ng := rd.guards.length
  (List.range rd.nend).all (fun e => named e == 1) && im.ports.any (fun p => p.region == r) &&
  allIdx (fun i (g : Guard) =>
    g.fire < 2 ^ rd.nend &&
    (List.range rd.nend).all (fun e => !(bit g.fire e && snk e) || (g.routes.filter (fun q => q.1 == e)).length == 1) &&
    g.routes.all (fun q => bit g.fire q.1 && snk q.1 && bit g.fire q.2 && src q.2) &&
    g.conds.all (fun c => c.2.1 < rd.filters.length && bit g.fire c.2.2 && src c.2.2) &&
    g.inhib.toNat < 2 ^ ng && g.confl.toNat < 2 ^ ng && !g.inhib.getLsbD i && !g.confl.getLsbD i &&
    allIdx (fun h (x : Guard) => g.confl.getLsbD h == x.confl.getLsbD i) rd.guards) rd.guards

/-- Whether no two of some bodies overlap. -/
def apart : List (RegionDesc × Nat × Nat) → Bool
  | [] => true
  | a :: l => l.all (fun b => a.2.2 ≤ b.2.1 || b.2.2 ≤ a.2.1) && apart l

/-- The image whose doublewords a function gives, if it is laid out in the order of R293 and passes R296. -/
def parseImage (w : Nat → Nat) : Option Image :=
  let np := bits (w 0) 31 16
  let nr := bits (w 0) 15 0
  let len := bits (w 1) 63 32
  let nb := bits (w 1) 31 16
  let roff := bits (w 2) 63 32
  let boff := bits (w 2) 31 0
  if bits (w 0) 63 48 != 0xCA4D || bits (w 0) 47 40 != 1 || bits (w 0) 39 32 != 0 || np = 0 || 1024 < np || nr = 0 || 256 < nr ||
      len % 8 != 0 || 0x40000 < len || 1024 < nb || bits (w 1) 15 0 != 0 || w 3 != 0 || roff % 8 != 0 || boff % 8 != 0 ||
      boff < 32 + 8 * np || roff < boff + 8 * nb || len < roff + 8 * nr then none
  else
    match (List.range np).mapM (fun i => parsePort (w (4 + i))), (List.range nb).mapM (fun i => parseBuf (w (boff / 8 + i))) with
    | some ps, some bs =>
      let size (r : Nat) : Nat := match ps.find? (fun p => p.region == r) with
        | some p => if p.isV then 64 else 8
        | none => 8
      match (List.range nr).mapM (fun r => parseRegion w (roff + 8 * nr) len (size r) (w (roff / 8 + r))) with
      | none => none
      | some bodies =>
        let rs := bodies.map (·.1)
        let im : Image := ⟨ps, bs, rs, len⟩
        let fits (r e : Nat) : Bool := match rs[r]? with
          | some rd => e < rd.nend
          | none => false
        if apart bodies && ps.all (fun p => fits p.region p.endpt) && bs.all (fun b => fits b.ireg b.iend && fits b.oreg b.oend) &&
            allIdx (fun r rd => im.regionOk r rd) rs then some im else none
    | _, _ => none

/-- The core a placement halfword names (R297), if its reserved bits are zero. -/
def parsePlace (h : Nat) : Option Key := if bits h 12 10 != 0 then none else some (bits h 15 13 * 1024 + bits h 9 0)

end Sys2Proof.Machine
end

