-- ==== Sys2Proof/Machine/WorkOps.lean ====
section
/-! DEFINITION. Contexts leaving and entering slots (02_machine_state R21, 14_scheduling R245, R252), launches and their seeds
(R242, R243), cancel (R241), and barriers (R250, R270). -/

namespace Sys2Proof.Machine

/-! ## Leaving a slot (R21, R252) -/

/-- A context entering a core's context cache; a ninth evicts the one longest in it (R252). -/
def Core.takeIn (c : Core) (x : Ctx) : Core :=
  let l := c.cache ++ [x]
  if 8 < l.length then { c with cache := l.drop 1, backing := c.backing ++ l.take 1 } else { c with cache := l }

/-- A slot freed by a swap: its thread's WAKE duty is performed (R373), its context enters the cache, and the slot is offered. -/
def State.vacate (s : State) (k : Key) (t : Thread) : State :=
  let s := s.sendDuty t
  let hold := t.leaving == some true
  let x : Ctx := ⟨s.nextId, k, { t with duty := [], leaving := none }, none, hold⟩
  let s : State := { s with nextId := s.nextId + 1, threads := mdel s.threads k }
  (s.modCore (coreOf k) (fun c => c.takeIn x)).offerSlots (clusterOf (coreOf k))

/-- A swap out asked for (R120, R252, R261, R359). -/
def State.askLeave (s : State) (k : Key) (tid : Nat) (hold : Bool) : State :=
  (s.modT k (fun t => { t with leaving := some hold })).push .contextSwapOut (.n2 k tid)

/-! ## Filling a free slot (R245) -/

/-- The ready context of a core that R245 takes first: ready earliest, then entered earliest. -/
def firstReady : List Ctx → Option Ctx
  | [] => none
  | x :: l =>
    let r := firstReady l
    if x.ready.isNone || x.th.thsBit thsCANP then r
    else match r with
      | none => some x
      | some y => if x.ready.getD 0 < y.ready.getD 0 || (x.ready.getD 0 == y.ready.getD 0 && x.id < y.id) then some x else some y

/-- A core's next ready context. -/
def Core.nextReady (c : Core) : Option Ctx := firstReady (c.cache ++ c.backing)

/-- The next packet of a migration inbox. -/
def Cluster.nextInbox (c : Cluster) : Option Ctx := c.inbox.find? (fun x => !x.th.thsBit thsCANP)

/-- What takes a free slot next. -/
inductive Claim where
  | ctx (core : Key) (x : Ctx) (k : Key)
  | inbox (x : Ctx) (k : Key)
  | seed (sd : Seed) (k : Key)

/-- The next claim of a cluster that gets a slot, in the order of R245. -/
def State.nextClaim (s : State) (cl : Key) : Option Claim :=
  let ctx := (List.range 16).findSome? (fun i =>
    let core := coreInCluster cl i
    match (s.core core).nextReady, (s.freeSlots core).head? with
    | some x, some k => some (Claim.ctx core x k)
    | _, _ => none)
  match ctx with
  | some c => some c
  | none =>
    match (s.cluster cl).nextInbox, s.clusterSlot cl with
    | some x, some k => some (.inbox x k)
    | _, _ =>
      match (s.cluster cl).seeds with
      | [] => none
      | sd :: _ => ((s.freeSlots sd.core).head?).map (Claim.seed sd)

/-- A slot under a swap or start is free no longer (R245). -/
def State.reserve (s : State) (k : Key) : State :=
  s.modCluster (clusterOf (coreOf k)) (fun c => { c with resSlots := nadd c.resSlots k })

/-- The swap or start into a slot is over. -/
def State.unreserve (s : State) (k : Key) : State :=
  s.modCluster (clusterOf (coreOf k)) (fun c => { c with resSlots := ndel c.resSlots k })

/-- A yielded context becomes ready as its freed slot is assigned to another claim (R261). -/
def State.slotTaken (s : State) (k : Key) (except : Nat) : State :=
  let f (x : Ctx) : Ctx := match x.th.run with
    | .parked (.yield _) =>
      if x.slot = k ∧ x.id ≠ except ∧ x.ready.isNone then { x with ready := some s.cycle, th := { x.th.unwait with run := .ready } } else x
    | _ => x
  s.modCore (coreOf k) (fun c => { c with cache := c.cache.map f, backing := c.backing.map f })

/-- A context put in a slot (R245, R30): its core's journal entries follow it; what a FENCE made it fetch anew on the core it came from, it
does not find here in an older copy (R42). -/
def State.putCtx (s : State) (k : Key) (x : Ctx) : State :=
  let s := (s.dropCtx x.id).unreserve k
  let s : State := { s with threads := mput s.threads k x.th }
  let s := if coreOf x.slot = coreOf k then s else s.dropFetched (coreOf k)
  s.modCore (coreOf k) (fun c => { c with journal := c.journal.map (fun e => (e.1, if e.2.tid = x.th.tid then { e.2 with k := k } else e.2)) })

/-! ## Launches (R242, R243) -/

/-- The cores of a rectangle of a die, in ascending core number (R10). -/
def rectCores (d x0 y0 w h : Nat) : List Key := (List.range (w * h)).map (fun i => d * 1024 + (y0 + i / w) * 32 + x0 + i % w)

/-- Whether every core of a rectangle is in a partition's groups. -/
def State.rectInPart (s : State) (part d x0 y0 w h : Nat) : Bool := (rectCores d x0 y0 w h).all (fun c => s.inPart part (groupOf c))

/-- A launch put in the queue of its priority (R242). -/
def State.enqueueLaunch (s : State) (d r : Nat) : State :=
  let p := (s.launch d r).prio
  (s.modLaunch d r (fun x => { x with stage := .queued })).modDie d (fun x =>
    { x with lqueues := x.lqueues.setIfInBounds p (x.lqueues.toList.getD p [] ++ [r]) })

/-- The launches of a die that are due to enter their queues now, by ascending handle. -/
def State.eligibleLaunches (s : State) (d : Nat) : List Nat :=
  ((s.die d).launches.foldl (fun (m : Map Nat) e =>
    if e.2.c.used && (match e.2.stage with
      | .due t => t ≤ s.cycle
      | _ => false) then mput m (handleOf s (.launch d e.1)).toNat e.1 else m) []).map (·.2)

/-- The head of the highest-priority nonempty queue. -/
def Die.headLaunch (x : Die) : Option (Nat × Nat) :=
  (List.range 4).findSome? (fun p => ((x.lqueues.toList.getD p []).head?).map (fun r => (p, r)))

/-- Whether every seed area under a launch has room for its seeds (R242). -/
def State.seedsFit (s : State) (d : Nat) (x : Launch) : Bool :=
  let cs := (rectCores d x.x0 x.y0 x.w x.h).map clusterOf
  cs.eraseDups.all (fun cl => (s.clusterFor x.c.part cl).seeds.length + cs.count cl ≤ 256)

/-- The seeds of a launch written (R243), and slots offered to them. -/
def State.writeSeeds (s : State) (d r : Nat) (x : Launch) : State :=
  let h := handleOf s (.launch d r)
  let g : BitVec 32 := if bits x.parent.toNat 31 30 = 1 then x.parent else 0
  (rectCores d x.x0 x.y0 x.w x.h).zipIdx.foldl (fun s c =>
    (s.modClusterFor x.c.part (clusterOf c.1) (fun cl => { cl with
      seeds := cl.seeds ++ [⟨c.1, dw c.2, x.arg, x.entry, h, g, x.c.part⟩] })).offerSlots (clusterOf c.1)) s

/-- The thread of a seed (R243, R28). -/
def State.seedThread (s : State) (sd : Seed) : Thread :=
  { Thread.start with
    tid := s.nextId
    pc := sd.entry
    g := (Thread.start.g.setIfInBounds 0 ((RegCell.zero 64).fill sd.idx)).setIfInBounds 1 ((RegCell.zero 64).fill sd.arg)
    launchid := sd.launch
    graphid := sd.graph
    part := BitVec.ofNat 5 sd.part
    domain := (s.partn sd.part).pcfg.setWidth 12 }

/-! ## Cancel (R241) -/

/-- The open levels below one, with itself, the lowest last. -/
def State.levelsBelow (s : State) (l : LevelRef) : List LevelRef :=
  let part := (s.counter l).part
  let launchesOf (h : BitVec 32) : List LevelRef := s.dies.flatMap (fun d =>
    (d.2.launches.filter (fun r => r.2.c.used && !r.2.c.done && r.2.c.part == part && r.2.parent == h)).map (fun r => .launch d.1 r.1))
  let graphsOf (h : BitVec 32) : List LevelRef := s.dies.flatMap (fun d =>
    (d.2.graphs.filter (fun r => r.2.c.used && !r.2.c.done && r.2.c.part == part && r.2.parent == h)).map (fun r => .graph d.1 r.1))
  let underPhase (p : LevelRef) : List LevelRef :=
    let gs := graphsOf (handleOf s p)
    gs ++ launchesOf (handleOf s p) ++ gs.flatMap (fun g => launchesOf (handleOf s g))
  match l with
  | .launch _ _ => [l]
  | .graph _ _ => l :: launchesOf (handleOf s l)
  | .phase _ _ => l :: underPhase l
  | .job p =>
    let ps := ((s.partn p).phases.filter (fun r => r.2.used && !r.2.done)).map (fun r => LevelRef.phase p r.1)
    l :: (ps ++ ps.flatMap underPhase)

/-- The seeds of a partition for which a test holds, there and in its images: how many. -/
def State.countSeeds (s : State) (part : Nat) (f : Seed → Bool) : Nat :=
  let count (m : Map Cluster) : Nat := (m.map (fun c => (c.2.seeds.filter f).length)).sum
  count s.clusters + ((s.partn part).images.map (fun i => count i.2.clusters)).sum

/-- The state without them, what stands behind them being offered slots. -/
def State.dropSeeds (s : State) (part : Nat) (f : Seed → Bool) : State :=
  let keep (m : Map Cluster) : Map Cluster := m.map (fun c => (c.1, { c.2 with seeds := c.2.seeds.filter (fun sd => !f sd) }))
  let s : State := { s with clusters := keep s.clusters }
  let s := s.modPart part (fun p => { p with images := p.images.map (fun i => (i.1, { i.2 with clusters := keep i.2.clusters })) })
  s.clusters.foldl (fun s c => if c.2.seeds.isEmpty then s else s.offerSlots c.1) s

/-- Work of a cancelled launch that has not started removed (R241): its seeds, or the launch itself. -/
def State.removeUnstarted (s : State) (l : LevelRef) : State :=
  match l with
  | .launch d r =>
    let x := s.launch d r
    if x.c.done then s
    else if x.stage != .started then
      levelEnd 3 (s.modDie d (fun y => { y with lqueues := y.lqueues.map (fun q => q.filter (· != r)) })) l
    else
      let mine (sd : Seed) : Bool := sd.launch == handleOf s l && sd.part == x.c.part
      (List.range (s.countSeeds x.c.part mine)).foldl (fun s _ => countDown s l) (s.dropSeeds x.c.part mine)
  | _ => s

/-- CANP set in every thread below a level, wherever its context stands (R241), that of a launch which has ended among them. -/
def State.markCancelled (s : State) (l : LevelRef) : State :=
  let h := handleOf s l
  let part := (s.counter l).part
  let f (t : Thread) : Thread := if t.partN == part && (levelsUp 3 s part t.launchid).contains h then t.setThs thsCANP true else t
  let fs (x : Ctx) : Ctx := { x with th := f x.th }
  { s with
    threads := s.threads.map (fun e => (e.1, if isService (coreOf e.1) then e.2 else f e.2))
    cores := coresMapCtx s.cores fs
    clusters := clustersMapCtx s.clusters fs
    parts := s.parts.map (fun e => (e.1, { e.2 with images := e.2.images.map (fun x => (x.1, x.2.mapT f)) })) }

/-- A live level that is not DONE cancelled (R241, R268); the seeds of launches below it that have ended go too. -/
def State.cancel (s : State) (l : LevelRef) : State :=
  let ls := s.levelsBelow l
  let part := (s.counter l).part
  let h := handleOf s l
  let hs := (ls.map (handleOf s)).reverse ++ (levelsUp 3 s part h).drop 1
  let s := ls.foldl (fun s l => s.modCounter l (fun c => { c with can := true })) s
  let s := match l with
    | .job p => s.raise [evHeader 8 0 (p * 2 ^ 32)]
    | _ => s
  let s := ls.foldl State.removeUnstarted (s.markCancelled l)
  let s := s.dropSeeds part (fun sd => sd.part == part && (levelsUp 3 s part sd.launch).contains h)
  s.settle part hs

/-! ## Barriers (R249, R250, R270) -/

/-- The state with a barrier of a core changed. -/
def State.modBar (s : State) (core n : Nat) (f : Barrier → Barrier) : State :=
  s.modCore core (fun c => { c with bars := c.bars.setIfInBounds n (f (c.bar n)) })

/-- The RW fields of a barrier register. -/
def barMask : DW := 0xFF00FFFFFC00

/-- Whether every core of a barrier's rectangle holds the same value (R249). -/
def State.barEqual (s : State) (core n : Nat) : Bool :=
  let b := ((s.core core).bar n).reg
  (rectCores (dieOfCore core) (barX0 b) (barY0 b) (barW b) (barH b)).all (fun c => ((s.core c).bar n).reg &&& barMask == b &&& barMask)

/-- The corner completes a barrier in this cycle (R250): the releases are due, unless the cores hold unequal values (R249). -/
def State.barComplete (s : State) (core n : Nat) : State :=
  let b := ((s.core core).bar n).reg
  let w := barW b
  if !s.barEqual core n then s
  else (List.range (w * barH b)).foldl (fun s i =>
    s.at (s.cycle + (i % w + i / w) + barStep b * i) .barrierRelease
      (.n3 (dieOfCore core * 1024 + (barY0 b + i / w) * 32 + barX0 b + i % w) n 0)) s

/-- An origin-column core is column-complete (R250, step 3). -/
def State.colComplete (s : State) (core n : Nat) : State :=
  if barY0 ((s.core core).bar n).reg < coreY core then s.at (s.cycle + 1) .barrierColumnCompletion (.n2 (core - 32) n)
  else s.barComplete core n

/-- Whether a core is row-complete (R250, step 1). -/
def Barrier.rowDone (b : Barrier) (x : Nat) : Bool := b.arrived && (x + 1 == barX0 b.reg + barW b.reg || b.rowIn)

/-- A core has become row-complete (R250, steps 2 and 3). -/
def State.rowComplete (s : State) (core n : Nat) : State :=
  let b := (s.core core).bar n
  if barX0 b.reg < coreX core then s.at (s.cycle + 1) .barrierRowCompletion (.n2 (core - 1) n)
  else if coreY core + 1 == barY0 b.reg + barH b.reg || b.colIn then s.colComplete core n
  else s

/-- A core arrives (R250). -/
def State.arrive (s : State) (core n : Nat) : State :=
  let s := s.modBar core n (fun b => { b with arrived := true })
  if ((s.core core).bar n).rowDone (coreX core) then s.rowComplete core n else s

end Sys2Proof.Machine
end

