-- ==== Sys2Proof/Machine/Work.lean ====
section
/-! DEFINITION. The page-5 instructions (15_thread_instructions R253 to R270): launches and graphs, threads, tasks, counters and
barriers. -/

namespace Sys2Proof.Machine

/-! ## Handles and acceptance -/

/-- The stop of a handle that is malformed or another partition's (R255, steps 1 and 2); none when it is stale. -/
def State.levelOf (s : State) (part h : Nat) : Res (Option LevelRef) :=
  match checkHandle s part h with
  | .bad => trapWith causeBADOPND 0
  | .prot => trapWith causePROT h
  | .stale => .ok none
  | .live l => .ok (some l)

/-- The state that an instruction which takes nothing but its own effect answers. -/
def Cx.accepted (c : Cx) (p : Park) : Res Unit := if c.s.releasedNow c.k c.t .die then .ok () else parkOn p

/-- Whether a level takes no new member (R241, R257). -/
def Counter.shut (c : Counter) : Bool := c.done || c.can

/-! ## LAUNCH and GRAPH (R256 to R258) -/

/-- The checks of a LAUNCH's parent (R257): the graph's die and record, if it is a graph. -/
def State.launchParent (s : State) (part h deps : Nat) : Res (Option (Nat × Nat)) := do
  let l ← s.levelOf part h
  match l with
  | some (.phase p r) => do
    require (!(s.counter (.phase p r)).shut && deps == 0)
    pure none
  | some (.graph d r) => do
    let g := s.graph d r
    require (!g.c.shut && g.next != g.nlaunch && deps / 2 ^ g.next == 0)
    pure (some (d, r))
  | _ => trapWith causeBADOPND 0

/-- A launch record filled and submitted (R257, R242). -/
def State.submit (s : State) (c : Cx) (d r : Nat) (gr : Option (Nat × Nat)) (x : Launch) : State :=
  let s := s.modLaunch d r (fun _ => x)
  let s := match gr with
    | some (gd, g) => s.modGraph gd g (fun y => { y with
        next := y.next + 1, members := y.members ++ [handleOf s (.launch d r)] })
    | none => s
  let s := s.mergeClk d (s.clockOf (dieOfCore (coreOf c.k)))
  (if s.depsMet d x then s.enqueueLaunch d r else s).wantLaunch s.cycle d

/-- LAUNCH: block fields ENTRY, ARG, SIZE, ORG, PARENT. -/
def execLaunch (o : OpP) (s : State) : Out :=
  s.run (o.o.sx s.q ++ blockSrcs .launch o) [.x o.o.dn] (fun c s => do
    let f := c.field .launch o
    let ctl := (c.sval o.o).toNat
    let d := bits ctl 19 16
    let x0 := f 3 % 32
    let y0 := f 3 / 32
    let w := f 2 % 32 + 1
    let h := f 2 / 32 + 1
    let deps := bits ctl 63 32
    require (bits ctl 31 20 == 0 && bits ctl 15 12 == 0 && bits ctl 9 0 == 0 && d < 8 && f 2 < 1024 && f 3 < 1024 && x0 + w ≤ 32 && y0 + h ≤ 32)
    require (c.s.rectInPart c.t.partN d x0 y0 w h)
    let gr ← c.s.launchParent c.t.partN (f 4) deps
    c.accepted (.launchRec d)
    match lowestFree (fun i => (c.s.launch d i).c.used) 1024 0 with
    | none => parkOn (.launchRec d)
    | some r =>
      let n := w * h
      let member := match gr with
        | some (gd, g) => (s.graph gd g).next
        | none => 0
      let x : Launch := ⟨{ Counter.reset with gen := (s.launch d r).c.gen, used := true, part := c.t.partN, count := n },
        BitVec.ofNat 32 (f 4), member, BitVec.ofNat 32 deps, bits ctl 11 10, x0, y0, w, h, regTarget (dw (f 0)), dw (f 1), n, .waiting⟩
      let s := s.submit c d r gr x
      s.oweX c o.o.dn ((handleOf s (.launch d r)).setWidth 64) 0 false false)

/-- GRAPH: block fields NLAUNCH, PARENT. -/
def execGraph (o : OpP) (s : State) : Out :=
  s.run (blockSrcs .graph o) [.x o.o.dn] (fun c s => do
    let n := c.field .graph o 0
    let h := c.field .graph o 1
    let d := dieOfCore (coreOf c.k) % 8
    require (1 ≤ n && n ≤ 32)
    let l ← c.s.levelOf c.t.partN h
    match l with
    | some (.phase p r) => do
      require (!(c.s.counter (.phase p r)).shut)
      c.accepted (.graphRec d)
      match lowestFree (fun i => (c.s.graph d i).c.used) 256 0 with
      | none => parkOn (.graphRec d)
      | some r =>
        let g : Graph := ⟨{ Counter.reset with gen := (s.graph d r).c.gen, used := true, part := c.t.partN, count := n },
          BitVec.ofNat 32 h, n, 0, [], 0, 0⟩
        let s := s.modGraph d r (fun _ => g)
        s.oweX c o.o.dn ((handleOf s (.graph d r)).setWidth 64) 0 false false
    | _ => trapWith causeBADOPND 0)

/-! ## Threads (R259 to R262) -/

/-- A counter with one added (R238): past the largest count it is not applied, and is a fault. -/
def Counter.up (c : Counter) : Counter := if c.count + 1 < 2 ^ 32 then { c with count := c.count + 1 } else c.addFault causeBADCOUNT

/-- SPAWN. -/
def execSpawn (o : Op) (s : State) : Out :=
  s.run (o.sx s.q ++ o.tx s.q) [.x o.dn] (fun c s => do
    let core := coreOf c.k
    let cl := clusterOf core
    if 256 ≤ (c.s.cluster cl).seeds.length then parkOn (.seedRoom cl)
    match checkHandle c.s c.t.partN c.t.launchid.toNat with
    | .live (.launch d r) => do
      require (!(c.s.launch d r).c.shut)
      let i := (s.launch d r).next
      let s := s.modLaunch d r (fun x => { x with c := x.c.up, next := x.next + 1 })
      let sd : Seed := ⟨core, dw i, c.tval o, regTarget (c.sval o), c.t.launchid, c.t.graphid, c.t.partN⟩
      let s := (s.modCluster cl (fun x => { x with seeds := x.seeds ++ [sd] })).offerSlots cl
      s.oweX c o.dn (dw i) 0 false false
    | _ => trapWith causeBADOPND 0)

/-- EXIT: its thread ends (R260, R243). -/
def execExit (s : State) : Out := s.run [] [] (fun c s => .ok (s.startEnding c.k))

/-- Whether a claim of R245 waits for a slot on a core (R261). -/
def State.claimWaits (s : State) (core : Key) : Bool :=
  (s.core core).nextReady.isSome || (s.cluster (clusterOf core)).nextInbox.isSome ||
  (match (s.cluster (clusterOf core)).seeds with
  | sd :: _ => sd.core == core
  | [] => false)

/-- YIELD (R261): by the value of T. -/
def State.yield (s : State) (o : Op) : Out :=
  s.run (o.tx s.q) [] (fun c s => do
    let t := (c.tvalZ o).toNat
    require (t < 2 ^ 32)
    let id := s.nextId
    if t = 0 then
      if s.claimWaits (coreOf c.k) then
        let s := (s.parkThread c.k (.yield id) false).askLeave c.k c.t.tid false
        pure (s.at (s.cycle + 256) .yieldReadyTimeout (.n2 c.t.tid id))
      else pure s
    else
      let s := s.parkThread c.k (.cycle (c.s.cycleOf (coreOf c.k) + t)) false
      pure (s.at (s.cycle + t) .yieldDeadline (.n2 c.t.tid id)))

/-- YIELD with T = 0, or with T in a register. -/
def execYieldSlot (o : Op) (s : State) : Out := s.yield o
/-- YIELD with a nonzero T. -/
def execYieldTimed (o : Op) (s : State) : Out := s.yield o

/-- MIGR. -/
def execMigr (o : Op) (s : State) : Out :=
  s.run (o.sx s.q) [] (fun c s => do
    let on := (c.sval o).getLsbD 0
    require (!(on && c.t.thsBit thsVLIVE))
    pure (s.onT c (fun t => t.setThs thsMIGR on)))

/-! ## Tasks (R263, R264) -/

/-- The ring of a partition's segments: its clusters in ascending die and cluster number (R247). -/
def State.ring (s : State) (part : Nat) : List Key := (List.range 512).filter (fun cl => s.inPart part (groupOfCluster cl))

/-- The segment a task's header names (R247). -/
def State.segment (s : State) (part own hdr : Nat) : Key :=
  let r := s.ring part
  if bit hdr 31 then own else r.getD (bits hdr 23 0 % r.length) own

/-- The four registers from a field on as sources. -/
def fourSrcs (n : Nat) (tie : Bool) : List Src := (List.range 4).map (fun i => .x (n + i) 0 tie)

/-- The die of a cluster, if it has a clock. -/
def State.segClock (s : State) (cl : Key) : List Nat := s.clockOf (dieOfCluster cl)

/-- TQPUSH. -/
def execTqpush (o : Op) (s : State) : Out :=
  s.run (fourSrcs o.sn s.q.ts) [] (fun c s => do
    let hdr := (c.sval o).toNat
    require (bits hdr 47 32 == 0 && bits hdr 30 24 == 0)
    let cl := c.s.segment c.t.partN (clusterOf (coreOf c.k)) hdr
    c.accepted (.taskRoom cl)
    if 1024 ≤ (c.s.clusterFor c.t.partN cl).tasks.length then parkOn (.taskRoom cl)
    let task := (List.range 4).map (fun i => c.t.gv (o.sn + i))
    let s := s.modClusterFor c.t.partN cl (fun x => { x with tasks := x.tasks ++ [task] })
    pure (s.mergeClk (dieOfCluster cl) (s.clockOf (dieOfCore (coreOf c.k)))))

/-- A task or its absence owed to g[d] to g[d + 3] and ps, as an acquire (R264). -/
def State.oweTask (s : State) (c : Cx) (o : Op) (task : Option (List DW)) : State :=
  let l := task.getD [0, 0, 0, 0]
  s.owe c.k ((List.range 4).map (fun i => (RegRef.g (o.dn + i), (l.getD i 0).setWidth 512)) ++
    [(.p o.sn, if task.isSome then 1 else 0)]) none 0 false true

/-- The destinations of TQPOP and TQSTEAL. -/
def taskDsts (o : Op) : List Dst := (List.range 4).map (fun i => Dst.x (o.dn + i)) ++ [.p o.sn]

/-- TQPOP: the newest task of the own segment. -/
def execTqpop (o : Op) (s : State) : Out :=
  s.run [] (taskDsts o) (fun c s => do
    c.afterAcquire
    let cl := clusterOf (coreOf c.k)
    let l := (s.cluster cl).tasks
    let s := s.mergeClk (dieOfCore (coreOf c.k)) (s.segClock cl)
    pure ((s.modCluster cl (fun x => { x with tasks := x.tasks.dropLast })).oweTask c o l.getLast?))

/-- The segments a steal probes (R247): from the one after its own in ring order. -/
def State.segProbes (s : State) (part own : Nat) : List Key :=
  let r := s.ring part
  let i := r.idxOf own
  r.drop (i + 1) ++ r.take i

/-- TQSTEAL: the oldest task of the first nonempty segment probed. -/
def execTqsteal (o : Op) (s : State) : Out :=
  s.run [] (taskDsts o) (fun c s => do
    c.afterAcquire
    let part := c.t.partN
    match (c.s.segProbes part (clusterOf (coreOf c.k))).find? (fun cl => !(s.clusterFor part cl).tasks.isEmpty) with
    | none => pure (s.oweTask c o none)
    | some cl =>
      let l := (s.clusterFor part cl).tasks
      let s := s.mergeClk (dieOfCore (coreOf c.k)) (s.segClock cl)
      pure ((s.modClusterFor part cl (fun x => { x with tasks := x.tasks.drop 1 })).oweTask c o l.head?))

/-! ## Counters (R265 to R268) -/

/-- CCINIT (R265): by the value of T. -/
def State.ccinit (s : State) (o : Op) : Out :=
  s.run (o.sx s.q ++ o.tx s.q) [.x o.dn] (fun c s => do
    let t := (c.tvalZ o).toNat
    let n := (c.sval o).toNat
    let part := c.t.partN
    require ((t == 2 || (t == 3 && isService (coreOf c.k))) && 0 < n && n < 2 ^ 32)
    if t = 3 then
      (s.modCounter (.job part) (fun x => { x with
        used := true, part := part, count := n, done := false, can := false, fault := false, fcause := 0, fcnt := 0 })).oweX
        c o.dn 0xC0000000 0 false false
    else
      let job := c.s.counter (.job part)
      require (!job.shut)
      match lowestFree (fun i => (c.s.counter (.phase part i)).used) 64 0 with
      | none => parkOn (.phaseRec part)
      | some r =>
        let s := s.modCounter (.job part) Counter.up
        let s := s.modCounter (.phase part r) (fun x => { Counter.reset with gen := x.gen, used := true, part := part, count := n })
        s.oweX c o.dn ((handleOf s (.phase part r)).setWidth 64) 0 false false)

/-- CCINIT with T = 2, or with T in a register. -/
def execCcinitPhase (o : Op) (s : State) : Out := s.ccinit o
/-- CCINIT with T = 3. -/
def execCcinitJob (o : Op) (s : State) : Out := s.ccinit o

/-- A counter adjusted (R266): the value CCADD returns. -/
def State.adjust (s : State) (l : LevelRef) (t : Int) : DW × State :=
  let x := s.counter l
  let old := x.count
  let na : DW := 0x8000000000000000
  if x.done then (na ||| dw old, s)
  else
    let n := (old : Int) + t
    if n < 0 || 2 ^ 32 ≤ n then (na ||| dw old, s.modCounter l (fun x => x.addFault causeBADCOUNT))
    else if n = 0 then (dw old, levelEnd 3 s l)
    else (dw old, s.modCounter l (fun x => { x with count := n.toNat }))

/-- The result just owed is to be the old COUNT of an adjustment that is on its way (R340). -/
def State.adjusting (s : State) (a : Adj) : State :=
  { s with owed := s.owed.map (fun o => if o.id + 1 = s.nextId then { o with adj := some a } else o) }

/-- Where an adjustment stands in the order of R128: by cycle, then the record's die by cluster, then other dies, each by core number. A
record of a phase or job stands on die 0 (log 126). -/
def Adj.order (a : Adj) : Nat :=
  let d := if bits a.h.toNat 31 30 < 2 then bits a.h.toNat 12 10 else 0
  a.cyc * 2 ^ 32 + (if dieOfCore a.core = d then clusterOf a.core % 64 * 1024 + coreNum a.core
    else 2 ^ 20 + dieOfCore a.core * 1024 + coreNum a.core)

/-- Whether an adjustment of the same record comes first (R340). -/
def State.adjustedLater (s : State) (a : Adj) : Bool :=
  s.owed.any (fun o => o.adj.any (fun b => b.h == a.h && b.part == a.part && b.order < a.order))

/-- An owed result's adjustment applied at its record: the result is the old COUNT (R266). -/
def State.applyAdj (s : State) (o : Owed) (a : Adj) : State :=
  let x := match checkHandle s a.part a.h.toNat with
    | .live l => s.adjust l a.t
    | _ => (0x8000000000000000, s)
  { x.2 with owed := x.2.owed.map (fun p => if p.id = o.id then { p with
    adj := none, writes := p.writes.map (fun w => (w.1, x.1.setWidth 512)), out := p.out.map (fun w => (w.1, x.1)) } else p) }

/-- CCADD: its adjustment reaches the record in the cycle of its issue (R340); a push of the old COUNT is made at once (log 20). -/
def execCcadd (o : Op) (s : State) : Out :=
  s.run (o.sx s.q ++ o.tx s.q) [.x o.dn] (fun c s => do
    let l ← c.s.levelOf c.t.partN (c.sval o).toNat
    c.accepted (.release .die)
    match l with
    | none => s.oweX c o.dn 0x8000000000000000 0 false false
    | some l =>
      if isQdst o.dn || 56 ≤ o.dn then
        let x := s.adjust l (c.tval o).toInt
        x.2.oweX c o.dn x.1 0 false false
      else do
        let s ← s.oweX c o.dn 0 0 false false
        pure (s.adjusting ⟨(c.sval o).setWidth 32, c.t.partN, (c.tval o).toInt, coreOf c.k, c.s.cycle⟩))

/-- A thread entered among a counter's waiters. -/
def Counter.enter (c : Counter) (tid : Nat) : Counter := { c with waiters := c.waiters ++ [tid] }

/-- CCWAIT. -/
def execCcwait (o : Op) (s : State) : Out :=
  s.run (o.sx s.q) [.x o.dn] (fun c s => do
    let h := (c.sval o).toNat
    let l ← c.s.levelOf c.t.partN h
    match l with
    | none => s.putX c o.dn 1
    | some l =>
      let x := c.s.counter l
      let p : BitVec 32 := BitVec.ofNat 32 h
      if c.s.levelOver l (dieOfCore (coreOf c.k)) then do
        let s := freeIfOver (s.modCounter l (fun x => { x with waiters := x.waiters.filter (· != c.t.tid) })) l
        s.putX c o.dn (dw x.status)
      else if x.waiters.contains c.t.tid then parkOn (.counter p)
      else if x.waiters.length < 64 then
        .error ⟨.park (.counter p), fun s => s.modCounter l (fun x => x.enter c.t.tid)⟩
      else .error ⟨.park (.counterFull p), fun s => s.at (s.cycle + 64) .ccwaitResend (.n2 c.t.tid s.nextId)⟩)

/-- CCAN. -/
def execCcan (o : Op) (s : State) : Out :=
  s.run (o.sx s.q) [] (fun c s => do
    let l ← c.s.levelOf c.t.partN (c.sval o).toNat
    pure (match l with
      | none => s
      | some l => if (s.counter l).done then s else s.cancel l))

/-! ## Barriers (R269, R270) -/

/-- Whether a BSET write to a core's register is refused (R269). -/
def State.bsetBad (s : State) (core : Key) (part n : Nat) (v : DW) : Bool :=
  let b := (s.core core).bar n
  let x := barX0 v
  let y := barY0 v
  let w := barW v
  let h := barH v
  barNarr v != 0 &&
  (barCnt b.reg != 0 || b.arrived || b.heldArr || 8 < barNarr v || w = 0 || 32 < x + w || h = 0 || 32 < y + h || isService core ||
    !s.rectInPart part (dieOfCore core) x y w h ||
    !(x ≤ coreX core && coreX core < x + w && y ≤ coreY core && coreY core < y + h))

/-- BSET (R269). -/
def State.bset (s : State) (o : Op) : Out :=
  s.run (o.sx s.q ++ o.tx s.q) [.x o.dn] (fun c s => do
    let t := (c.tvalZ o).toNat
    let core := coreOf c.k
    let n := t % 4
    let v := c.sval o
    require (t < 8)
    if 4 ≤ t then require (!c.s.bsetBad core c.t.partN n v)
    let s := if 4 ≤ t then s.modBar core n (fun b => { b with reg := (b.reg &&& ~~~barMask) ||| (v &&& barMask) }) else s
    s.putX c o.dn ((c.s.core core).bar n).reg)

/-- BSET with T[2] = 0, or with T in a register. -/
def execBsetRead (o : Op) (s : State) : Out := s.bset o
/-- BSET with T[2] = 1. -/
def execBsetWrite (o : Op) (s : State) : Out := s.bset o

/-- The register index of BAR and BARW (R270). -/
def Cx.barrier (c : Cx) (o : Op) : Res Nat := do
  let n := (c.tvalZ o).toNat
  require (n ≤ 3 && barNarr ((c.s.core (coreOf c.k)).bar n).reg != 0)
  pure n

/-- BAR. -/
def execBar (o : Op) (s : State) : Out :=
  s.run (o.tx s.q) [] (fun c s => do
    let core := coreOf c.k
    let n ← c.barrier o
    let b := (c.s.core core).bar n
    if b.heldArr then parkOn (.barrierArrival n)
    c.accepted (.release .die)
    let s := s.onT c (fun t => t.setTgt n (some ((b.epoch + (if b.arrived then 2 else 1)) % 256)))
    let cnt := barCnt b.reg + 1
    let s := s.modBar core n (fun b => { b with reg := barSetCnt b.reg cnt })
    pure (if cnt = barNarr b.reg then
      (if b.arrived then s.modBar core n (fun b => { b with heldArr := true }) else s.arrive core n) else s))

/-- BARW: the epoch it waits for stands in its park, and the release that wakes it sets the target (log 22). -/
def execBarw (o : Op) (s : State) : Out :=
  s.run (o.tx s.q) [.x o.dn] (fun c s => do
    let n ← c.barrier o
    let b := (c.s.core (coreOf c.k)).bar n
    let e := (c.t.tgt.toList.getD n none).getD ((b.epoch + 1) % 256)
    if epochReached b.epoch e then do
      let s := s.onT c (fun t => t.setTgt n none)
      s.putX c o.dn (dw b.epoch)
    else parkOn (.barrier n e))

end Sys2Proof.Machine
end

