-- ==== Sys2Proof/Machine/Ports.lean ====
section
/-! DEFINITION. The page-6 port and connector instructions (16_connectors R298 to R307). -/

namespace Sys2Proof.Machine

/-! ## Bindings (R300) -/

/-- The index of a k field. -/
def kOf (n : BitVec 6) : Nat := kIndex n.toNat

/-- PBIND: the record answers at once (log 2). -/
def execPbind (o : Op) (s : State) : Out :=
  s.run (o.sx s.q ++ o.tx s.q) [] (fun c s => do
    let h := (c.sval o).toNat
    let n := (c.tvalZ o).toNat
    let (d, r, con) ← c.s.checkCon c.t.partN h
    match mget con.ports n with
    | none => trapWith causeBADOPND 0
    | some x => do
      require (n < con.image.ports.length && (c.t.kb (kOf o.d)).isNone && x.holder.isNone && x.place == coreOf c.k)
      let p : PortId := ⟨d, r, n⟩
      let b : Binding := ⟨BitVec.ofNat 32 h, p, (con.desc n).isIn, (con.desc n).isV, none, false⟩
      let s := s.modPort p (fun x => { x with holder := some (.slot c.t.tid (kOf o.d)) })
      pure (s.onT c (fun t => t.setKb (kOf o.d) (some b))))

/-- PUNB: a pending operation is withdrawn and its completion awaited before the register is unbound. -/
def execPunb (o : Op) (s : State) : Out :=
  s.run [] [] (fun c s =>
    let n := kOf o.d
    match c.t.kb n with
    | none => .ok s
    | some b =>
      match (c.s.port b.port).bind (·.op) with
      | some _ => .error ⟨.park (.punb n), fun s => s.withdraw b.port none false⟩
      | none => .ok ((s.modPort b.port (fun x => { x with holder := none })).onT c (fun t => t.setKb n none)))

/-! ## Offers and takes (R301, R302) -/

/-- The predicate pair an offer reports in. -/
def pairDsts (d : Nat) : List Dst := if d = 0 then [] else [.p d, .p (d + 1)]

/-- An offer of one item (R301). -/
def State.offerAt (s : State) (c : Cx) (o : Op) (isV : Bool) (x : Item) (once : Bool) : Res State := do
  let n := kOf o.s
  let b ← c.t.boundTo n false isV
  require (x.tag != noMeta)
  c.s.portFree b n
  let s := if o.dn = 0 then s else s.onT c (fun t => (t.oweReg (.p o.dn)).oweReg (.p (o.dn + 1)))
  pure (s.startOp b.port (coreOf c.k) c.t.limit (.offer x once) (if o.dn = 0 then .none else .preds o.dn) (c.q.ts && !once) true)

/-- The register pair of a g item. -/
def pairSrcs (n : Nat) (tie : Bool) : List Src := [.x n 1 tie, .x (n + 1) 1 tie]

/-- PPUT. -/
def execPput (o : Op) (s : State) : Out :=
  s.run (pairSrcs o.tn s.q.tt) (pairDsts o.dn) (fun c s =>
    s.offerAt c o false ⟨(c.t.gv o.tn).setWidth 512, c.t.gv (o.tn + 1)⟩ false)

/-- PTRY. -/
def execPtry (o : Op) (s : State) : Out :=
  s.run (pairSrcs o.tn s.q.tt) (pairDsts o.dn) (fun c s =>
    s.offerAt c o false ⟨(c.t.gv o.tn).setWidth 512, c.t.gv (o.tn + 1)⟩ true)

/-- PPUTV. -/
def execPputv (o : Op) (s : State) : Out :=
  s.run (o.tv s.q) (pairDsts o.dn) (fun c s => s.offerAt c o true ⟨c.t.vv o.tn, c.t.pmeta⟩ false)

/-- A take (R302), owing two registers. -/
def State.takeAt (s : State) (c : Cx) (o : Op) (isV : Bool) (r1 r2 : RegRef) (dest : PDest) : Res State := do
  let n := kOf o.s
  let b ← c.t.boundTo n true isV
  c.s.portFree b n
  let s := s.onT c (fun t => (t.oweReg r1).oweReg r2)
  pure (s.startOp b.port (coreOf c.k) c.t.limit .take dest c.q.ts true)

/-- PGET. -/
def execPget (o : Op) (s : State) : Out :=
  s.run [] [.x o.dn, .x (o.dn + 1)] (fun c s => s.takeAt c o false (.g o.dn) (.g (o.dn + 1)) (.getg o.dn))

/-- PGETV. -/
def execPgetv (o : Op) (s : State) : Out :=
  s.run [] [.v o.dn, .x o.tn] (fun c s => s.takeAt c o true (.v o.dn) (.g o.tn) (.getv o.dn o.tn))

/-- PWDR. -/
def execPwdr (o : Op) (s : State) : Out :=
  s.run [] [.p o.dn] (fun c s =>
    match c.t.kb (kOf o.s) with
    | none => trapWith causeBADOPND 0
    | some b =>
      match (c.s.port b.port).bind (·.op) with
      | none => .ok (s.owe c.k [(.p o.dn, 1)] none 0 false false)
      | some _ => .ok ((s.onT c (fun t => t.oweReg (.p o.dn))).withdraw b.port (some o.dn) false))

/-! ## Connectors (R304 to R306) -/

/-- Access checks over n bytes, page by page after the first (R115, R371). -/
def Cx.accessPages (c : Cx) (va : Nat) (rt : Right) : Nat → Nat → Res Unit
  | 0, _ => .ok ()
  | fuel + 1, n => do
    let m := min n (4096 - va % 4096)
    if n = 0 then .ok ()
    else do
      let _ ← c.s.access c.k c.t va m 1 rt false
      c.accessPages (va + m) rt fuel (n - m)

/-- Access over a range, its whole extent first. -/
def Cx.accessSpan (c : Cx) (va n al : Nat) (rt : Right) : Res Unit := do
  let _ ← c.s.access c.k c.t va n al rt false
  c.accessPages va rt (n / 4096 + 2) n

/-- n bytes read as a thread's engine reads (R111), as a function of the doubleword index; the access has been checked. -/
def Cx.readPages (c : Cx) (va : Nat) : Nat → Nat → Res (List (Nat × Nat))
  | 0, _ => .ok []
  | fuel + 1, n =>
    let m := min n (4096 - va % 4096)
    if n = 0 then .ok []
    else do
      let p ← c.s.access c.k c.t va m 1 .rd false
      let _ ← c.s.readNow c.k c.t va p.loc m
      let r ← c.readPages (va + m) fuel (n - m)
      pure ((p.loc, m) :: r)

/-- A number of bytes at an offset into pages read. -/
def pagesAt (m : Mem) (n : Nat) : List (Nat × Nat) → Nat → Nat
  | [], _ => 0
  | (loc, len) :: l, off => if off < len then m.readN (loc + off) n else pagesAt m n l (off - len)

/-- The image and the placement at two addresses, read and checked (R304, steps 2 and 3), with the places read. -/
def Cx.loadImage (c : Cx) (a pa : Nat) : Res (Image × List Key × List Nat) := do
  c.accessSpan a 32 8 .rd
  let h ← c.readPages a 2 32
  let len := bits (pagesAt c.s.mem 8 h 8) 63 32
  let np := bits (pagesAt c.s.mem 8 h 0) 31 16
  require (len % 8 == 0 && 32 ≤ len && len ≤ 0x40000 && np != 0 && np ≤ 1024)
  c.accessSpan a len 8 .rd
  c.accessSpan pa (2 * np) 2 .rd
  let ps ← c.readPages a (len / 4096 + 2) len
  let qs ← c.readPages pa 3 (2 * np)
  match parseImage (fun i => pagesAt c.s.mem 8 ps (8 * i)), (List.range np).mapM (fun i => parsePlace (pagesAt c.s.mem 2 qs (2 * i))) with
  | some im, some pl => do
    require (pl.all (fun k => c.s.inPart c.t.partN (groupOf k)))
    pure (im, pl, (ps ++ qs).map (·.1))
  | _, _ => trapWith causeBADOPND 0

/-- CLOAD. -/
def execCload (o : Op) (s : State) : Out :=
  s.run (o.sx s.q ++ o.tx s.q) [.x o.dn] (fun c s => do
    let d := dieOfCore (coreOf c.k) % 8
    c.accepted (.conRec d 0)
    let (im, pl, locs) ← c.loadImage ((c.sval o).toNat % 2 ^ 56) ((c.tval o).toNat % 2 ^ 56)
    match c.s.freeCon d im.len with
    | none => parkOn (.conRec d im.len)
    | some r =>
      let s := locs.foldl (fun s l => s.claimRead c.t l) s
      let gen := ((mget (s.die d).conns r).map (·.gen)).getD 0
      let ports := pl.zipIdx.map (fun p => (p.2, PortSt.fresh p.1))
      let con : Conn := ⟨c.t.partN, false, 0, im, ports, [], []⟩
      let s := s.modDie d (fun x => { x with conns := mput x.conns r ⟨gen, some con⟩, storeUsed := x.storeUsed + im.len })
      s.oweX c o.dn (dw (conHandle gen d r)) 0 false false)

/-- The Carder of a level whose extent holds a core (R9, R282). -/
def carderAt (level : Nat) (core : Key) : CarderId :=
  ⟨dieOfCore core, level, match level with
    | 0 => clusterOf core % 64
    | 1 => groupOf core % 16
    | 2 => quadOf (groupOf core)
    | _ => 0⟩

/-- The greatest numbers of endpoints and link ends of a level (R282). -/
def levelLimits (level : Nat) : Nat × Nat := (32 * 2 ^ level, 64 * 2 ^ level)

/-- The number of regions a Carder decides (R282). -/
def State.carderLoad (s : State) (c : CarderId) : Nat := (s.regionsAt c).length

/-- The Carder a region goes to, from a level up (R282, step 2). -/
def State.carderFor (s : State) (rd : RegionDesc) (cores : List Key) (extra : CarderId → Nat) : Nat → Nat → Option CarderId
  | 0, _ => none
  | fuel + 1, level =>
    let c := carderAt level (cores.headD 0)
    let lim := levelLimits level
    if cores.all (fun k => carderAt level k == c) && rd.nend ≤ lim.1 && rd.nlink ≤ lim.2 && rd.guards.length ≤ 64 &&
        s.carderLoad c + extra c < 64 then some c
    else s.carderFor rd cores extra fuel (level + 1)

/-- The Carders of a connector's regions from number r on, or the code of the first failure (R305). -/
def State.placeRegions (s : State) (con : Conn) : List RegionDesc → Nat → List CarderId → Except Nat (List CarderId)
  | [], _, acc => .ok acc
  | rd :: l, r, acc =>
    let cores := (con.portsOf r).map (fun n => ((mget con.ports n).map (·.place)).getD 0)
    let lim := levelLimits 3
    if cores.any (fun k => dieOfCore k != dieOfCore (cores.headD 0)) then .error 1
    else if lim.1 < rd.nend || lim.2 < rd.nlink || 64 < rd.guards.length then .error 2
    else match s.carderFor rd cores (fun c => acc.count c) 4 0 with
      | none => .error 3
      | some c => s.placeRegions con l (r + 1) (acc ++ [c])

/-- A connector as its start leaves it (R305, R283, R313). -/
def Conn.started (con : Conn) (cs : List CarderId) (rtime : Nat) : Conn :=
  { con with
    running := true
    fcode := 0
    ports := con.ports.map (fun p => (p.1, { p.2 with wm := 0, idle := false, tmo := none, last := rtime }))
    bufs := con.image.bufs.zipIdx.map (fun b => (b.2, ⟨b.1.cap, 0, [], [], 0, false, 0, false⟩))
    regions := cs.zipIdx.map (fun c => (c.2, ⟨c.1, 0, ((mget con.regions c.2).map (·.steps)).getD 0, []⟩)) }

/-- The operations that waited at their cores sent (R298), but for offers whose result is still owed (R276). -/
def State.sendWaiting (s : State) (d r : Nat) (con : Conn) : State :=
  con.ports.foldl (fun s p =>
    match p.2.op with
    | some o =>
      if !o.sent && o.fin.isNone && !s.producing o then
        (s.modPort ⟨d, r, p.1⟩ (fun x => { x with op := x.op.map (fun o => { o with sent := true }) })).push
          .portRequestArrival (.port ⟨d, r, p.1⟩)
      else s
    | none => s) s

/-- CSTART's effect (R305): the result code. -/
def State.startCon (s : State) (part d r : Nat) (con : Conn) : Nat × State :=
  if con.running then (4, s)
  else
    let fail (code : Nat) : Nat × State :=
      (code, (s.modConn d r (fun x => { x with fcode := code })).report part 0xC0000000 causePLACE)
    if con.ports.any (fun p => !s.inPart part (groupOf p.2.place)) then fail 5
    else match s.placeRegions con con.image.regions 0 [] with
      | .error e => fail e
      | .ok cs =>
        let s := (s.modConn d r (fun x => x.started cs s.rtime)).sendWaiting d r con
        (0, cs.foldl (fun s c => s.wantStep c) s)

/-- CSTART. -/
def execCstart (o : Op) (s : State) : Out :=
  s.run (o.sx s.q) [.x o.dn] (fun c s => do
    let (d, r, con) ← c.s.checkCon c.t.partN (c.sval o).toNat
    let x := s.startCon c.t.partN d r con
    x.2.oweX c o.dn (dw x.1) 0 false false)

/-- A connector stopped (R306): pending operations complete as not fired, buffers and marks are discarded. -/
def State.stopCon (s : State) (d r : Nat) (con : Conn) : State :=
  if !con.running then s
  else
    let s := con.ports.foldl (fun s p =>
      match p.2.op with
      | some o => if o.fin.isNone then s.decide ⟨d, r, p.1⟩ .notFired else s
      | none => s) s
    s.modConn d r (fun x => { x with
      running := false
      ports := x.ports.map (fun p => (p.1, { p.2 with wm := 0, idle := false, tmo := none }))
      bufs := []
      regions := x.regions.map (fun g => (g.1, { g.2 with marks := [] })) })

/-- A connector record freed (R298, R306). -/
def State.freeConRec (s : State) (d r : Nat) (con : Conn) : State :=
  s.modDie d (fun x => { x with
    conns := mput x.conns r ⟨((mget x.conns r).map (·.gen)).getD 0 + 1, none⟩
    storeUsed := x.storeUsed - con.image.len })

/-- CSTOP (R306): by the value of T. -/
def State.cstop (s : State) (o : Op) : Out :=
  s.run (o.sx s.q ++ o.tx s.q) [] (fun c s => do
    let (d, r, con) ← c.s.checkCon c.t.partN (c.sval o).toNat
    let t := (c.tvalZ o).toNat
    require (t ≤ 1)
    if t = 1 then do
      require (!(con.ports.any (fun p => p.2.holder.isSome)))
      pure ((s.stopCon d r con).freeConRec d r con)
    else pure (s.stopCon d r con))

/-- CSTOP with T = 0, or with T in a register. -/
def execCstopStop (o : Op) (s : State) : Out := s.cstop o
/-- CSTOP with T = 1. -/
def execCstopFree (o : Op) (s : State) : Out := s.cstop o

/-! ## CSTAT (R307) -/

/-- Selector 0: the connector's status. -/
def Conn.status (con : Conn) : Nat :=
  con.image.ports.length * 2 ^ 48 + con.image.regions.length * 2 ^ 39 + con.fcode * 16 + (if con.running then 1 else 0)

/-- Selector 1: a region's status. -/
def Conn.regionStatus (con : Conn) (r : Nat) : Nat :=
  match mget con.regions r with
  | none => 0
  | some x => x.ptr * 2 ^ 56 + x.carder.level * 2 ^ 46 + x.carder.die * 2 ^ 43 + x.carder.num * 2 ^ 32 + x.steps.toNat

/-- Whether a port is bound by a slot. -/
def Holder.isSlot : Holder → Bool
  | .slot _ _ => true
  | _ => false

/-- Selector 2: a port's status. -/
def Conn.portStatus (con : Conn) (n : Nat) : Nat :=
  match mget con.ports n with
  | none => 0
  | some x => x.fired * 2 ^ 48 + x.disc * 2 ^ 32 + x.wdr * 2 ^ 16 + dieOfCore x.place * 2 ^ 13 + coreNum x.place * 8 +
      (if x.holder.any Holder.isSlot then 4 else 0) + (if x.op.isSome then 2 else 0) + (if (con.desc n).isIn then 1 else 0)

/-- Selector 3: a binding of the slot. -/
def Binding.status (b : Binding) : Nat :=
  b.handle.toNat * 2 ^ 32 + b.port.port * 2 ^ 22 + (if b.isV then 4 else 0) + (if b.isIn then 2 else 0) + 1

/-- CSTAT: by the selector in T[7:0]. -/
def State.cstat (s : State) (o : Op) : Out :=
  s.run (o.sx s.q ++ o.tx s.q) [.x o.dn] (fun c s => do
    let t := (c.tvalZ o).toNat
    let sel := t % 256
    let n := bits t 23 8
    require (sel ≤ 3 && t < 2 ^ (if sel = 0 then 8 else if sel = 3 then 12 else 24))
    if sel = 3 then s.oweX c o.dn (dw (((c.t.kb n).map Binding.status).getD 0)) 0 false false
    else do
      let (_, _, con) ← c.s.checkCon c.t.partN (c.sval o).toNat
      require (!(sel == 1 && con.image.regions.length ≤ n) && !(sel == 2 && con.image.ports.length ≤ n))
      s.oweX c o.dn (dw (match sel with
        | 0 => con.status
        | 1 => con.regionStatus n
        | _ => con.portStatus n)) 0 false false)

/-- CSTAT with selector 0, or a selector in a register. -/
def execCstatConnector (o : Op) (s : State) : Out := s.cstat o
/-- CSTAT with selector 1. -/
def execCstatRegion (o : Op) (s : State) : Out := s.cstat o
/-- CSTAT with selector 2. -/
def execCstatPort (o : Op) (s : State) : Out := s.cstat o
/-- CSTAT with selector 3. -/
def execCstatBinding (o : Op) (s : State) : Out := s.cstat o

end Sys2Proof.Machine
end

