-- ==== Sys2Proof/Machine/Windows.lean ====
section
/-! DEFINITION. The page-6 window instructions (18_event_windows R330 to R336). -/

namespace Sys2Proof.Machine

/-! ## WMARK and WIDLE (R331, R332) -/

/-- The out port that a k field is bound to, of either item kind. -/
def Thread.outPort (t : Thread) (n : Nat) : Res Binding :=
  match t.kb n with
  | none => trapWith causeBADOPND 0
  | some b => if b.isIn then trapWith causeBADOPND 0 else .ok b

/-- WMARK. -/
def execWmark (o : Op) (s : State) : Out :=
  s.run (o.sx s.q) [] (fun c s => do
    let b ← c.t.outPort (kOf o.d)
    let v := c.sval o
    require (v.toNat < 2 ^ 48)
    c.s.portFree b (kOf o.d)
    pure (s.startOp b.port (coreOf c.k) c.t.limit (.wmark (v.setWidth 48)) .none false true))

/-- WIDLE. -/
def execWidle (o : Op) (s : State) : Out :=
  s.run (o.sx s.q) [] (fun c s => do
    let b ← c.t.outPort (kOf o.d)
    let v := c.sval o
    require (v == 0 || v == noMeta || (1000 ≤ v.toNat && v.toNat ≤ 1000000000))
    c.s.portFree b (kOf o.d)
    pure (s.startOp b.port (coreOf c.k) c.t.limit (.widle v) .none false true))

/-! ## WBIND (R322, R333) -/

/-- A binding descriptor's fields (R322). -/
structure WDesc where
  tlk : Nat
  sk : Nat
  slide : Nat
  npw : Nat
  late : Nat
  paneBase : Nat
  cap : Nat
  npane : Nat
  pubBase : Nat
  npub : Nat

/-- A descriptor of 64 bytes read and checked against the limits of R322. -/
def parseWDesc (x : Nat) : Option WDesc :=
  let w (i : Nat) := x / 2 ^ (64 * i) % 2 ^ 64
  let d : WDesc := ⟨bits (w 0) 13 8, bits (w 0) 5 0, bits (w 1) 47 0, bits (w 2) 51 48 + 1, bits (w 2) 47 0, bits (w 3) 55 0,
    bits (w 4) 63 32, bits (w 4) 15 0, bits (w 5) 55 0, bits (w 6) 16 0⟩
  if bits (w 0) 63 14 != 0 || bits (w 0) 7 6 != 0 || bits (w 1) 63 48 != 0 || bits (w 2) 63 52 != 0 || bits (w 3) 63 56 != 0 ||
      bits (w 4) 31 16 != 0 || bits (w 5) 63 56 != 0 || bits (w 6) 63 17 != 0 || w 7 != 0 || d.slide = 0 || d.late = 0xFFFFFFFFFFFF ||
      d.paneBase % 64 != 0 || d.cap = 0 || 65536 < d.cap || d.npane < d.npw + 1 || 4096 < d.npane || d.pubBase % 32 != 0 || d.npub = 0 ||
      65536 < d.npub then none
  else some d

/-- The binding of a register number named in a descriptor, if it is a k register bound in a direction. -/
def Thread.namedPort (t : Thread) (n : Nat) (isIn : Bool) : Option Binding :=
  if isK n then (match t.kb (kIndex n) with
    | some b => if b.isIn == isIn then some b else none
    | none => none)
  else none

/-- The size of a descriptor's pane ring (R323). -/
def WDesc.ring (d : WDesc) (isV : Bool) : Nat := d.npane * (64 + d.cap * (if isV then 128 else 16))

/-- The lowest pane that has not expired under a watermark (R323); under a closed one every pane has, and P0 is 0 (log 24). -/
def WDesc.firstPane (d : WDesc) (wb : Nat) : Nat :=
  let lim := d.npw * d.slide + d.late
  if wb = closedTime || wb ≤ lim then 0 else (wb - lim + d.slide - 1) / d.slide

/-- W and IDLE of an in port as its Carder holds them (R320). -/
def State.portMark (s : State) (p : PortId) : BitVec 48 × Bool :=
  match s.conn p.die p.con with
  | none => (0, false)
  | some c => ((mget c.regions (c.desc p.port).region).bind (fun r => mget r.marks (c.desc p.port).endpt)).getD (0, false)

/-- A binding made in a free record (R333): headers written, ports moved, the first take issued. -/
def State.bindWindow (s : State) (c : Cx) (d : WDesc) (cl bi : Nat) (b : Binding) (tl : Option Binding) : State :=
  let m := s.portMark b.port
  let p0 := d.firstPane m.1.toNat
  let x : BrimB :=
    { tid := c.t.tid, part := c.t.partN, dom := c.t.domN, port := b.port, tlPort := tl.map (·.port), isV := b.isV, slide := d.slide
      npw := d.npw, late := d.late, paneBase := d.paneBase, cap := d.cap, npane := d.npane, pubBase := d.pubBase, npub := d.npub
      wb := m.1, idle := m.2, p0 := p0, counts := [], wins := [], maxPane := none, drop := 0, ovf := 0, lateCnt := 0, hold := none
      waiting := [], tlWait := false, drain := false, dead := false, tail := 0 }
  let gen := ((mget (s.cluster cl).brim bi).map (·.gen)).getD 0
  let s := s.modCluster cl (fun y => { y with brim := mput y.brim bi ⟨gen, some x⟩ })
  let s := s.modPort b.port (fun y => { y with holder := some (.brim cl bi) })
  let s := match tl with
    | some t => s.modPort t.port (fun y => { y with holder := some (.brimLate cl bi) })
    | none => s
  let s := s.onT c (fun t => { t with k := t.k.map (fun y => match y with
    | some z => if z.port == b.port || some z.port == tl.map (·.port) then none else some z
    | none => none) })
  ((s.paneHeaders cl bi x p0 d.npane).brimTake cl bi).brimReap cl bi

/-- WBIND. -/
def execWbind (o : Op) (s : State) : Out :=
  s.run (o.sx s.q) [.x o.dn] (fun c s => do
    let a := c.base o
    let core := coreOf c.k
    let cl := clusterOf core
    let p ← c.access a 64 64 .rd false
    let x ← c.s.readNow c.k c.t a p.loc 64
    match parseWDesc x with
    | none => trapWith causeBADOPND 0
    | some d =>
      match c.t.namedPort d.sk true with
      | none => trapWith causeBADOPND 0
      | some b => do
        let tl := c.t.namedPort d.tlk false
        require (regionOf d.paneBase == 0xF0 && scratchCl d.paneBase == cl && bits d.paneBase 18 0 + d.ring b.isV ≤ 0x60000 &&
          (d.tlk == 0 || (match tl with
            | some t => t.isV == b.isV
            | none => false)))
        let _ ← c.access d.paneBase (d.ring b.isV) 1 .wr false
        c.accessSpan d.pubBase (32 * d.npub) 1 .wr
        c.s.portFree b (kIndex d.sk)
        match tl with
        | some t => c.s.portFree t (kIndex d.tlk)
        | none => pure ()
        c.accepted (.release .die)
        match lowestFree (fun i => (c.s.brimB cl i).isSome) 256 0 with
        | none => parkOn (.brimFree cl)
        | some bi =>
          let gen := ((mget (s.cluster cl).brim bi).map (·.gen)).getD 0
          ((s.claimRead c.t p.loc).bindWindow c d cl bi b tl).oweX c o.dn (dw (brimHandle gen cl bi)) 0 false false)

/-! ## WNEXT, WPUB and WAMEND (R334, R335) -/

/-- WNEXT: what plain reads have not popped of the head record, zeros before. -/
def execWnext (o : Op) (s : State) : Out :=
  s.run [] ((List.range 4).map (fun i => Dst.x (o.dn + i))) (fun c s =>
    match c.t.q2 with
    | [] => parkOn .wake2
    | r :: _ =>
      let ws := (List.range 4).map (fun i =>
        (RegRef.g (o.dn + i), (if i < c.t.q2pos then 0 else r.getD i 0).setWidth 512))
      .ok ((s.onT c (fun t => { t with q2 := t.q2.drop 1, q2pos := 0 })).owe c.k ws none 0 false true))

/-- The binding and window that an id names, if its wake is popped and outstanding (R335): cluster, binding and window number. -/
def State.windowOf (s : State) (t : Thread) (cl id : Nat) : Option (Nat × BrimB × Nat) :=
  let bi := bits id 63 56
  let e := bits id 47 0
  match s.brimB cl bi with
  | none => none
  | some b =>
    let k := e / b.slide - b.npw
    if bits id 55 48 != 0 || b.tid != t.tid || e != b.winEnd k || !b.winOut k || t.q2.any (fun r => r.headD 0 == dw id) then none
    else some (bi, b, k)

/-- A publication (R335, R328); `amend` for WAMEND. The entry is written once the .die release conditions hold, carrying its die's clock to
another die (R105), then its first doubleword becomes full (log 25). -/
def State.publish (s : State) (o : Op) (amend : Bool) : Out :=
  s.run ([.x o.sn 0 s.q.ts, .x (o.sn + 1) 0 s.q.ts] ++ o.dx s.q) [] (fun c s => do
    let cl := clusterOf (coreOf c.k)
    let id := (c.dval o).toNat
    match c.s.windowOf c.t cl id with
    | none => trapWith causeBADOPND 0
    | some (bi, b, k) => do
      let no : Nat ← (match mget b.wins k, amend with
        | some .woken, false => .ok 0
        | some (.amending n), true => .ok n
        | _, _ => trapWith causeBADOPND 0)
      let va := (b.pubBase + 32 * b.tail) % 2 ^ 56
      let p ← c.access va 32 8 .wr false
      if c.s.mem.fe p.loc then parkOn (.pubEntry cl bi)
      c.accepted (.release .die)
      let _ ← c.s.readNow c.k c.t va p.loc 32
      let v := id + no * 2 ^ 64 + (c.t.gv o.sn).toNat * 2 ^ 128 + (c.t.gv (o.sn + 1)).toNat * 2 ^ 192
      let s := ((s.claimFor c p).engLeaves (dieOfCore (coreOf c.k)) p.loc).write p.loc 32 v
      let s := (s.putFe (some (c.k, c.t.tid)) p.loc true).wrote va p.loc ⟨c.t.domN, p.loc, c.t.tid, 0, none, none, []⟩
      let s := s.modBrim cl bi (fun b => { b with tail := (b.tail + 1) % b.npub, wins := mput b.wins k (.published no) })
      pure ((((s.release cl bi).brimAgain cl bi).brimDrained cl bi).brimReap cl bi))

/-- WPUB. -/
def execWpub (o : Op) (s : State) : Out := s.publish o false
/-- WAMEND. -/
def execWamend (o : Op) (s : State) : Out := s.publish o true

/-! ## WCLOSE (R336) -/

/-- The status word of a live binding. -/
def BrimB.status (b : BrimB) : Nat :=
  b.drop * 2 ^ 48 + b.ovf * 2 ^ 32 + b.lateCnt * 2 ^ 16 + min 255 (b.wins.filter (fun w => w.2.isOut)).length * 2 ^ 8 +
  (if b.hold.isSome then 4 else 0) + (if b.drain then 2 else 0) + 1

/-- WCLOSE: by the value of T. -/
def State.wclose (s : State) (o : Op) : Out :=
  s.run (o.sx s.q ++ o.tx s.q) [.x o.dn] (fun c s => do
    let (cl, bi, b) ← c.s.checkBrim c.t (c.sval o).toNat
    let t := (c.tvalZ o).toNat
    require (t ≤ 3)
    match t with
    | 0 => ((s.brimDrain cl bi).brimReap cl bi).oweX c o.dn 0 0 false false
    | 1 => (s.brimDiscard cl bi).oweX c o.dn 0 0 false false
    | 2 => s.oweX c o.dn (dw b.status) 0 false false
    | _ => s.oweX c o.dn (dw (b.wb.toNat + (if b.idle then 2 ^ 63 else 0))) 0 false false)

/-- WCLOSE with T = 0, or with T in a register. -/
def execWcloseDrain (o : Op) (s : State) : Out := s.wclose o
/-- WCLOSE with T = 1. -/
def execWcloseDiscard (o : Op) (s : State) : Out := s.wclose o
/-- WCLOSE with T = 2. -/
def execWcloseStatus (o : Op) (s : State) : Out := s.wclose o
/-- WCLOSE with T = 3. -/
def execWcloseWatermark (o : Op) (s : State) : Out := s.wclose o

end Sys2Proof.Machine
end

