-- ==== Sys2Proof/Machine/EvPort.lean ====
section
/-! DEFINITION. The hardware's own steps of ports, Carders and Brims (16_connectors R275 to R289, 17 R310, R311, 18 R313 to R327,
24 R386), and the operand forms k, q, evq and msg as steps of their own (02 R22 to R25, R33). -/

namespace Sys2Proof.Machine

/-! ## Requests and steps (R284) -/

/-- PORT_REQUEST_ARRIVAL: an operation or its withdrawal has reached the Carder. -/
def execPortRequestArrival (s : State) : Out :=
  .next (match s.arg with
    | .port p =>
      match (s.port p).bind (·.op), s.carderOfPort p with
      | some o, some c =>
        if o.sent then (s.modPort p (fun x => { x with op := x.op.map (fun o => { o with seen := true }) })).wantStep c else s
      | _, _ => s
    | _ => s)

/-- CARDER_STEP. -/
def execCarderStep (s : State) : Out :=
  .next (match s.arg with
    | .carder c => s.carderStep c
    | _ => s)

/-- IDLE_TIMEOUT: the port's Carder looks at it in its next step, that of this cycle included (R315). -/
def execIdleTimeout (s : State) : Out :=
  .next (match s.arg with
    | .port p => match s.carderOfPort p with
      | some c => if s.stepsNow c then s.wantStepAt s.cycle c else s.wantStep c
      | none => s
    | _ => s)

/-! ## Completions (R24, R276, R287, R288, R301 to R303) -/

/-- The registers a completion writes. -/
def Thread.complete1 (t : Thread) (o : POp) (d : PDone) : Thread :=
  let fired := match d with
    | .fired _ _ => true
    | .notFired => false
  let lost := !fired && o.expired && o.tie
  let it : Item := match d with
    | .fired _ (some x) => x
    | _ => ⟨0, 0⟩
  let t := match o.dest, d with
    | .preds p, .fired dl _ => (t.setP p dl).setP (p + 1) true
    | .preds p, .notFired => if lost then (t.markReg (.p p)).markReg (.p (p + 1)) else (t.setP p false).setP (p + 1) false
    | .getg g, .fired _ _ => (t.setG g (it.data.setWidth 64)).setG (g + 1) it.tag
    | .getg g, .notFired => if lost then (t.markReg (.g g)).markReg (.g (g + 1)) else (t.setG g 0).setG (g + 1) noMeta
    | .getv v g, .fired _ _ => (t.setV v it.data).setG g it.tag
    | .getv v g, .notFired => if lost then (t.markReg (.v v)).markReg (.g g) else (t.setV v 0).setG g noMeta
    | .deliver n, .fired _ x => match t.kb n with
      | some b => t.setKb n (some { b with item := x, taking := false })
      | none => t
    | .deliver n, .notFired => match t.kb n with
      | some b => t.setKb n (some { b with taking := false, item := if t.run == .parked (.take n) && !lost then some ⟨0, 0⟩ else b.item })
      | none => t
    | .none, _ => t
  o.wdDest.foldl (fun t p => t.setP p fired) t

/-- The completion of an operation at the thread that holds the port (in a slot, or kept with its image, R352): registers, the taken item's clock (R289), and the WAITLIM trap of
a k source whose limit expired (R276). -/
def State.completeAt (s : State) (p : PortId) (tid : Nat) (o : POp) (d : PDone) : State :=
  match s.slotOfTid tid with
  | none => (s.modPort p (fun x => { x with op := none })).modTid tid (fun t => t.complete1 o d)
  | some k =>
    let s := s.modPort p (fun x => { x with op := none })
    let s := match d with
      | .fired _ (some _) => s.mergeClk (dieOfCore (coreOf k)) o.clk
      | _ => s
    let trap : Bool := match s.thread k, o.dest, d with
      | some t, .deliver n, .notFired => o.expired && o.tie && t.run == .parked (.take n)
      | _, _, _ => false
    let s := s.modT k (fun t => t.complete1 o d)
    if trap then (s.wakeThread k).takeTrap k causeWAITLIM 0 0 else s

/-- PORT_COMPLETION_ARRIVAL: by the port's holder. -/
def execPortCompletionArrival (s : State) : Out :=
  .next (match s.arg with
    | .port p =>
      match s.port p with
      | none => s
      | some x =>
        match x.op with
        | none => s
        | some o =>
          match o.fin with
          | none => s
          | some d =>
            match x.holder with
            | some (.slot tid _) => s.completeAt p tid o d
            | some (.brim _ _) => s.push .brimRecord (.port p)
            | some (.brimLate cl bi) =>
              let s := (s.modPort p (fun x => { x with op := none })).modBrim cl bi (fun b => { b with tlWait := false })
              ((s.brimAgain cl bi).brimDrained cl bi).brimReap cl bi
            | some (.ingress _) => s.push .ingressOpComplete (.port p)
            | none => s.modPort p (fun x => { x with op := none })
    | _ => s)

/-- CARDER_COMPLETION_TIMEOUT: a completion that is not acknowledged is sent again (R386); one already completed is ignored. -/
def execCarderCompletionTimeout (s : State) : Out :=
  .next (match s.arg with
    | .port p =>
      match (s.port p).bind (·.op) with
      | some o => if o.fin.isSome then s.pushOnce .portCompletionArrival (.port p) else s
      | none => s
    | _ => s)

/-! ## Buffers (R283, R310, R319) -/

/-- The Carder of a region of a running connector. -/
def State.carderOfRegion (s : State) (d c r : Nat) : Option CarderId :=
  match s.conn d c with
  | none => none
  | some x => if x.running then (mget x.regions r).map (·.carder) else none

/-- The state with a step wanted at a region's Carder. -/
def State.wantRegion (s : State) (d c r : Nat) : State :=
  match s.carderOfRegion d c r with
  | some k => s.wantStep k
  | none => s

/-- An entry behind those held at an output end; of two tokens with no item between the later stands (R319). -/
def heldAdd (l : List BufEnt) (e : BufEnt) : List BufEnt :=
  match l.getLast?, e with
  | some (.token _ _), .token _ _ => l.dropLast ++ [e]
  | _, _ => l ++ [e]

/-- The oldest entry on its way arrives at the output end's Carder. -/
def State.bufArrive (s : State) (b : BufId) : State :=
  match s.conn b.die b.con with
  | none => s
  | some c =>
    match (mget c.bufs b.buf), c.image.bufs[b.buf]? with
    | some x, some d =>
      match x.flight with
      | [] => s
      | e :: l =>
        (s.modConn b.die b.con (fun c => { c with bufs := mput c.bufs b.buf { x with flight := l, held := heldAdd x.held e } })).wantRegion
          b.die b.con d.oreg
    | _, _ => s

/-- BUFFER_ITEM_ARRIVAL. -/
def execBufferItemArrival (s : State) : Out :=
  .next (match s.arg with
    | .buf b => s.bufArrive b
    | _ => s)

/-- WATERMARK_TOKEN_ARRIVAL. -/
def execWatermarkTokenArrival (s : State) : Out :=
  .next (match s.arg with
    | .buf b => s.bufArrive b
    | _ => s)

/-- CREDIT_ARRIVAL: one credit back at the input end's Carder. -/
def execCreditArrival (s : State) : Out :=
  .next (match s.arg with
    | .buf b =>
      match s.conn b.die b.con with
      | none => s
      | some c =>
        match (mget c.bufs b.buf), c.image.bufs[b.buf]? with
        | some x, some d =>
          if x.creditsIn = 0 then s
          else (s.modConn b.die b.con (fun c => { c with
            bufs := mput c.bufs b.buf { x with creditsIn := x.creditsIn - 1, credits := x.credits + 1 } })).wantRegion b.die b.con d.ireg
        | _, _ => s
    | _ => s)

/-! ## The Brim (R324, R325) -/

/-- BRIM_RECORD: a take of a binding completed at its Brim; the item's clock is merged (R289). -/
def execBrimRecord (s : State) : Out :=
  .next (match s.arg with
    | .port p =>
      match s.port p with
      | none => s
      | some x =>
        match x.holder, x.op with
        | some (.brim cl bi), some o =>
          match o.fin with
          | none => s
          | some d =>
            let s := s.modPort p (fun x => { x with op := none })
            let s := match d with
              | .fired _ (some it) => (s.mergeClk (dieOfCluster cl) o.clk).brimArrive cl bi (.item it)
              | _ => s
            ((s.brimTake cl bi).brimDrained cl bi).brimReap cl bi
        | _, _ => s
    | _ => s)

/-- BRIM_WATERMARK_MESSAGE. -/
def execBrimWatermarkMessage (s : State) : Out :=
  .next (match s.arg with
    | .wm cl bi w idle => (s.brimWatermark cl bi w idle).brimReap cl bi
    | _ => s)

/-! ## Operand forms as steps (R22, R24, R25, R33, R276)

An instruction makes these as part of its own course; as events they act on the slot that their operands name. -/

/-- K_SOURCE_TAKE: a take sent for k register i of a slot, if it is bound to an in port of g items and none is under way. -/
def execKSourceTake (s : State) : Out :=
  .next (match s.arg with
    | .n2 k i =>
      match s.thread k with
      | none => s
      | some t =>
        match takeStop s k t i false with
        | .error ⟨.park (.take _), eff⟩ => eff s
        | _ => s
    | _ => s)

/-- The context in which an operand-form event acts: that of an instruction of the slot. -/
def State.formCx (s : State) (k : Key) (t : Thread) : Cx := ⟨k, t, .plain, s⟩

/-- A register number written with a value, if its checks pass. -/
def State.formPut (s : State) (k : Key) (n : Nat) (v : DW) : State :=
  match s.thread k with
  | none => s
  | some t =>
    match checkDst s t k false (.x n) with
    | .error _ => s
    | .ok _ =>
      match s.putX (s.formCx k t) n v with
      | .ok s' => s'
      | .error h => s.stopped k t h

/-- K_DESTINATION_OFFER: a value offered at k register number n. -/
def execKDestinationOffer (s : State) : Out :=
  .next (match s.arg with
    | .val k n v => if isK n then s.formPut k n v else s
    | _ => s)

/-- Q_POP: the oldest doubleword of queue qn of a slot popped. -/
def execQPop (s : State) : Out :=
  .next (match s.arg with
    | .n2 k n => if n < 4 then s.modT k (fun t => t.popQueue n) else s
    | _ => s)

/-- Q_ENGINE_PUSH: a value pushed at q register number n. -/
def execQEnginePush (s : State) : Out :=
  .next (match s.arg with
    | .val k n v => if isQdst n then s.formPut k n v else s
    | _ => s)

/-- EVQ_POP: the oldest doubleword of a service core's event queue popped. -/
def execEvqPop (s : State) : Out :=
  .next (match s.arg with
    | .n1 core => if isService core then s.modCore core (fun c => { c with evq := c.evq.drop 1 }) else s
    | _ => s)

/-- MSG_WRITE: a value written to a service core's message port. -/
def execMsgWrite (s : State) : Out :=
  .next (match s.arg with
    | .val k _ v => if isService (coreOf k) then s.formPut k 57 v else s
    | _ => s)

end Sys2Proof.Machine
end

