-- ==== Sys2Proof/Machine/Traps.lean ====
section
/-! DEFINITION. TRAP, BRK, TRET, JRNL and JRCL (22_traps R378 to R383). -/

namespace Sys2Proof.Machine

/-! ## Taking a trap by instruction (R379) -/

/-- TRAP: an exact SOFT trap, TRAPADDR being T[55:0]. -/
def execTrap (o : Op) (s : State) : Out :=
  s.run (o.tx s.q) [] (fun c _ => trapWith causeSOFT ((c.tvalZ o).toNat % 2 ^ 56))

/-- BRK: an exact BRK trap. -/
def execBrk (s : State) : Out := s.run [] [] (fun _ _ => trapWith causeBRK 0)

/-! ## Returning (R380) -/

/-- The halfword of code at an address, as a fetch of the thread gives it. -/
def State.codeHalf (s : State) (k : Key) (t : Thread) (va : Nat) : Res Nat :=
  match s.fetchLine k t va with
  | .error h => .error h
  | .ok (a :: b :: _) => .ok (halfOf a b).toNat
  | .ok _ => .ok 0

/-- The page that a run of prefix halfwords selects: that of its last PAGE halfword, 0 without one. -/
def pageAfter (page x : Nat) : Nat := if x / 1024 = 62 then bits x 9 6 else page

/-- The length in halfwords that TRET 1 skips from an address on (R380): every consecutive prefix, the halfword after them,
and 8 more when that is an instruction marked P on its page. -/
def State.skipFrom (s : State) (k : Key) (t : Thread) : Nat → Nat → Nat → Res Nat
  | 0, _, _ => .ok 0
  | fuel + 1, page, va => do
    let x ← s.codeHalf k t (va % 2 ^ 56)
    if 0xF000 ≤ x then
      let n ← s.skipFrom k t fuel (pageAfter page x) (va + 2)
      pure (n + 1)
    else
      pure (match lookupOp page (x / 1024) with
        | some m => if m.row.form == .blk then 9 else 1
        | none => 1)

/-- The six doublewords of a trap frame that TRET reads (R369, R380), with its place. -/
def Cx.readFrame (c : Cx) : Res (Place × (Nat → DW)) := do
  let f := c.s.frameVa c.k
  let p ← c.access f 48 8 .rd false
  let x ← c.s.readNow c.k c.t f p.loc 48
  pure (p, fun i => dw (x / 2 ^ (64 * i)))

/-- Whether the current thread is in a trap handler (R29). -/
def State.inTrap (s : State) : Bool := (s.thread s.cur).any (fun t => t.thsBit thsINTRAP)

/-- TRET, by the value of T: outside a trap handler illegal as decoded (R383). A frame that fails its checks traps with INTRAP 1, which
ends the thread with cause DOUBLE (R370). The target is TRAPPC with bit 0 clear (R40). -/
def State.tret (s : State) (o : Op) : Out :=
  if !s.inTrap then s.illegal
  else s.run (o.tx s.q) [] (fun c s => do
    let t := (c.tvalZ o).toNat
    require (t ≤ 1)
    if c.t.owesFrame then parkOn .owedRegs
    let f ← c.readFrame
    let pc := regTarget (c.t.trappc.setWidth 64)
    let n ← if t = 0 then pure 0 else c.s.skipFrom c.k c.t (2 ^ 55) 0 pc.toNat
    pure ((s.claimFor c f.1).onT c (fun x => { x.restored f.2 with pc := pc + BitVec.ofNat 56 (2 * n) })))

/-- TRET with mode 0, or a mode in a register. -/
def execTretReissue (o : Op) (s : State) : Out := s.tret o
/-- TRET with mode 1. -/
def execTretSkip (o : Op) (s : State) : Out := s.tret o

/-! ## The journal (R381, R382) -/

/-- A journal entry of the issuing thread, or BADOPND. -/
def Cx.journalOf (c : Cx) (j : Nat) : Res JEnt :=
  match mget (c.s.core (coreOf c.k)).journal j with
  | some e => if e.tid = c.t.tid then .ok e else trapWith causeBADOPND 0
  | none => trapWith causeBADOPND 0

/-- CAUSE of a journal entry: 0 while it is PENDING. -/
def JEnt.cause (e : JEnt) : Nat :=
  match e.st with
  | .pending => 0
  | .refused c => c.toNat

/-- JRNL: cause and address, then the data. -/
def execJrnl (o : Op) (s : State) : Out :=
  s.run (o.tx s.q) [.x o.dn, .x (o.dn + 1)] (fun c s => do
    let t := (c.tvalZ o).toNat
    require (t < 64)
    let e ← c.journalOf t
    let s ← s.putX c o.dn (dw (e.cause * 2 ^ 56 + e.a.toNat))
    s.putX c (o.dn + 1) e.data)

/-- The data of a refused entry written again at an address, as an STP issued now (R382): gd is owed the outcome. -/
def State.replay (s : State) (c : Cx) (d j : Nat) (e : JEnt) (va : Nat) : Res State := do
  let p ← c.access va 8 8 .wr true
  let s := s.modCore (coreOf c.k) (fun x => { x with
    journal := mput x.journal j { e with k := c.k, dom := c.t.domN, loc := p.loc, id := s.nextId, left := p.refuse.isNone, a := addr va, st := .pending, replay := some d } })
  pure (((s.claimFor c p).post c j va p e.data).onT c (fun t => t.oweReg (.g d)))

/-- The action that T selects, as far as it is known before the sources are checked: s is read for action 2 only. -/
def State.jrclAction (s : State) (o : Op) : Nat :=
  match o.t, s.thread s.cur with
  | .imm v, _ => bits v.toNat 7 6
  | .reg r, some t => if t.isFull (.g r.toNat) then bits (Cx.get ⟨s.cur, t, s.q, s⟩ r.toNat 0).toNat 7 6 else 0
  | .reg _, none => 0

/-- JRCL, by the value of T. -/
def State.jrcl (s : State) (o : Op) : Out :=
  s.run ((if s.jrclAction o == 2 then o.sx s.q else []) ++ o.tx s.q) [.x o.dn] (fun c s => do
    let t := (c.tvalZ o).toNat
    require (t < 256 && t / 64 ≤ 2)
    let j := t % 64
    let e ← c.journalOf j
    require (e.st != .pending)
    match t / 64 with
    | 0 => (s.modCore (coreOf c.k) (fun x => { x with journal := mdel x.journal j })).oweX c o.dn 0 0 false false
    | 1 => s.replay c o.dn j e e.a.toNat
    | _ => s.replay c o.dn j e ((c.sval o).toNat % 2 ^ 56))

/-- JRCL with action 0, or an action in a register. -/
def execJrclFree (o : Op) (s : State) : Out := s.jrcl o
/-- JRCL with action 1. -/
def execJrclReplay (o : Op) (s : State) : Out := s.jrcl o
/-- JRCL with action 2. -/
def execJrclRedirect (o : Op) (s : State) : Out := s.jrcl o

end Sys2Proof.Machine
end

