-- ==== Sys2Proof/Machine/Priv.lean ====
section
/-! DEFINITION. The privileged instructions PLBI, CTXS, CTXL, HALT, DOMSW, WAYM, SCRUB and PREEMPT (21_isolation R356 to R364). -/

namespace Sys2Proof.Machine

/-- The exact ILLEGAL trap of a mode that only service cores may use (R356, R364). -/
def Cx.serviceOnly (c : Cx) : Res Unit := if isService (coreOf c.k) then .ok () else trapWith causeILLEGAL 0

/-! ## PLBI (R357) -/

/-- The PLB entries that stay on a core. -/
def State.plbKeep (s : State) (core : Key) (f : Range → Bool) : State := s.modCore core (fun c => { c with plb := c.plb.filter f })

/-- PLBI, by the value of T. -/
def State.plbi (s : State) (o : Op) : Out :=
  s.run (o.sx s.q ++ o.tx s.q) [] (fun c s => do
    let t := (c.tvalZ o).toNat
    let v := (c.sval o).toNat
    require (t ≤ 2)
    if t = 2 then c.serviceOnly
    require (t != 2 || v < 4096)
    if !c.s.releasedNow c.k c.t .package then parkOn (.release .package)
    match t with
    | 0 => .ok (s.plbKeep (coreOf c.k) (fun r => !(r.dom == c.t.domN && r.covers (v % 2 ^ 56) 1)))
    | 1 => .ok (s.plbKeep (coreOf c.k) (fun r => r.dom != c.t.domN))
    | _ => .ok { s with cores := s.cores.map (fun e => (e.1, { e.2 with plb := e.2.plb.filter (fun r => r.dom != v) })) })

/-- PLBI with mode 0, or a mode in a register. -/
def execPlbiAddress (o : Op) (s : State) : Out := s.plbi o
/-- PLBI with mode 1. -/
def execPlbiCore (o : Op) (s : State) : Out := s.plbi o
/-- PLBI with mode 2. -/
def execPlbiModule (o : Op) (s : State) : Out := s.plbi o

/-! ## Context images (R360) -/

/-- Doubleword i of a thread's image. -/
def Thread.imageWord (t : Thread) (i : Nat) : Nat :=
  let sg (j : Nat) : RegCell 64 := t.shadow.g.toList.getD j (RegCell.zero 64)
  if i < 24 then (t.gv i).toNat
  else if 32 ≤ i && i < 96 then (t.vv ((i - 32) / 8)).toNat / 2 ^ (64 * ((i - 32) % 8)) % 2 ^ 64
  else if 105 ≤ i && i < 109 then (sg (i - 105)).val.toNat
  else match i with
    | 24 => t.pc.toNat
    | 25 => predWord t.p + predFe t.p * 2 ^ 32
    | 26 => bitsOf (·.full) t.g.toList + t.fmode.toNat * 2 ^ 32
    | 27 => t.ths.toNat
    | 28 => t.waitlim.toNat
    | 29 => t.retrylim.toNat
    | 30 => t.launchid.toNat
    | 31 => t.graphid.toNat
    | 96 => bitsOf (·.full) t.v.toList
    | 97 => t.qmap.toNat
    | 98 => t.uivec.toNat
    | 99 => t.trapcause.toNat
    | 100 => t.trappc.toNat
    | 101 => t.trapaddr.toNat
    | 102 => t.pmeta.toNat
    | 103 => t.shadow.pc.toNat
    | 104 => predWord t.shadow.p + predFe t.shadow.p * 2 ^ 32
    | 109 => t.part.toNat + t.domain.toNat * 2 ^ 16 + bitsOf (·.full) t.shadow.g.toList * 2 ^ 32
    | 110 => bitsOf (·.mark) t.g.toList + bitsOf (·.mark) t.v.toList * 2 ^ 24 + bitsOf (·.mark) t.p.toList / 2 * 2 ^ 33
    | _ => 0

/-- Doubleword i of an image of 1,024 bytes. -/
def imgWord (x i : Nat) : Nat := x / 2 ^ (64 * i) % 2 ^ 64

/-- The bits of THS that exist (R29). -/
def thsMask : DW := 0x1F0000FC00

/-- The thread of an image (R360). -/
def threadOfImage (x tid : Nat) : Thread :=
  let w := imgWord x
  let marks := w 110
  let ps := predsFrom (bits (w 25) 31 0) (bits (w 25) 63 32)
  { Thread.start with
    tid := tid
    g := Vector.ofFn (fun i => ⟨dw (w i.val), bit (w 26) i.val, !bit (w 26) i.val && bit marks i.val, false⟩)
    p := Vector.ofFn (fun i =>
      let c := ps.toList.getD i.val (RegCell.zero 1)
      { c with mark := !c.full && i.val != 0 && bit marks (32 + i.val) })
    v := Vector.ofFn (fun i => ⟨BitVec.ofNat 512 (x / 2 ^ (64 * (32 + 8 * i.val))), bit (w 96) i.val,
      !bit (w 96) i.val && bit marks (24 + i.val), false⟩)
    pc := regTarget (dw (w 24))
    fmode := fmodeFrom (dw (bits (w 26) 63 32))
    ths := dw (w 27) &&& thsMask
    waitlim := BitVec.ofNat 40 (w 28)
    retrylim := BitVec.ofNat 16 (w 29)
    launchid := BitVec.ofNat 32 (w 30)
    graphid := BitVec.ofNat 32 (w 31)
    qmap := qmapFrom (dw (w 97))
    uivec := regTarget (dw (w 98))
    trapcause := BitVec.ofNat 16 (w 99)
    trappc := addr (w 100)
    trapaddr := addr (w 101)
    pmeta := dw (w 102)
    shadow := ⟨regTarget (dw (w 103)), predsFrom (bits (w 104) 31 0) (bits (w 104) 63 32),
      Vector.ofFn (fun i => ⟨dw (w (105 + i.val)), bit (w 109) (32 + i.val), false, false⟩)⟩
    part := BitVec.ofNat 5 (w 109)
    domain := BitVec.ofNat 12 (bits (w 109) 27 16) }

/-- Whether a thread may not be saved (R360, code 2). -/
def State.unmovable (s : State) (k : Key) (t : Thread) : Bool :=
  t.k.toList.any Option.isSome || t.lease != .none || t.tgt.toList.any Option.isSome ||
  (match t.watch with
    | .armed _ _ => true
    | _ => false) ||
  !t.q0.isEmpty || !t.q1.isEmpty || !t.q2.isEmpty || !t.q3.isEmpty || !(t.fifo.toList.all List.isEmpty) ||
  (s.core (coreOf k)).journal.any (fun e => e.2.tid == t.tid) ||
  s.clusters.any (fun c => c.2.copyq.any (fun x => x.tid == t.tid) || c.2.brim.any (fun r => match r.2.b with
    | some b => b.tid == t.tid
    | none => false)) ||
  s.groups.any (fun g => g.2.plank.queue.any (fun x => x.tid == t.tid)) ||
  s.io.sendqs.any (fun q => q.2.msgs.any (fun m => m.tid == t.tid))

/-- The target slot of CTXS and CTXL and the place of the image, checked (R360, R364, R367). -/
def Cx.imageAt (c : Cx) (o : Op) (rt : Right) : Res (Key × Place) := do
  let a := (c.tval o).toNat % 2 ^ 56
  require (a % 1024 == 0)
  let p ← c.access a 1024 1 rt false
  require (bits (c.sval o).toNat 19 16 < 8 && !coordReserved (c.sval o).toNat)
  if c.s.locBusy c.k c.t.tid a 1024 || c.s.ownedBusy c.t.domN a 1024 .anyone then parkOn (.loc (addr a) 1024)
  if !c.s.joined (homeDie p.loc) then parkOn (.gate (homeDie p.loc))
  pure (slotOfCoord (c.sval o).toNat, p)

/-- An image written at its place, each line of it entering the write buffer of its home (R113, R360). -/
def State.writeImage (s : State) (dom : Nat) (p : Place) (t : Thread) : State :=
  (List.range 8).foldl (fun s j =>
    let loc := p.loc + 128 * j
    ((List.range 16).foldl (fun s i => s.write (loc + 8 * i) 8 (t.imageWord (16 * j + i))) s).wrote (p.va + 128 * j) loc
      ⟨dom, loc, 0, 0, none, none, []⟩) s

/-- CTXS. The target issues nothing more while its context is made ready to leave (R21). -/
def execCtxs (o : Op) (s : State) : Out :=
  s.runIn true false (o.sx s.q ++ o.tx s.q) [.x o.dn] (fun c s => do
    let (k, p) ← c.imageAt o .wr
    match c.s.thread k with
    | none => s.oweX c o.dn 1 0 false false
    | some t =>
      if c.s.unmovable k t then s.oweX c o.dn 2 0 false false
      else if !(t.mayLeave && c.s.settled k t) || t.thsBit thsCANP then
        .error ⟨.park (.quiet k t.tid), fun s => s.modT k (fun t => { t with leaving := some false })⟩
      else
        let s := (((s.claimFor c p).sendDuty t).dropWait t).writeImage c.t.domN p t
        let s : State := { s with threads := mdel s.threads k }
        (s.offerSlots (clusterOf (coreOf k))).oweX c o.dn 0 0 false false)

/-- CTXL. The thread fetches anew on the core that it comes to (R42). -/
def execCtxl (o : Op) (s : State) : Out :=
  s.runIn true false (o.sx s.q ++ o.tx s.q) [.x o.dn] (fun c s => do
    let (k, p) ← c.imageAt o .rd
    let x ← c.s.readNow c.k c.t p.va p.loc 1024
    require (x / 2 ^ (64 * 111) == 0 && bits (imgWord x 29) 63 32 == 0)
    let t := threadOfImage x s.nextId
    let s := s.claimFor c p
    if !((s.freeSlots (coreOf k)).contains k) then s.oweX c o.dn 1 0 false false
    else if !(s.inPart t.partN (groupOf (coreOf k)) && s.residentOn t.partN (groupOf (coreOf k))) then s.oweX c o.dn 2 0 false false
    else
      let s : State := { s with nextId := s.nextId + 1, threads := mput s.threads k t }
      (s.dropFetched (coreOf k)).oweX c o.dn 0 0 false false)

/-! ## Stopping a die (R352, R361) -/

/-- A thread that a stop reaches (R352): an instruction that is parked or held is abandoned without effect, to be issued again. -/
def Thread.abandon (t : Thread) : Thread :=
  match t.run with
  | .parked _ | .again => { t.unwait with run := .ready, pend := none, took := [], tries := 0 }
  | _ => t

/-- Whether a request is of an instruction that holds its thread. -/
def ReqKind.holding : ReqKind → Bool
  | .sync .. | .accr .. => true
  | _ => false

/-- Whether the access that holds a thread has been performed: it completes (R352). -/
def State.performedHold (s : State) (t : Thread) : Bool := s.reqs.any (fun r => r.tid == t.tid && r.fin.isSome && r.kind.holding)

/-- What a held instruction still asks of a home, withdrawn, and its thread's wake duty done (R352, R373). -/
def State.abandonAt (s : State) (k : Key) : State :=
  match s.thread k with
  | none => s
  | some t =>
    let s := ((s.sendDuty t).dropWait t).dropSync k
    let mine (r : Req) : Bool := r.tid == t.tid && r.fin.isNone && (match r.kind with
      | .accr _ _ _ => true
      | _ => false)
    let s := (s.reqs.filter mine).foldl (fun s r => match r.kind with
      | .accr d _ _ => (s.dropReq r.id).modT k (fun t => t.modG d (RegCell.unowe r.was))
      | _ => s) s
    let held := s.performedHold t
    s.modT k (fun t => { (if held then t else t.abandon) with duty := [] })

/-- Every thread of the slots that a test picks, abandoned. -/
def State.abandonAll (s : State) (f : Key → Bool) : State := s.threads.foldl (fun s e => if f e.1 then s.abandonAt e.1 else s) s

/-- The free slots of every cluster of a die offered. -/
def State.offerDie (s : State) (d : Nat) : State :=
  let cls := (s.clusters.map (·.1) ++ s.cores.map (fun c => clusterOf c.1)).eraseDups
  (cls.filter (fun cl => cl < 512 && dieOfCluster cl == d)).foldl State.offerSlots s

/-- HALT, by the value of T. -/
def State.halt (s : State) (o : Op) : Out :=
  s.runIn true false (o.sx s.q ++ o.tx s.q) [] (fun c s => do
    let t := (c.tvalZ o).toNat
    let d := (c.sval o).toNat
    require (t ≤ 2 && (t == 0 || d < 8))
    match t with
    | 0 => .ok (s.onT c (fun t => { t with run := .parked .halt }))
    | 1 => .ok ((s.modDie d (fun x => { x with fenced := true })).abandonAll (fun k => dieOfCore (coreOf k) == d))
    | _ => .ok ((s.modDie d (fun x => { x with fenced := false })).offerDie d))

/-- HALT with mode 0, or a mode in a register. -/
def execHaltSelf (o : Op) (s : State) : Out := s.halt o
/-- HALT with mode 1. -/
def execHaltFence (o : Op) (s : State) : Out := s.halt o
/-- HALT with mode 2. -/
def execHaltUnfence (o : Op) (s : State) : Out := s.halt o

/-! ## DOMSW (R362) -/

/-- DOMSW. -/
def execDomsw (o : Op) (s : State) : Out :=
  s.runIn true false (o.sx s.q) [.x o.dn] (fun c s => do
    let v := (c.sval o).toNat
    require (v < 4096)
    if !c.s.releasedNow c.k c.t .thread then parkOn (.release .thread)
    (s.onT c (fun t => { t with domain := BitVec.ofNat 12 v })).oweX c o.dn (c.t.domain.setWidth 64) 0 false false)

/-! ## WAYM (R90, R91, R358) -/

/-- WAYM, by the value of T. -/
def State.waym (s : State) (o : Op) : Out :=
  s.run (o.sx s.q ++ o.tx s.q) [.x o.dn] (fun c s => do
    let v := (c.sval o).toNat
    let t := (c.tvalZ o).toNat
    let cl := bits v 47 39
    let req := t / 2 ^ 16 == 1
    require (bits v 55 48 == 0xF0 && t < 2 ^ 17 && (req || t == 0))
    let user := !isService (coreOf c.k)
    if user && !c.s.inPart c.t.partN (groupOfCluster cl) then trapWith causePROT v
    let w := (c.s.cluster cl).wmask
    if w.getLsbD 32 then parkOn (.wayPend cl)
    let next : BitVec 16 := BitVec.ofNat 16 t
    let share := (mget (c.s.cluster cl).wshare c.t.partN).getD 0
    if user && req && ((next ^^^ w.setWidth 16) &&& ~~~share) != 0 then trapWith causePROT v
    let s := if req then
        (s.modCluster cl (fun x => { x with wmask := (w &&& 0xFFFF) ||| dw (2 ^ 32 + next.toNat * 2 ^ 16) })).push .wayChangeover (.n1 cl)
      else s
    s.oweX c o.dn w 0 false false)

/-- WAYM without a request, or a request in a register. -/
def execWaymRead (o : Op) (s : State) : Out := s.waym o
/-- WAYM with a request. -/
def execWaymRequest (o : Op) (s : State) : Out := s.waym o

/-! ## SCRUB (R349, R363) -/

/-- A scrub descriptor's fields. -/
structure ScrubDesc where
  vbase : Nat
  vdom : Nat
  grp : Key
  paddr : Nat
  nfr : Nat

/-- A descriptor of 32 bytes, if it keeps R363's limits. -/
def parseScrub (x : Nat) : Option ScrubDesc :=
  let w := imgWord x
  let d : ScrubDesc := ⟨w 0, w 1, bits (w 2) 38 36 * 16 + bits (w 2) 35 32, bits (w 2) 31 0, w 3⟩
  if 2 ^ 56 ≤ w 0 || d.vbase % 4096 != 0 || 4096 ≤ w 1 || 2 ^ 39 ≤ w 2 || d.paddr % 4096 != 0 || d.nfr = 0 || 2 ^ 20 < d.nfr
    || 2 ^ 32 < d.paddr + 4096 * d.nfr then none
  else some d

/-- The frames of a descriptor are all DIRTY (R349). -/
def State.allDirty (s : State) (d : ScrubDesc) : Bool :=
  ((s.group d.grp).frames.filter (fun f => d.paddr / 4096 ≤ f.1 && f.1 < d.paddr / 4096 + d.nfr && f.2 == .dirty)).length == d.nfr

/-- The lines of a descriptor's domain and addresses purged from every cache, dirty ones discarded (R363). -/
def State.purgeTagged (s : State) (d : ScrubDesc) : State :=
  let stays (size dom tag : Nat) : Bool := dom != d.vdom || tag * size < d.vbase || d.vbase + 4096 * d.nfr ≤ tag * size
  { s with
    cores := s.cores.map (fun c => (c.1, { c.2 with
      icache := c.2.icache.filter (fun l => stays 32 l.dom l.tag), dcache := c.2.dcache.filter (fun l => stays 32 l.dom l.tag) }))
    clusters := s.clusters.map (fun c => (c.1, { c.2 with lines := c.2.lines.filter (fun l => stays 128 l.dom l.tag) })) }

/-- n words from a place written as zero and empty: who waits for a word of them to be empty is served (R120, R121), and their watches
fire (R130). -/
def State.wipeWords (s : State) (loc n : Nat) : State :=
  let here (w : Nat) : Bool := loc / 8 ≤ w && w < loc / 8 + n
  let full := s.mem.full.filter here
  let watched := s.clusters.flatMap (fun c => (c.2.watches.map (·.loc)).filter (fun l => here (l / 8)))
  let s := (s.modMem (fun m => m.wipe loc n)).dropCopies loc (8 * n)
  let s := watched.eraseDups.foldl State.fireWatches s
  full.foldl (fun s w => s.feChanged none (8 * w) true) s

/-- The frames purged, zeroed, emptied and made CLEAN (R363). -/
def State.pounce (s : State) (d : ScrubDesc) : State :=
  ((s.purgeTagged d).wipeWords (dramLoc d.grp d.paddr) (512 * d.nfr)).modGroup d.grp (fun g =>
    { g with frames := g.frames.filter (fun f => !(d.paddr / 4096 ≤ f.1 && f.1 < d.paddr / 4096 + d.nfr)) })

/-- SCRUB. -/
def execScrub (o : Op) (s : State) : Out :=
  s.runIn true false (o.sx s.q) [.x o.dn] (fun c s => do
    let a := (c.sval o).toNat % 2 ^ 56
    let p ← c.access a 32 32 .rd false
    let x ← c.s.readNow c.k c.t a p.loc 32
    let s := s.claimFor c p
    match parseScrub x with
    | none => trapWith causeBADOPND 0
    | some d =>
      if s.allDirty d then (s.pounce d).oweX c o.dn 0 0 false false else s.oweX c o.dn 1 0 false false)

/-! ## PREEMPT (R359) -/

/-- A slot's thread asked to leave for its context cache; one that is absent or already swapping is left alone. -/
def State.preemptSlot (s : State) (k : Key) (hold : Bool) : State :=
  match s.thread k with
  | some t => if t.leaving.isSome then s else s.askLeave k t.tid hold
  | none => s

/-- The contexts held for a slot released: they become ready as others do. -/
def State.releaseHeld (s : State) (k : Key) : State :=
  let f (x : Ctx) : Ctx := if x.slot = k then { x with hold := false } else x
  (s.modCore (coreOf k) (fun c => { c with cache := c.cache.map f, backing := c.backing.map f })).modT k (fun t =>
    { t with leaving := if t.leaving == some true then some false else t.leaving })

/-- PREEMPT, by the value of T. -/
def State.preempt (s : State) (o : Op) : Out :=
  s.run (o.sx s.q ++ o.tx s.q) [] (fun c s => do
    let t := (c.tvalZ o).toNat
    let v := (c.sval o).toNat
    let k := slotOfCoord v
    require (t ≤ 2)
    if t != 0 then c.serviceOnly
    require (!coordReserved v)
    if !isService (coreOf c.k) && coreOf k != coreOf c.k then trapWith causePROT v
    match t with
    | 0 => .ok (s.preemptSlot k false)
    | 1 => .ok (s.preemptSlot k true)
    | _ => .ok (s.releaseHeld k))

/-- PREEMPT with mode 0, or a mode in a register. -/
def execPreemptReady (o : Op) (s : State) : Out := s.preempt o
/-- PREEMPT with mode 1. -/
def execPreemptHold (o : Op) (s : State) : Out := s.preempt o
/-- PREEMPT with mode 2. -/
def execPreemptRelease (o : Op) (s : State) : Out := s.preempt o

end Sys2Proof.Machine
end

