-- ==== Sys2Proof/Machine/EvMsg.lean ====
section
/-! DEFINITION. The messages of Plynvas (02_machine_state R25): map and decline (22_traps R371, R413), wake (21_isolation R361) and
service response (25_host R397). -/

namespace Sys2Proof.Machine

/-- The header of the message that a service core has sent. -/
def State.msgHeader (s : State) (core : Key) : Nat := ((s.core core).msgOut.headD 0).toNat

/-- The state with a core's message sent: it may begin another. -/
def State.msgDone (s : State) (core : Key) : State := s.modCore core (fun c => { c with msgOut := [], msgBusy := false })

/-- A thread dropped for a page fault going on (R371): its instruction is issued again, which takes a PAGE trap if the fault was declined; or
its trap is entered again, and a trap whose frame's page was declined cannot be (R370; log 130). -/
def Thread.undrop (t : Thread) (cycle : Nat) (declined : Bool) : Thread :=
  match t.run with
  | .dropped va _ none => { t with run := .ready, readyAt := cycle + 2, declined := if declined then some (t.pc, va) else none }
  | .dropped _ _ (some e) => { t with run := .entering e.cause e.a e.src, ths := if declined then withBit t.ths thsINTRAP true else t.ths }
  | _ => t

/-- The threads dropped for faults of a slot ready again, in the slot or where their contexts stand. -/
def State.undropSlot (s : State) (k : Key) (declined : Bool) : State :=
  let f (t : Thread) : Thread := t.undrop s.cycle declined
  let fc (x : Ctx) : Ctx := if x.slot = k then { x with th := f x.th } else x
  let s := s.modT k f
  { s with
    cores := coresMapCtx s.cores fc
    parts := s.parts.map (fun p => (p.1, { p.2 with images := p.2.images.map (fun i => (i.1, { i.2 with
      threads := i.2.threads.map (fun e => if e.1 = k then (e.1, f e.2) else e)
      cores := coresMapCtx i.2.cores fc })) })) }

/-- A copy command that a slot's stalled access holds, going on: declined, it ends with STATUS 5 (R413). -/
def CopyCmd.unstall (c : CopyCmd) (k : Key) (declined : Bool) : CopyCmd :=
  if c.k = k ∧ c.stalled.isSome then { c with stalled := none, status := if declined then 5 else c.status } else c

/-- The stalled copy commands of a slot gone on with. -/
def State.unstallCopies (s : State) (k : Key) (declined : Bool) : State :=
  let hit := (s.clusters.filter (fun c => c.2.copyq.any (fun x => x.k == k && x.stalled.isSome))).map (·.1)
  let f (m : Map Cluster) : Map Cluster := m.map (fun c => (c.1, { c.2 with copyq := c.2.copyq.map (fun x => x.unstall k declined) }))
  let s : State := { s with
    clusters := f s.clusters
    parts := s.parts.map (fun p => (p.1, { p.2 with images := p.2.images.map (fun i => (i.1, { i.2 with clusters := f i.2.clusters })) })) }
  hit.foldl (fun s cl => s.copyNext cl) s

/-- A drain that a slot's stalled write holds, going on: declined, it ends with STATUS 5 (R413). -/
def PlankCmd.unstall (p : PlankCmd) (k : Key) (declined : Bool) : PlankCmd :=
  if p.k = k ∧ p.stalled.isSome then { p with stalled := none, ended := if declined then some 5 else p.ended } else p

/-- The stalled drains of a slot gone on with, or ended, on the Planks and in the images of partitions that are away. -/
def State.unstallPlanks (s : State) (k : Key) (declined : Bool) : State :=
  let hit := (s.groups.filter (fun g => g.2.plank.queue.any (fun p => p.k == k && p.stalled.isSome))).map (·.1)
  let f (x : Plank) : Plank := { x with queue := x.queue.map (fun p => p.unstall k declined) }
  let s : State := { s with
    groups := s.groups.map (fun g => (g.1, { g.2 with plank := f g.2.plank }))
    parts := s.parts.map (fun p => (p.1, { p.2 with images := p.2.images.map (fun i => (i.1, { i.2 with plank := f i.2.plank })) })) }
  hit.foldl (fun s g => s.pushOnce .plankCommandEnd (.n1 g)) s

/-- A message whose source a slot's stalled access reads, going on: declined, it is left unsent with STATUS 5 (R413, R158). -/
def Msg.unstall (m : Msg) (k : Key) (declined : Bool) : Msg :=
  if m.k = k ∧ m.stalled.isSome then { m with stalled := none, status := if declined then 5 else m.status } else m

/-- The stalled messages of a slot gone on with, and those that waited behind them. -/
def State.unstallSends (s : State) (k : Key) (declined : Bool) : State :=
  if s.io.sendqs.any (fun q => q.2.msgs.any (fun m => m.k == k && m.stalled.isSome)) then
    let s := s.modIo (fun io => { io with sendqs := io.sendqs.map (fun q => (q.1, { q.2 with msgs := q.2.msgs.map (fun m => m.unstall k declined) })) })
    s.io.sendqs.foldl (fun s q => q.2.msgs.foldl (fun s m =>
      if m.held || m.ended then s else s.pushOnce .osendBytesHeld (.n2 q.1 m.seq.toNat)) s) s
  else s

/-- Every fault of a slot that is outstanding, acted on (R413): its dropped threads and its stalled engine accesses. -/
def State.settleFaults (s : State) (k : Key) (declined : Bool) : State :=
  (((s.undropSlot k declined).unstallCopies k declined).unstallPlanks k declined).unstallSends k declined

/-- MAP_MESSAGE. -/
def execMapMessage (s : State) : Out :=
  .next (match s.arg with
    | .n1 core => (s.msgDone core).settleFaults (slotOfCoord (s.msgHeader core)) false
    | _ => s)

/-- DECLINE_MESSAGE. -/
def execDeclineMessage (s : State) : Out :=
  .next (match s.arg with
    | .n1 core => (s.msgDone core).settleFaults (slotOfCoord (s.msgHeader core)) true
    | _ => s)

/-- Service core i of the module: 0-3 on I/O die 0, 4-7 on I/O die 1 (R8, R30). -/
def serviceCore (i : Nat) : Key := (8 + i / 4) * 1024 + i % 4

/-- HALT mode 0 of a service core ended (R361). -/
def State.unhalt (s : State) (core : Key) : State :=
  s.modT (core * 8) (fun t => if t.run == .parked .halt then { t with run := .ready, readyAt := s.cycle + 2 } else t)

/-- WAKE_MESSAGE. -/
def execWakeMessage (s : State) : Out :=
  .next (match s.arg with
    | .n1 core => (s.msgDone core).unhalt (serviceCore (bits (s.msgHeader core) 3 0 % 8))
    | _ => s)

/-- The first doubleword of the response standing at a place of the service buffer (R397): TAG and STATUS. -/
def State.responseAt (s : State) (port conn loc : Nat) : SvcResp :=
  let h := s.mem.readN loc 8
  ⟨port, conn, BitVec.ofNat 16 (bits h 63 48), BitVec.ofNat 8 h, []⟩

/-- SERVICE_RESPONSE: the response is sent on its connection, or the message discarded if no such connection is open (R25, R397). -/
def execServiceResponse (s : State) : Out :=
  .next (match s.arg with
    | .n1 core =>
      let port := bits (s.msgHeader core) 7 0
      let conn := bits (s.msgHeader core) 31 16
      let r := s.responseAt port conn (((s.core core).msgOut.drop 1).headD 0).toNat
      let s := s.msgDone core
      if (mget s.io.conns (port * 2 ^ 32 + conn)).isSome then s.modIo (fun io => { io with resps := io.resps ++ [r] }) else s
    | _ => s)

end Sys2Proof.Machine
end

