-- ==== Sys2Proof/Machine/Rotor.lean ====
section
/-! DEFINITION. The rotor instructions OSEND, OQCFG, OSTAT, OCAL and OWAIT (08_rotor_fabric R145, R146, R159 to R165, 09 R167,
R168). -/

namespace Sys2Proof.Machine

/-! ## OSEND (R160) -/

/-- OSEND. -/
def execOsend (o : Op) (s : State) : Out :=
  s.run (o.sx s.q ++ o.tx s.q) [.x o.dn] (fun c s => do
    let p ← c.s.osendCheck c.k c.t ((c.sval o).toNat % 2 ^ 56) (c.tvalZ o).toNat
    s.osendGo c.k c.t p (some o.dn))

/-! ## OQCFG (R161, R167) -/

/-- A configuration's bits (R161). -/
def queueCfg (v : DW) : DW := keep v 47 32 ||| keep v 28 28 ||| keep v 19 16 ||| keep v 11 0

/-- A queue's configuration written (R161): it clears HALT, and the peer is sent a reset with the queue's NEXTSEQ (R156). -/
def State.configured (s : State) (q : Nat) (cfg : DW) : State :=
  (s.modSendq q (fun x => { x with cfg := cfg, halt := false })).modIo (fun io => { io with
    resets := io.resets ++ [(cfgPeer cfg, q, (s.sendq q).next)] })

/-- OQCFG, by the value of T. A write of PORT or PEER is one that changes them. -/
def State.oqcfg (s : State) (o : Op) : Out :=
  s.run (o.sx s.q ++ o.tx s.q) [.x o.dn] (fun c s => do
    let t := (c.tvalZ o).toNat
    let q := t % 1024
    require (t < 2048)
    c.s.checkQueue c.t.partN q
    let old := (c.s.sendq q).cfg
    let new := queueCfg (c.sval o)
    let moves := cfgPort new != cfgPort old || cfgPeer new != cfgPeer old
    if bit t 10 && moves && !isService (coreOf c.k) then trapWith causeILLEGAL 0
    require (!(bit t 10 && moves && !(c.s.sendq q).msgs.isEmpty))
    let s := if bit t 10 then s.configured q new else s
    s.putX c o.dn old)

/-- OQCFG without a write, or a selector in a register. -/
def execOqcfgRead (o : Op) (s : State) : Out := s.oqcfg o
/-- OQCFG with a write. -/
def execOqcfgWrite (o : Op) (s : State) : Out := s.oqcfg o

/-! ## OSTAT (R162) -/

/-- A rotor port. -/
def State.rport (s : State) (p : Nat) : RPort := (mget s.io.rports p).getD RPort.reset

/-- The state with a rotor port changed. -/
def State.modRport (s : State) (p : Nat) (f : RPort → RPort) : State :=
  s.modIo (fun io => { io with rports := mput io.rports p (f (s.rport p)) })

/-- The groups of a partition. -/
def State.groupsOf (s : State) (part : Nat) : List Key := (List.range 128).filter (fun g => s.inPart part g)

/-- Whether a partition is resident (R157, R351): on every one of its groups. -/
def State.resident (s : State) (part : Nat) : Bool := (s.groupsOf part).all (fun g => s.residentOn part g)

/-- Whether it has also finished restoring (R157, R354). -/
def State.restored (s : State) (part : Nat) : Bool := s.resident part && (s.groupsOf part).all (fun g => s.joined (dieOfGroup g))

/-- The status word of a send queue. -/
def State.queueStatus (s : State) (q : Nat) : Nat :=
  let x := s.sendq q
  let fs := x.msgs.flatMap (fun m => m.frames.filter (fun f => !f.acked))
  x.next.toNat * 2 ^ 32 + x.msgs.length * 2 ^ 16 + min 255 (fs.filter (fun f => f.relayed && f.sent.isSome)).length * 2 ^ 8 +
  (if x.halt then 4 else 0) + (if s.resident x.part then 0 else 2) + (if fs.isEmpty then 0 else 1)

/-- Whether a port is in the guard interval of its current slot. -/
def RPort.inGuard (x : RPort) (now : Nat) : Bool := x.seen && now < x.slotAt + x.act.guard

/-- The status word of a port. -/
def State.portStatus (s : State) (p : Nat) : Nat :=
  let x := s.rport p
  x.rot % 2 ^ 32 * 2 ^ 32 + x.misroute * 2 ^ 16 + x.slot * 2 ^ 8 + (if x.inGuard s.rtime then 2 else 0) + (if x.lock then 1 else 0)

/-- OSTAT, by the value of T. -/
def State.ostat (s : State) (o : Op) : Out :=
  s.run (o.tx s.q) [.x o.dn] (fun c s => do
    let t := (c.tvalZ o).toNat
    let x := t % 1024
    require (t < 3072 && (t / 1024 == 0 || x < 16))
    if t / 1024 = 0 then c.s.checkQueue c.t.partN x
    s.putX c o.dn (dw (match t / 1024 with
      | 0 => c.s.queueStatus x
      | 1 => c.s.portStatus x
      | _ => (c.s.rport x).relay.length)))

/-- OSTAT of a queue, or a selector in a register. -/
def execOstatQueue (o : Op) (s : State) : Out := s.ostat o
/-- OSTAT of a port. -/
def execOstatPort (o : Op) (s : State) : Out := s.ostat o
/-- OSTAT of a relay buffer. -/
def execOstatRelay (o : Op) (s : State) : Out := s.ostat o

/-! ## OCAL (R145, R146, R163) -/

/-- A calendar entry: VALID, PEER, LEN. -/
def Calendar.entry (c : Calendar) (i : Nat) : Bool × Nat × Nat := (mget c.slots i).getD (false, 0, 500)

/-- An entry as OCAL reads it. -/
def entryWord (e : Bool × Nat × Nat) : Nat := (if e.1 then 2 ^ 31 else 0) + e.2.1 * 2 ^ 16 + e.2.2

/-- A slot's length in ns. -/
def Calendar.slotNs (c : Calendar) (i : Nat) : Nat := 10 * (c.entry i).2.2

/-- Whether a shadow calendar may be committed by a package of that id (R146). -/
def Calendar.mayCommit (c : Calendar) (pkg : Nat) : Bool :=
  100 ≤ c.guard && c.guard ≤ 1000 && (List.range (c.last + 1)).all (fun i =>
    let e := c.entry i
    200 ≤ e.2.2 && e.2.2 ≤ 4000 && !(e.1 && (c.slotNs i ≤ c.guard || e.2.1 == pkg)))

/-- OCAL, by the value of T: the old entry or header is read, then the shadow calendar written. -/
def State.ocal (s : State) (o : Op) : Out :=
  s.run (o.sx s.q ++ o.tx s.q) [.x o.dn] (fun c s => do
    let t := (c.tvalZ o).toNat
    let v := (c.sval o).toNat
    let p := bits t 9 6
    let i := bits t 5 0
    let hd := bit t 12
    require (!(hd && i != 0))
    if bit t 11 && !isService (coreOf c.k) then trapWith causeILLEGAL 0
    require (!bit t 10 && t < 2 ^ 14)
    let x := c.s.rport p
    let cal := if bit t 13 then x.shad else x.act
    let old := if hd then (if x.pending then 2 ^ 30 else 0) + cal.guard * 2 ^ 6 + cal.last else entryWord (cal.entry i)
    let shad : Calendar := if hd then { x.shad with guard := bits v 15 6, last := bits v 5 0 }
      else { x.shad with slots := mput x.shad.slots i (bit v 31, bits v 27 16, bits v 11 0) }
    let commit := hd && bit v 31
    require (!(bit t 11 && commit && !shad.mayCommit c.s.io.pkgid.toNat))
    let s := if bit t 11 then s.modRport p (fun y => { y with shad := shad, pending := y.pending || commit }) else s
    s.putX c o.dn (dw old))

/-- OCAL without a write, or a selector in a register. -/
def execOcalRead (o : Op) (s : State) : Out := s.ocal o
/-- OCAL with a write. -/
def execOcalWrite (o : Op) (s : State) : Out := s.ocal o

/-! ## OWAIT (R164, R168) -/

/-- OWAIT, by the value of T: the thread parks at its instruction, owed gd from issue, which completes at the event. -/
def State.owait (s : State) (o : Op) : Out :=
  s.run (o.sx s.q ++ o.tx s.q) [.x o.dn] (fun c s => do
    let t := (c.tvalZ o).toNat
    let v := (c.sval o).toNat
    require (bits t 14 10 == 0 && t < 2 ^ 16)
    let wait (w : Option (Nat × Nat)) : State :=
      (s.modT c.k (fun t => { t.oweReg (.g o.dn) with npc := t.pc, pc := c.t.pc })).parkThread c.k (.rotor o.dn (c.t.gcell o.dn).full w) true
    if bit t 15 then do
      let p := bits t 9 6
      let i := bits t 5 0
      require (i ≤ (c.s.rport p).act.last)
      pure (wait (some (p, i)))
    else if v ≤ c.s.rtime then s.oweX c o.dn (dw c.s.rtime) 0 false false
    else pure ((wait none).atNs v .rotorEvent (.n2 c.t.tid s.nextId)))

/-- OWAIT for a time, or a mode in a register. -/
def execOwaitTime (o : Op) (s : State) : Out := s.owait o
/-- OWAIT for a slot. -/
def execOwaitSlot (o : Op) (s : State) : Out := s.owait o

end Sys2Proof.Machine
end

