-- ==== Sys2Proof/Machine/EvRotor.lean ====
section
/-! DEFINITION. The rotor interface's own steps: markers and slots, sending, receiving, acknowledgement, completion and records
(08_rotor_fabric R143 to R158, R160, R164, 09 R168, R169, 21 R350, 24 R392). -/

namespace Sys2Proof.Machine

/-- A port that may have something to send looked at. -/
def State.kick (s : State) (p : Nat) : State := s.pushOnce .frameSend (.n1 p)

/-- The place of a port's current slot on its count of slots: rotations times 64 plus the slot. -/
def RPort.stamp (x : RPort) : Nat := (x.rot0 + x.rot) * 64 + x.slot

/-- The peer of a port's current slot, if it faces one. -/
def RPort.peer (x : RPort) : Option Nat :=
  let e := x.act.entry x.slot
  if e.1 then some e.2.1 else none

/-- The time a frame of L payload bytes takes (R149). -/
def frameNs (n : Nat) : Nat := (64 + n + 99) / 100

/-! ## Records (R158) -/

/-- A message of a queue changed. -/
def State.modMsg (s : State) (q : Nat) (seq : BitVec 32) (f : Msg → Msg) : State :=
  s.modSendq q (fun x => { x with msgs := x.msgs.map (fun m => if m.seq = seq then f m else m) })

/-- A frame of a message changed. -/
def Msg.modFrame (m : Msg) (i : Nat) (f : TxFrame → TxFrame) : Msg :=
  { m with frames := m.frames.map (fun x => if x.idx = i then f x else x) }

/-- A message that has ended with a status: nothing of it is retained (R156, R158). -/
def Msg.finish (m : Msg) (no : Nat) (st : Byte) : Msg :=
  if m.ended then m else { m with ended := true, endNo := no, status := st, frames := m.frames.map (fun f => { f with acked := true, due := false }) }

/-- A message of a queue ended with a status, and the records pushed that this makes due. -/
def State.endMsg (s : State) (q : Nat) (seq : BitVec 32) (st : Byte) : State :=
  (State.modMsg { s with nextId := s.nextId + 1 } q seq (fun m => m.finish s.nextId st)).flushRecords

/-- The register that an OSEND owes written with the message's SEQ (R160). -/
def State.giveSeq (s : State) (m : Msg) : State :=
  match m.dest with
  | some g => s.modTid m.tid (fun t => t.setG g (m.seq.setWidth 64))
  | none => s

/-- QUEUE_HALT (R156): every accepted message without a record gets STATUS 2. -/
def State.haltQueue (s : State) (q : Nat) : State :=
  let s := (s.sendq q).msgs.foldl (fun s m => if m.held || m.ended then s else s.giveSeq m) s
  (State.modSendq { s with nextId := s.nextId + 1 } q (fun x => { x with halt := true, msgs := x.msgs.map (·.finish s.nextId 2) })).flushRecords

/-! ## Bytes held (R160, R413) -/

/-- Whether an earlier message's source is stalled on a page fault: the reads of those accepted after it wait (R413). -/
def State.behindStalled (s : State) (m : Msg) : Bool :=
  s.io.sendqs.any (fun q => q.2.msgs.any (fun x => x.stalled.isSome && !x.ended && x.endNo < m.endNo))

/-- The parts of a message's source, one 4 KiB page each. -/
def Msg.parts (m : Msg) : List (Nat × Nat) :=
  (List.range ((m.src % 4096 + m.len + 4095) / 4096)).map (fun i =>
    let a := if i = 0 then m.src else m.src / 4096 * 4096 + 4096 * i
    (a, min (m.src + m.len) (m.src / 4096 * 4096 + 4096 * (i + 1)) - a))

/-- The interface's access to a message's source: with the die of the core that sent it (R342). -/
def Msg.acc (m : Msg) : EngAcc := ⟨false, if isService (coreOf m.k) then 8 else dieOfCore (coreOf m.k), m.part, m.dom, .anyone, m.got⟩

/-- A message whose bytes are held, read from places (R160, R169). -/
def State.hold (s : State) (q : Nat) (m : Msg) (ps : List Piece) : State :=
  let data := ps.flatMap (fun p => (List.range p.n).map (fun i => s.mem.byte (p.loc + i)))
  let fs : List TxFrame := (List.range ((m.len + 4095) / 4096)).map (fun i => ⟨i, none, false, 0, false, false⟩)
  (((s.claimAll m.dom ps).giveSeq m).modMsg q m.seq (fun m => { m with held := true, data := data, frames := fs, dest := none, got := [] })).kick
    (cfgPort (s.sendq q).cfg)

/-- OSEND_BYTES_HELD: the source is read; a page fault stalls, a failed word leaves the message unsent, a miss waits for its bursts (R88). -/
def execOsendBytesHeld (s : State) : Out :=
  .next (match s.arg with
    | .n2 q n =>
      let seq : BitVec 32 := BitVec.ofNat 32 n
      match (s.sendq q).msgs.find? (fun m => m.seq == seq) with
      | none => s
      | some m =>
        if m.held || m.ended || m.stalled.isSome || s.behindStalled m then s
        else if m.status != 0 then (s.giveSeq m).endMsg q seq m.status
        else match s.engPlaces m.acc .rd m.parts with
          | .error .wait => (s.probeAll m.acc.die).retry .osendBytesHeld s.arg
          | .error (.miss l) => s.askAll (.osend q n) m.dom l
          | .error (.fault va code) =>
            (s.modMsg q seq (fun m => { m with stalled := some (addr va) })).raiseEngFault m.k m.part m.dom va false code
          | .error (.status _) => (s.giveSeq m).endMsg q seq 3
          | .ok ps => s.hold q m ps
    | _ => s)

/-! ## Markers and slots (R144 to R146) -/

/-- Relayed frames in the order of their arrival with one more put where it belongs (R151). -/
def relayInsert (l : List (Nat × Frame)) (e : Nat × Frame) : List (Nat × Frame) :=
  l.takeWhile (fun x => x.1 ≤ e.1) ++ e :: l.dropWhile (fun x => x.1 ≤ e.1)

/-- LOCK_LOSS: what the port was sending is counted as unsent. -/
def State.loseLock (s : State) (p : Nat) : State :=
  let x := s.rport p
  let s := match x.sending with
    | some (.own q seq old _) => s.modMsg q seq (fun m => m.modFrame old.idx (fun _ => old))
    | _ => s
  s.modRport p (fun y =>
    let y := match x.sending with
      | some (.acks a) => { y with owedAcks := a.acks.map (fun a => (x.peer.getD 0, a)) ++ y.owedAcks }
      | some (.relay arr f) => { y with relay := relayInsert y.relay (arr, f), fwd := y.fwd.filter (fun e => e != (arr, f)) }
      | _ => y
    { y with lock := false, good := 0, sending := none, busyUntil := 0 })

/-- A slot begun on a port (R145, R150, R156, R161): its payload counts start at 0, written modes and quotas take effect, frames
four rotations old are due, and sending begins at the end of the guard interval. -/
def State.beginSlot (s : State) (p slot t : Nat) : State :=
  let x := s.rport p
  let s := s.modRport p (fun y => { y with
    slot := slot, seen := true, slotAt := t, used := []
    rot := if slot = 0 && y.lock then y.rot + 1 else y.rot
    rot0 := if slot = 0 && !y.lock then y.rot0 + 1 else y.rot0 })
  let s := s.modIo (fun io => { io with sendqs := io.sendqs.map (fun q =>
    (q.1, if cfgPort q.2.cfg = p then { q.2 with liveCfg := q.2.cfg } else q.2)) })
  let st := (s.rport p).stamp
  let s := s.io.sendqs.foldl (fun s q =>
    if cfgPort q.2.cfg = p then
      q.2.msgs.foldl (fun s m => m.frames.foldl (fun s f =>
        match f.sent with
        | some a => if !f.acked && !f.due && a + 256 ≤ st then s.push .frameResendDue (.n3 q.1 m.seq.toNat f.idx) else s
        | none => s) s) s
    else s) s
  let s := if (x.relay ++ x.fwd).any (fun e => e.1 + 256 ≤ st) then s.push .relayDiscard (.n1 p) else s
  if (s.rport p).lock then s.atNs (t + (s.rport p).act.guard) .frameSend (.n1 p) else s

/-- The threads parked for a slot of a port, each with its wait number, wherever their contexts stand (R164). -/
def State.slotWaiters (s : State) (p slot : Nat) : List (Nat × Nat) :=
  (s.threads.map (·.2) ++ s.contexts.map (·.th) ++ s.imaged).filterMap (fun t => match t.run with
    | .parked (.rotor _ _ (some (q, i))) => if q = p ∧ i = slot then some (t.tid, t.waitId) else none
    | _ => none)

/-- The RTIME at which a port's active calendar predicts its next marker (R144). -/
def RPort.predicted (x : RPort) : Nat := x.slotAt + x.act.slotNs x.slot

/-- Whether a marker comes within 50 ns of its prediction (R144); the first of all has none (log 137). -/
def RPort.onTime (x : RPort) (now : Nat) : Bool := x.seen && x.predicted ≤ now + 50 && now ≤ x.predicted + 50

/-- RTIME made to follow the locked ports (R17, R144): by how much the marker of a locked port that came on time differs from its prediction;
while no port is locked it is not moved. -/
def State.follow (s : State) (p : Nat) : State :=
  let x := s.rport p
  if !s.io.rports.any (fun e => e.2.lock) then { s with slew := 0 }
  else if x.lock && x.onTime s.rtime then { s with slew := (x.predicted : Int) * 130000 - (s.rtime * 130000 + s.frac : Nat) }
  else s

/-- FRAME_MARKER. -/
def execFrameMarker (s : State) : Out :=
  .next (match s.arg with
    | .n2 p slot =>
      let onTime := (s.rport p).onTime s.rtime
      let s := (s.follow p).modRport p (fun y => { y with
        missed := 0, late := if onTime then 0 else y.late + 1, good := if onTime then y.good + 1 else 0 })
      let x := s.rport p
      let s := if x.lock && 3 ≤ x.late then s.loseLock p
        else if !x.lock && 8 ≤ x.good then s.modRport p (fun y => { y with lock := true, rot0 := y.rot0 + y.rot, rot := 0 })
        else s
      let s := if slot = 0 && (s.rport p).pending then s.modRport p (fun y => { y with act := y.shad, pending := false }) else s
      let s := s.beginSlot p slot s.rtime
      if (s.rport p).lock then
        (s.slotWaiters p slot).foldl (fun s w =>
          s.atNs (s.rtime + (s.rport p).act.guard) .rotorEvent (.n2 w.1 w.2)) s
      else s
    | _ => s)

/-- MISSING_MARKER: the third in a row loses the port's lock; the calendar goes on to its next slot. -/
def execMissingMarker (s : State) : Out :=
  .next (match s.arg with
    | .n1 p =>
      let s := s.modRport p (fun y => { y with missed := y.missed + 1, late := 0, good := 0 })
      let x := s.rport p
      let s := if x.lock && 3 ≤ x.missed then s.loseLock p else s
      s.beginSlot p ((x.slot + 1) % (x.act.last + 1)) (if x.seen then x.predicted else s.rtime)
    | _ => s)

/-- ROTOR_EVENT: a parked OWAIT completes with RTIME; one whose port has lost lock waits on (R164). -/
def execRotorEvent (s : State) : Out :=
  .next (match s.arg with
    | .n2 tid id => s.modTid tid (fun t => match t.run with
        | .parked (.rotor d _ w) =>
          if t.waitId != id then t
          else
            let go := match w with
              | some (p, _) => (s.rport p).lock
              | none => true
            if go then { (t.setG d (dw s.rtime)).complete t.npc s.cycle with leaving := none } else t
        | _ => t)
    | _ => s)

/-! ## Sending (R149 to R153, R169) -/

/-- The payload length of a frame of a message. -/
def Msg.frameLen (m : Msg) (i : Nat) : Nat := min 4096 (m.len - 4096 * i)

/-- The head frame of a queue (R151): its first unsent one, if the message's bytes are held. -/
def headFrame : List Msg → Option (Msg × TxFrame)
  | [] => none
  | m :: l =>
    if m.ended then headFrame l
    else if !m.held then none
    else match m.frames.find? (fun f => f.sent.isNone) with
      | some f => some (m, f)
      | none => headFrame l

/-- Whether a frame of n bytes of a queue may start now on a port (R150). -/
def State.startable (s : State) (p q n : Nat) : Bool :=
  let x := s.rport p
  let quota := cfgQuota (s.sendq q).liveCfg
  s.rtime + frameNs n ≤ x.slotAt + x.act.slotNs x.slot && (quota == 0 || (mget x.used q).getD 0 + n ≤ 256 * quota)

/-- Whether a queue takes part on a port (R157). -/
def State.sends (s : State) (p q : Nat) : Bool :=
  let x := s.sendq q
  x.valid && !x.halt && cfgPort x.cfg == p && s.resident x.part

/-- The queues from the one after a number on, in cyclic order. -/
def queuesAfter (s : State) (last : Nat) : List Nat :=
  let qs := s.io.sendqs.map (·.1)
  qs.filter (fun q => last < q) ++ qs.filter (fun q => q ≤ last)

/-- The resend that is due longest to a peer (R151, class 2): queue, message and frame. -/
def State.oldestResend (s : State) (p peer : Nat) : Option (Nat × Msg × TxFrame) :=
  let l := s.io.sendqs.flatMap (fun q =>
    if s.sends p q.1 && cfgPeer q.2.cfg == peer then
      q.2.msgs.flatMap (fun m => (m.frames.filter (fun f => f.due && !f.acked && s.startable p q.1 (m.frameLen f.idx))).map
        (fun f => (q.1, m, f)))
    else [])
  l.foldl (fun a b => match a with
    | none => some b
    | some a => if b.2.2.sent.getD 0 < a.2.2.sent.getD 0 then some b else some a) none

/-- The first queue from one on whose head frame may start and that passes a test. -/
def State.headFrom (s : State) (p last : Nat) (ok : SendQ → Bool) : Option (Nat × Msg × TxFrame) :=
  (queuesAfter s last).findSome? (fun q =>
    let x := s.sendq q
    if s.sends p q && ok x then
      match headFrame x.msgs with
      | some (m, f) => if s.startable p q (m.frameLen f.idx) then some (q, m, f) else none
      | none => none
    else none)

/-- Something started on a port: the port is busy until it has been sent. -/
def State.starts (s : State) (p : Nat) (item : TxItem) (ns : Nat) : State :=
  (s.modRport p (fun x => { x with sending := some item, busyUntil := s.rtime + ns })).atNs (s.rtime + ns) .frameSend (.n1 p)

/-- The 4 KiB places of an I/O die's relay buffer (R8, R153): its 32 MiB of staging SRAM, and half of the reserved DRAM, whose RLYSIZE is in
GiB. -/
def State.relayPlaces (s : State) : Nat := 8192 + bits s.io.rlybase.toNat 7 0 * 2 ^ 17

/-- A port's relay credit (R153): the places that its I/O die's buffer has free, frames forwarded but still kept holding theirs. -/
def State.relayCredit (s : State) (p : Nat) : Nat :=
  s.relayPlaces - ((s.io.rports.filter (fun e => e.1 / 8 == p / 8)).map (fun e => e.2.relay.length + e.2.fwd.length)).sum

/-- A frame of a message of a queue with its header (R149), for the peer of the queue. -/
def State.formFrame (s : State) (p q : Nat) (m : Msg) (i : Nat) (relayed : Bool) : Frame :=
  ⟨s.io.pkgid.toNat % 4096, cfgPeer (s.sendq q).cfg, m.part, q, m.seq, i, (m.len + 4095) / 4096, m.rdst + addr (4096 * i), m.rcw, s.relayCredit p,
    (m.data.drop (4096 * i)).take (m.frameLen i), relayed⟩

/-- A frame of the module's own queues started (R149, R150, R152). -/
def State.startOwn (s : State) (p q : Nat) (m : Msg) (f : TxFrame) (relayed : Bool) : State :=
  let n := m.frameLen f.idx
  let fr := s.formFrame p q m f.idx relayed
  let s := s.modMsg q m.seq (fun m => m.modFrame f.idx (fun f => { f with sent := some (s.rport p).stamp, due := false, relayed := relayed }))
  let s := s.modRport p (fun x => { x with used := mput x.used q ((mget x.used q).getD 0 + n) })
  s.starts p (.own q m.seq f fr) (frameNs n)

/-- The choice of R151 on a port facing a peer. -/
def State.sendTo (s : State) (p peer : Nat) : State :=
  let x := s.rport p
  let fits (ns : Nat) : Bool := s.rtime + ns ≤ x.slotAt + x.act.slotNs x.slot
  let acks := ((x.owedAcks.filter (fun a => a.1 == peer)).take 64)
  let credit := (mget x.credit peer).getD 0
  if !acks.isEmpty && fits 6 then
    (s.modRport p (fun y => { y with owedAcks := acks.foldl (fun l a => l.erase a) y.owedAcks })).starts p
      (.acks ⟨s.io.pkgid.toNat % 4096, s.relayCredit p, acks.map (·.2)⟩) 6
  else match s.oldestResend p peer with
    | some (q, m, f) => s.startOwn p q m f false
    | none =>
      match x.relay.find? (fun e => e.2.dpkg == peer && fits (frameNs e.2.data.length)) with
      | some e =>
        (s.modRport p (fun y => { y with relay := y.relay.erase e, fwd := y.fwd ++ [e] })).starts p (.relay e.1 e.2)
          (frameNs e.2.data.length)
      | none =>
        match s.headFrom p x.rr4 (fun y => cfgPeer y.cfg == peer) with
        | some (q, m, f) => (s.modRport p (fun y => { y with rr4 := q })).startOwn p q m f false
        | none =>
          if credit = 0 then s
          else match s.headFrom p x.rr5 (fun y => cfgSpray y.liveCfg && cfgPeer y.cfg != peer) with
            | some (q, m, f) =>
              (s.modRport p (fun y => { y with rr5 := q, credit := mput y.credit peer (credit - 1) })).startOwn p q m f true
            | none => s

/-- FRAME_SEND: in a send window, and once what was being sent has left, the port sends its next item. -/
def execFrameSend (s : State) : Out :=
  .next (match s.arg with
    | .n1 p =>
      let x := s.rport p
      if s.rtime < x.busyUntil then s
      else
        let s := s.modRport p (fun y => { y with sending := none })
        match x.peer with
        | some peer => if x.lock && !x.inGuard s.rtime then s.sendTo p peer else s
        | none => s
    | _ => s)

/-! ## Receiving (R143, R153 to R157, R350, R392) -/

/-- An acknowledgement owed to a package on a port. -/
def State.oweAck (s : State) (p dest : Nat) (f : Frame) (kind : AckKind) : State :=
  (s.modRport p (fun x => { x with owedAcks := x.owedAcks ++ [(dest, ⟨f.pkg, f.queue, f.seq, f.idx, kind⟩)] })).kick p

/-- The grant that governs a frame (R350): the lowest-numbered valid one of its sender and queue. -/
def State.grantOf (s : State) (f : Frame) : Option (DW × DW × DW) :=
  (s.io.grants.find? (fun g => g.2.1.getLsbD 63 && bits g.2.1.toNat 43 32 == f.pkg && bits g.2.1.toNat 31 22 == f.queue)).map (·.2)

/-- A partition's domain. -/
def State.domainOf (s : State) (part : Nat) : Nat := bits (s.partn part).pcfg.toNat 11 0

/-- Whether n bytes from an address may be written for a partition by the module's rotor or Ethernet units (R350, R396). -/
def State.admits (s : State) (part va n : Nat) : Bool :=
  (pageParts va n).all (fun x => match s.rangeOf (s.domainOf part) x.1 x.2 with
    | none => false
    | some r => r.w && (s.addrTrap part false x.1 x.2 1).isNone &&
      (match s.placeIn ioSide part (s.domainOf part) false r x.1 none with
        | .ok p => p.refuse.isNone
        | .error _ => false))

/-- Whether a grant admits a frame (R350). -/
def State.admitted (s : State) (g : DW × DW × DW) (f : Frame) : Bool :=
  let inside (a n : Nat) : Bool := bits g.2.1.toNat 55 0 ≤ a && a + n ≤ bits g.2.2.toNat 55 0 + 1
  let lpart := bits g.1.toNat 4 0
  bits g.1.toNat 9 5 == f.part && inside f.dst.toNat f.data.length && s.admits lpart f.dst.toNat f.data.length &&
  (f.rcw == 0 || (inside f.rcw.toNat 8 && s.admits lpart f.rcw.toNat 8))

/-- Bytes as a little-endian number. -/
def bytesNat (l : List Byte) : Nat := l.foldr (fun b acc => b.toNat + 256 * acc) 0

/-- A receiver's state for a sender's queue. -/
def State.rxq (s : State) (key : Nat) : RxQ := (mget s.io.rx key).getD ⟨0, []⟩

/-- The state with it changed. -/
def State.modRx (s : State) (key : Nat) (f : RxQ → RxQ) : State := s.modIo (fun io => { io with rx := mput io.rx key (f (s.rxq key)) })

/-- The access of the module's rotor and Ethernet units for a partition (R342, R350, R396). -/
def State.ioAcc (s : State) (part : Nat) : EngAcc := ⟨false, ioSide, part, s.domainOf part, .anyone, s.io.got⟩

/-- What such an access waits for: its misses are asked for at the memory ports (R88). -/
def State.ioWait (s : State) (part : Nat) : EngErr → State
  | .miss l => s.askAll .io (s.domainOf part) l
  | _ => s.probeAll ioSide

/-- The bursts that an access of these units used are used up. -/
def State.ioDone (s : State) (ps : List Piece) : State :=
  s.modIo (fun io => { io with got := io.got.filter (fun b => !ps.any (fun p => meets p.loc p.n (b.1 * 2 ^ 32 + 256 * b.2) 256)) })

/-- Bytes that these units write at places for a partition. -/
def State.ioWrite (s : State) (part : Nat) (ps : List Piece) (v : Nat) : State :=
  (((s.ioDone ps).takeWays (s.domainOf part) ps).scatterAt ioSide (s.domainOf part) none ps v)

/-- A word written and set full by an engine (R155, R396), or why not. -/
def State.writeFull (s : State) (part va : Nat) (v : DW) : Except EngErr State :=
  match s.engPlaces (s.ioAcc part) .wr [(va, 8)] with
  | .error e => .error e
  | .ok ps => .ok (ps.foldl (fun s x => s.putFe none x.loc true) (s.ioWrite part ps v.toNat))

/-- A frame received on a port that waits: its port and the peer it came from stand in its operand (R157). -/
def rxPort (p peer : Nat) : Nat := p + 16 * (peer + 1)

/-- Whether an engine access may succeed later (R88, R106, R112). -/
def EngErr.waits : EngErr → Bool
  | .wait | .miss _ => true
  | _ => false

/-- A frame tried again. -/
def State.frameAgain (s : State) (p peer : Nat) (f : Frame) : State := s.retry .frameReceive (.frame (rxPort p peer) f)

/-- MESSAGE_COMPLETE: completion values written in SEQ order, each message acknowledged (R155). -/
def completeMsgs (p peer : Nat) (f : Frame) : Nat → State → State
  | 0, s => s
  | fuel + 1, s =>
    let key := f.pkg * 1024 + f.queue
    let r := s.rxq key
    match r.msgs.find? (fun m => m.seq == r.expect) with
    | none => s
    | some m =>
      if m.got.length < m.cnt then s
      else
        let finish (s : State) : State :=
          let s := s.modRx key (fun r => { expect := r.expect + 1, msgs := r.msgs.filter (fun x => x.seq != m.seq) })
          completeMsgs p peer f fuel (s.oweAck p f.pkg { f with seq := m.seq, idx := 0 } .complete)
        if m.rcw = 0 then finish s
        else match s.writeFull m.lpart m.rcw.toNat (dw (f.pkg * 2 ^ 52 + f.queue * 2 ^ 42 + m.seq.toNat)) with
          | .ok s => finish s
          | .error e => if e.waits then (s.ioWait m.lpart e).frameAgain p peer f else s.oweAck p f.pkg { f with seq := m.seq } .memerr

/-- A frame for this package, whose sender passed the check of R143; `again` says that it is tried again. -/
def State.receive (s : State) (p peer : Nat) (again : Bool) (f : Frame) : State :=
  let key := f.pkg * 1024 + f.queue
  let r := s.rxq key
  let ahead := (f.seq - r.expect).toNat
  let old := r.msgs.find? (fun m => m.seq == f.seq)
  let dup := match old with
    | some m => m.got.contains f.idx
    | none => false
  if 2 ^ 31 ≤ ahead then (if again then s else s.oweAck p f.pkg f .ok)
  else if dup then completeMsgs p peer f 64 (if again then s else s.oweAck p f.pkg f .ok)
  else if 64 ≤ ahead then s
  else match s.grantOf f with
    | none => s.oweAck p f.pkg f .grant
    | some g =>
      let lpart := bits g.1.toNat 4 0
      if !s.admitted g f then s.oweAck p f.pkg f .grant
      else if !s.restored lpart then s.oweAck p (if f.relayed then peer else f.pkg) f .swap
      else match s.engPlaces (s.ioAcc lpart) .wr (pageParts f.dst.toNat f.data.length) with
        | .error .wait => (s.ioWait lpart .wait).frameAgain p peer f
        | .error (.miss l) => (s.ioWait lpart (.miss l)).frameAgain p peer f
        | .error (.status 1) => s.oweAck p f.pkg f .memerr
        | .error _ => s.oweAck p f.pkg f .grant
        | .ok ps =>
          let s := s.ioWrite lpart ps (bytesNat f.data)
          let m : RxMsg := match old with
            | some m => { m with got := f.idx :: m.got }
            | none => ⟨f.seq, [f.idx], f.cnt, f.rcw, lpart⟩
          let s := s.modRx key (fun r => { r with msgs := m :: r.msgs.filter (fun x => x.seq != f.seq) })
          completeMsgs p peer f 64 (s.oweAck p f.pkg f .ok)

/-- The relay credit of a peer as a frame or ack frame from it reports it (R152); the port may have something to send with it. -/
def State.setCredit (s : State) (p pkg n : Nat) : State := (s.modRport p (fun x => { x with credit := mput x.credit pkg n })).kick p

/-- A frame discarded because its sender is not the slot's peer (R143). -/
def State.misroute (s : State) (p : Nat) : State := s.modRport p (fun x => { x with misroute := sat16 x.misroute })

/-- FRAME_RECEIVE: a frame that comes in, or one that waits at its port. -/
def execFrameReceive (s : State) : Out :=
  .next (match s.arg with
    | .frame w f =>
      let p := w % 16
      let x := s.rport p
      let mine := f.dpkg == s.io.pkgid.toNat
      let via := f.relayed && mine
      if 16 ≤ w then s.receive p (w / 16 - 1) true f
      else if !via && x.peer != some f.pkg then s.misroute p
      else
        let s := if via then s else s.setCredit p f.pkg f.credit
        if mine then s.receive p (x.peer.getD f.pkg) false f
        else if 0 < s.relayCredit p then
          (s.modRport p (fun y => { y with relay := y.relay ++ [(x.stamp, f)] })).kick p
        else s
    | _ => s)

/-- RELAY_DISCARD: relayed frames that four rotations have not seen forwarded, and the copies of those forwarded (R153). -/
def execRelayDiscard (s : State) : Out :=
  .next (match s.arg with
    | .n1 p =>
      let st := (s.rport p).stamp
      s.modRport p (fun x => { x with
        relay := x.relay.filter (fun e => st < e.1 + 256), fwd := x.fwd.filter (fun e => st < e.1 + 256) })
    | _ => s)

/-- One acknowledgement taken by the sender (R154, R156, R157), or a SWAP refusal by the relaying package. -/
def State.takeAck (s : State) (p : Nat) (a : Ack) : State :=
  if a.pkg != s.io.pkgid.toNat then
    let hit (e : Nat × Frame) : Bool := e.2.pkg == a.pkg && e.2.queue == a.queue && e.2.seq == a.seq && e.2.idx == a.idx
    if a.kind == .swap then
      (s.modRport p (fun x => { x with relay := (x.fwd.filter hit).foldl relayInsert x.relay, fwd := x.fwd.filter (fun e => !hit e) })).kick p
    else s
  else match a.kind with
    | .complete => s.push .completionAckArrival (.n2 a.queue a.seq.toNat)
    | .ok => s.modMsg a.queue a.seq (fun m => m.modFrame a.idx (fun f => { f with acked := true, due := false }))
    | .swap => (s.modMsg a.queue a.seq (fun m => m.modFrame a.idx (fun f => { f with due := !f.acked }))).kick p
    | .grant => s.endMsg a.queue a.seq 1
    | .memerr => (s.endMsg a.queue a.seq 4).haltQueue a.queue

/-- ACK_FRAME_RECEIVE. -/
def execAckFrameReceive (s : State) : Out :=
  .next (match s.arg with
    | .ack p a =>
      if (s.rport p).peer != some a.pkg then s.misroute p
      else a.acks.foldl (fun s x => s.takeAck p x) (s.setCredit p a.pkg a.credit)
    | _ => s)

/-- COMPLETION_ACK_ARRIVAL: the message's record is due (R158). -/
def execCompletionAckArrival (s : State) : Out :=
  .next (match s.arg with
    | .n2 q n => s.endMsg q (BitVec.ofNat 32 n) 0
    | _ => s)

/-- FRAME_RESEND_DUE: a frame unacknowledged for four rotations (R156). -/
def execFrameResendDue (s : State) : Out :=
  .next (match s.arg with
    | .n3 q n i =>
      let seq : BitVec 32 := BitVec.ofNat 32 n
      match ((s.sendq q).msgs.find? (fun m => m.seq == seq)).bind (fun m => m.frames.find? (fun f => f.idx == i)) with
      | none => s
      | some f =>
        if f.acked || f.due then s
        else if 16 ≤ f.resends then s.haltQueue q
        else (s.modMsg q seq (fun m => m.modFrame i (fun f => { f with due := true, resends := f.resends + 1 }))).kick
          (cfgPort (s.sendq q).cfg)
    | _ => s)

/-- QUEUE_RESET_ARRIVAL: a peer's reset (R156): sender package, queue, and the SEQ to expect. -/
def execQueueResetArrival (s : State) : Out :=
  .next (match s.arg with
    | .n3 pkg q n => s.modRx (pkg * 1024 + q) (fun _ => ⟨BitVec.ofNat 32 n, []⟩)
    | _ => s)

end Sys2Proof.Machine
end

