-- ==== Sys2Proof/Machine/EvMem.lean ====
section
/-! DEFINITION. What happens at a home: fills, returns, the drain of the store buffer, writes, atomics, clocks, full/empty
accesses, bursts, way change-overs, watches (03_encoding R41, 05 R88 to R92, 06 R97 to R113, 07 R119 to R131, 10 R185, 21 R344).
An event whose operands name nothing that is there changes nothing. -/

namespace Sys2Proof.Machine

/-! ## Fills of the PLB (R344) -/

/-- The threads of a core that wait for a PLB entry for an address of a domain, ready to try again. -/
def State.wakePlb (s : State) (core dom : Nat) (va : Addr) : State :=
  let f (t : Thread) : Thread := if t.domN = dom && t.run == .parked (.plb va) then t.woken s.cycle else t
  { s with
    threads := s.threads.map (fun e => if coreOf e.1 = core then (e.1, f e.2) else e)
    cores := coresMapCtx s.cores (fun x => if coreOf x.slot = core then { x with th := f x.th } else x) }

/-- PLB_FILL: the covering entry of the domain enters the PLB of the slot's core; with none, the access is tried again. -/
def execPlbFill (s : State) : Out :=
  .next (match s.arg with
    | .val x n va =>
      let core := coreOf (x / 4096)
      match s.rangeOf (x % 4096) va.toNat n with
      | some r => s.modCore core (fun c => { c with plb := plbLoad c.plb r })
      | none => s.wakePlb core (x % 4096) (va.setWidth 56)
    | _ => s)

/-! ## Owed results (R23, R276) -/

/-- An owed result written: registers, flags, and the offer of a k destination, which leaves with its value. -/
def State.writeOwed (s : State) (o : Owed) : State :=
  let s := State.modT { s with owed := s.owed.filter (fun x => x.id != o.id) } o.k (fun t =>
    o.writes.foldl (fun (t : Thread) (w : RegRef × VReg) => t.fillReg w.1 w.2) (t.orFlags o.flags))
  match o.out, s.thread o.k with
  | some (.kreg n, v), some t =>
    match t.kb n with
    | some b => s.leaveOffer b.port (coreOf o.k) (o.id - 1) v
    | none => s
  | _, _ => s

/-- OWED_RESULT_WRITE; a counter's adjustment is applied first, after those that come before it (R340). -/
def execOwedResultWrite (s : State) : Out :=
  .next (match s.arg with
    | .n1 id =>
      match s.owed.find? (fun o => o.id == id) with
      | none => s
      | some o =>
        match o.adj with
        | none => s.writeOwed o
        | some a =>
          if s.adjustedLater a then s.push .owedResultWrite (.n1 id)
          else
            let s := s.applyAdj o a
            match s.owed.find? (fun o => o.id == id) with
            | some o => s.writeOwed o
            | none => s
    | _ => s)

/-! ## Failures (R342, R361, R375, R392) -/

/-- The first word with an uncorrectable error that the pieces of a request touch: its virtual address (R392). -/
def State.badPiece (s : State) (r : Req) : Option Nat :=
  r.pieces.findSome? (fun p => if p.n = 0 then none else (s.mem.badWord p.loc p.n).map (fun w => p.va + 8 * w - p.loc))

/-- Whether a piece names a scratch word that its home no longer holds for the partition (R84, R124, R206). -/
def State.gonePiece (s : State) (r : Req) (p : Piece) : Bool :=
  p.n != 0 && regionOf p.va == 0xF0 && ((s.partn r.part).gone.contains (groupOfCluster (scratchCl p.va)) || !s.isScratch (scratchCl p.va) (scratchWay p.va))

/-- The cause for which a home refuses to write a piece, if any. -/
def State.pieceBad (s : State) (r : Req) (p : Piece) : Option Nat :=
  if s.gonePiece r p then some causeSCRATCHGONE else if (s.mem.badWord p.loc p.n).isSome then some causeMEMERR else none

/-- The threads of a core that wait for a request's line, ready to ask again. -/
def State.wakeFill (s : State) (r : Req) (va : Addr) : State :=
  s.modTid r.tid (fun t => if t.run == .parked (.fill (va.toNat / 32)) then t.woken s.cycle else t)

/-- The exact trap of a request that failed on its way or at its home (R342, R392): its destination is left empty, nothing owed,
and the trap is that of its instruction; a thread outside a slot takes it as its context is restored. -/
def State.failRead (s : State) (r : Req) (cause va : Nat) : State :=
  let s := s.dropReq r.id
  let s := match r.kind.dest with
    | some d => s.modTid r.tid (fun t => t.emptyReg d)
    | none => s
  let s := match r.kind with
    | .watch .. => s.modTid r.tid (fun t => { t with watch := .none })
    | _ => s
  match s.threadOf r.tid, s.slotOfTid r.tid with
  | some t, k =>
    match t.run with
    | .ending | .entering _ _ _ => s
    | _ =>
      let s := s.modTid r.tid Thread.unwait
      match k with
      | some k => (s.modT k (fun t => { t with pc := r.ipc, run := .ready, readyAt := s.cycle + 2, pend := none })).takeTrap k cause va 0
      | none => s.modTid r.tid (fun t => { t with pc := r.ipc, run := .entering cause va 0, pend := none })
  | none, _ => s

/-- The words of an LDM of which a request is one, from a number on. -/
def Req.sameLdm (r q : Req) : Option Nat :=
  match q.kind with
  | .ldm _ i _ => if q.tid = r.tid ∧ q.ipc = r.ipc then some i else none
  | _ => none

/-- Word i of an LDM failed (R126): the words before it count as transferred; nothing from it on does. One before it that is still under way is
waited for. -/
def State.failLdm (s : State) (r : Req) (dest i n cause va : Nat) : State :=
  if s.reqs.any (fun q => (r.sameLdm q).any (fun j => j < i)) then s.retry .loadReturn (.n1 r.id)
  else
    let s : State := { s with reqs := s.reqs.filter (fun q => q.id == r.id || !(r.sameLdm q).any (fun j => i ≤ j)) }
    (s.modTid r.tid (fun t => ((List.range (n - i)).foldl (fun (t : Thread) j => t.emptyReg (.g (dest + j))) t).setProg i)).failRead r cause va

/-- A read failed (R126, R342, R392); a line that could not be fetched is asked for again, and its instruction meets the cause. -/
def State.failReq (s : State) (r : Req) (cause va : Nat) : State :=
  match r.kind with
  | .ldm d i n => s.failLdm r d i n cause va
  | .fetch a => (s.dropReq r.id).wakeFill r a
  | _ => s.failRead r cause va

/-- A store buffer without one of its stores. -/
def State.unbuffer (s : State) (core : Key) (id : Nat) : State :=
  s.modCore core (fun c => { c with sbuf := c.sbuf.filter (fun e => e.id != id) })

/-- Whether a thread can still take an asynchronous trap (R375). -/
def State.takesTraps (s : State) (tid : Nat) : Bool := (s.threadOf tid).any (fun t => t.run != .ending)

/-- A refused write without a journal entry (R375): an ASTORE trap is due, or a fault report if its thread is ending or has ended. -/
def State.refuseWrite (s : State) (tid part : Nat) (launch : BitVec 32) (cause va : Nat) : State :=
  if s.takesTraps tid then s.push .storeRefusal (.val tid cause (dw va))
  else s.push .faultReportArrival (.report ⟨part, launch, BitVec.ofNat 8 cause⟩)

/-- A journal event of a core, kept with its partition's image while that is not resident (R352). -/
def State.journalEvent (s : State) (part : Nat) (core : Key) (i : Instr) (a : Arg) : State := s.pushFor part (groupOf core) i a

/-- A write that its home refused (R124, R375). -/
def State.refuseStore (s : State) (r : Req) (cause va : Nat) : State :=
  match r.kind with
  | .stp j => s.journalEvent r.part (coreOf r.k) .journalRefusal (.n3 (coreOf r.k) j cause)
  | _ => s.refuseWrite r.tid r.part r.launch cause va

/-- Whether a request's refusal is reported to its thread asynchronously (R342, R375). -/
def ReqKind.late : ReqKind → Bool
  | .store _ | .strl | .stp _ | .acc _ | .accz => true
  | _ => false

/-- A request refused on its way or at its home (R342, R361, R124, R206): a read traps, a write fails asynchronously. -/
def State.refuseReq (s : State) (r : Req) (cause va : Nat) : State :=
  if r.kind.late then ((s.unbuffer (coreOf r.k) r.id).dropReq r.id).refuseStore r cause va else s.failReq r cause va

/-- The address of the piece at which a fence refuses a request on its way, if one does (R361). -/
def State.fenceAt (s : State) (r : Req) : Option Nat :=
  if r.here then none
  else (r.pieces.find? (fun p =>
    let h := homeDie p.loc
    let d := dieOfCore (coreOf r.k)
    p.n != 0 && h != d && ((s.die h).fenced || (d < 8 && (s.die d).fenced)))).map (·.va)

/-- A request performed at its home by `f`, unless the scratch word it names is gone; a store is refused piece by piece (R194). -/
def State.atHome (s : State) (r : Req) (f : State → Req → State) : State :=
  match r.kind with
  | .store _ | .strl | .stp _ => f s r
  | _ => match r.pieces.find? (s.gonePiece r) with
    | some p => s.refuseReq r causeSCRATCHGONE p.va
    | none => f s r

/-- A request under way: it is refused at a fence, waits for a die that has not joined its slice (R354), or is tried at its home. -/
def State.onWay (s : State) (id : Nat) (f : State → Req → State) : State :=
  match s.req id with
  | none => s
  | some r =>
    if r.fin.isSome then s
    else match s.fenceAt r with
      | some va => s.refuseReq r causeFENCED va
      | none =>
        if !r.here && r.homes.any (fun h => h != dieOfCore (coreOf r.k) && !s.joined h) then s.retry r.kind.event (.n1 id)
        else s.attempt id (fun s r => s.atHome r f)

/-! ## Loads (R97, R116, R125, R193, R194, R232) -/

/-- The header and value of the ACC object at a place (R184). -/
def Mem.accAt (m : Mem) (loc : Nat) : BitVec 4 × BitVec 640 :=
  (BitVec.ofNat 4 (m.readN loc 1), BitVec.ofNat 640 (m.readN (loc + 8) 80))

/-- An ACC object rounded to the type of an etype code (R232). -/
def accRound (et : Nat) (md : RMode) (a : BitVec 4 × BitVec 640) : DW × Flags :=
  let v := accValue a.1 a.2
  let r := (numTy et).encode md false v.1
  let w := (numTy et).w
  (if etFp et then dw (r.1 % 2 ^ w) else sextTo w r.1, r.2 ||| v.2)

/-- The bytes of the pieces of a load, one whose value its core fixed (R97) being empty and holding it. -/
def Mem.gatherReq (m : Mem) (w : Nat) : List Piece → Nat
  | [] => 0
  | p :: l => (if p.n = 0 then p.data.toNat % 256 ^ w else m.readN p.loc p.n) + 256 ^ (if p.n = 0 then w else p.n) * m.gatherReq w l

/-- The bytes of one lane of a vector load, or none for another request. -/
def ReqKind.laneLen : ReqKind → Nat
  | .vload _ w => w
  | _ => 0

/-- Whether a read fills its core's data cache (R87). -/
def ReqKind.allocates : ReqKind → Bool
  | .load _ _ _ acq => !acq
  | .ldm .. | .vload .. => true
  | _ => false

/-- The lines of a read filled into its core's data cache. -/
def State.fillLines (s : State) (r : Req) : State :=
  if r.kind.allocates then r.pieces.foldl (fun s p => if p.n = 0 then s else s.dFill (coreOf r.k) r.dom p.va p.loc) s else s

/-- A read performed at its home (R97): its value is fixed there, and on its way back. -/
def State.performRead (s : State) (r : Req) : State :=
  match s.badPiece r with
  | some va => s.respond r ⟨0, 0, some (causeMEMERR, va)⟩
  | none =>
    match r.kind with
    | .accr _ et rm =>
      let x := accRound et (rmode rm) (s.mem.accAt r.loc)
      s.respond r (.ok (x.1.setWidth 512) x.2)
    | _ => (s.fillLines r).respond r (.ok (BitVec.ofNat 512 (s.mem.gatherReq r.kind.laneLen r.pieces)) 0)

/-- A thread that a request holds goes on past its instruction (R119, R232). -/
def Thread.released (t : Thread) (p : Park) (npc : Addr) (cycle : Nat) : Thread := if t.run == .parked p then t.complete npc cycle else t

/-- A thread's registers as the answer of a request leaves them. -/
def Thread.take (t : Thread) (r : Req) (x : Ret) (cycle : Nat) : Thread :=
  let v := x.v.toNat
  match r.kind with
  | .load d n sg _ => t.setG d (if sg then sextTo (8 * n) v else dw (v % 256 ^ n))
  | .ldm d _ _ | .atomic _ d _ _ => t.setG d (dw v)
  | .vload d _ => t.setV d x.v
  | .accr d _ _ => ((t.setG d (dw v)).orFlags x.flags).released (.answer r.id) r.npc cycle
  | .sync op d _ _ => (if op == .ldfe || op == .ldff then t.setG d (dw v) else t).released (.sync r.id) r.npc cycle
  | .probe p => t.setP p (x.v.getLsbD 0)
  | _ => t

/-- A request's answer at its core (R97): the registers written, a line put in the instruction cache, or the trap taken. -/
def State.deliver (s : State) (r : Req) (x : Ret) : State :=
  match x.trap with
  | some c => s.failReq r c.1 c.2
  | none =>
    let s := s.dropReq r.id
    match r.kind with
    | .fetch a => (s.iFill (coreOf r.k) r.dom a.toNat (x.v.setWidth 256)).wakeFill r a
    | _ => s.modTid r.tid (fun t => t.take r x s.cycle)

/-- LOAD_RETURN: a read taken on toward its home and performed there, or its answer delivered. No switch merges it with another
(R109; log 135). -/
def execLoadReturn (s : State) : Out :=
  .next (match s.arg with
    | .n1 id =>
      match (s.req id).bind (fun r => r.fin.map (fun x => (r, x))) with
      | some (r, x) => s.deliver r x
      | none => s.onWay id State.performRead
    | _ => s)

/-- A line read at its home for a fetch (R41, R42, R349); one with an uncorrectable error is not filled, and its instruction meets that. -/
def State.performFetch (s : State) (r : Req) : State :=
  match s.badPiece r with
  | some va => s.respond r ⟨0, 0, some (causeMEMERR, va)⟩
  | none => (s.claim r.dom r.loc).respond r (.ok (BitVec.ofNat 512 (s.mem.readN r.loc 32)) 0)

/-- INSTRUCTION_FILL: a line that a fetch asked for is taken on toward its home and read there; its answer fills the cache. -/
def execInstructionFill (s : State) : Out :=
  .next (match s.arg with
    | .n1 id => s.onWay id State.performFetch
    | _ => s)

/-! ## Bursts at the group memory port (R88, R89) -/

/-- CONTROLLER_REQUEST: the pieces of a request that missed open their blocks' windows, join them, or wait for the outstanding bursts. -/
def execControllerRequest (s : State) : Out :=
  .next (match s.arg with
    | .n1 id =>
      match s.req id with
      | none => s
      | some r =>
        match s.missing r with
        | [] => (s.modReq id (fun q => { q with miss := none })).push r.kind.event (.n1 id)
        | l => l.foldl (fun s p => s.askBurst ⟨.req id, r.dom, p.va⟩ p.loc) s
    | _ => s)

/-- BURST_WINDOW_CLOSE: one read burst is ready for the block, which the port issues in its turn (R89). -/
def execBurstWindowClose (s : State) : Out :=
  .next (match s.arg with
    | .n2 g b =>
      if (mget (s.group g).windows b).isSome && (mget (s.group g).bursts b).isNone then
        (s.modGroup g (fun x => { x with bursts := mput x.bursts b s.cycle })).pushOnce .writeQueueDrain (.n1 g)
      else s
    | _ => s)

/-- Whether a request still waits in a window. -/
def State.inWindow (s : State) (id : Nat) : Bool :=
  s.groups.any (fun g => g.2.windows.any (fun w => w.2.any (fun a => a.who == .req id)))

/-- One that waited for a burst gone on with: the block is there for it. -/
def State.answerAsk (s : State) (g b : Nat) (a : Ask) : State :=
  match a.who with
  | .req id =>
    if s.inWindow id then s
    else match s.req id with
      | some r => (s.modReq id (fun q => { q with miss := some true })).push r.kind.event (.n1 id)
      | none => s
  | .copy cl => (s.modHead cl (fun c => { c with got := (g, b) :: c.got })).pushOnce .copyUnitWrite (.n1 cl)
  | .plank p => (s.modPlankHead p (fun c => { c with got := (g, b) :: c.got })).pushOnce .plankCommandEnd (.n1 p)
  | .osend q n =>
    (s.modMsg q (BitVec.ofNat 32 n) (fun m => { m with got := (g, b) :: m.got })).pushOnce .osendBytesHeld (.n2 q n)
  | .io => s.modIo (fun io => { io with got := (g, b) :: io.got.filter (· != (g, b)) })

/-- BURST_FILL: the burst fills both vault lines of its block and answers all that wait for it. -/
def execBurstFill (s : State) : Out :=
  .next (match s.arg with
    | .n2 g b =>
      if (mget (s.group g).bursts b).isSome then
        let l := (mget (s.group g).windows b).getD []
        let s := s.modGroup g (fun x => { x with bursts := mdel x.bursts b, windows := mdel x.windows b })
        let s := l.foldl (fun s a => s.vaultFill a.dom a.va (g * 2 ^ 32 + 256 * b + a.va % 256)) s
        l.foldl (fun s a => s.answerAsk g b a) s
      else s
    | _ => s)

/-- An entry of a group's write queue written to its channel; what waited for it is due. -/
def State.drainQueue (s : State) (g : Key) (e : WEnt) : State :=
  e.due.foldl (fun s d => s.push d.i d.arg) (s.modGroup g (fun x =>
    let q := markReady s.cycle [] (x.wq.erase e)
    { x with wq := q, wqLast := e.dom, wqFirst := writesFirst x.wqFirst q.length }))

/-- A memory port's turn (R89, R113): the burst or the write-back ready first leaves, write-backs first while the queue is too full. The port
issues one in a cycle. -/
def State.portTurn (s : State) (g : Key) : State :=
  let x := s.group g
  let issue (b : Nat) : State := (s.at (s.cycle + 1) .burstFill (.n2 g b)).retryOnce .writeQueueDrain (.n1 g)
  let drain (e : WEnt) : State := (s.drainQueue g e).retryOnce .writeQueueDrain (.n1 g)
  match s.nextBurst g, s.nextWrite g with
  | none, none => s
  | some b, none => issue b.1
  | none, some e => drain e
  | some b, some e => if x.wqFirst || e.ready.getD s.cycle < b.2 then drain e else issue b.1

/-- A vault write buffer's turn (R113): one entry drains in a cycle. -/
def State.bufferTurn (s : State) (cl : Key) : State :=
  match nextEnt (s.cluster cl).wbufLast (s.cluster cl).wbuf with
  | none => s
  | some e =>
    (e.due.foldl (fun s d => s.push d.i d.arg) (s.modCluster cl (fun c => { c with
      wbuf := markReady s.cycle [] (c.wbuf.erase e), wbufLast := e.dom }))).retryOnce .writeQueueDrain (.n2 0 cl)

/-- WRITE_QUEUE_DRAIN: a group's memory port or a cluster's vault write buffer has its turn. -/
def execWriteQueueDrain (s : State) : Out :=
  .next (match s.arg with
    | .n1 g => s.portTurn g
    | .n2 _ cl => s.bufferTurn cl
    | _ => s)

/-! ## Stores (R100, R117, R124, R374, R375) -/

/-- The oldest store of a buffer that has not left (R100). -/
def Core.nextStore (c : Core) : Option StoreEnt := c.sbuf.find? (fun e => !e.sent)

/-- Whether an earlier request of its core to a store's bytes has still to leave (R99). -/
def State.storeWaits (s : State) (core : Key) (e : StoreEnt) : Bool :=
  s.reqs.any (fun q => q.id < e.id && !q.left && coreOf q.k == core && piecesMeet q.pieces e.pieces)

/-- A store on its way to its home as a request. -/
def State.sendStore (s : State) (core : Key) (e : StoreEnt) : State :=
  let r : Req := ⟨e.id, e.k, e.tid, e.launch, e.part, e.dom, .store false, e.pieces, none, s.clockOf (dieOfCore core), 0, 0, false,
    false, false, false, none, none, false, none⟩
  State.at { s.modCore core (fun c => { c with sbuf := c.sbuf.map (fun x => if x.id = e.id then { x with sent := true } else x) })
    with reqs := s.reqs ++ [r] } (s.cycle + 1) .storePerform (.n1 e.id)

/-- STORE_DRAIN: the oldest store leaves for its home, or is refused at a switch (R342); it follows what its core sent there before (R99). -/
def execStoreDrain (s : State) : Out :=
  .next (match s.arg with
    | .n1 core =>
      match (s.core core).nextStore with
      | none => s
      | some e =>
        match e.bad with
        | some cause => (s.unbuffer core e.id).refuseWrite e.tid e.part e.launch cause.toNat ((e.pieces.headD ⟨0, 0, 0, 0⟩).va)
        | none => if s.storeWaits core e then s.retry .storeDrain (.n1 core) else s.sendStore core e
    | _ => s)

/-- One piece of a store written at its home (R97), the line of its own core being brought up to date (R87). -/
def State.putPiece (s : State) (r : Req) (p : Piece) : State :=
  let present := (s.dRead (coreOf r.k) r.dom p.va 1).isSome
  (s.write p.loc p.n p.data.toNat).dStore (coreOf r.k) r.dom p.va p.loc present

/-- The pieces of a store that its home can write, in order; the last is the one that is acknowledged. -/
def State.putPieces (s : State) (r : Req) : List Piece → State
  | [] => s
  | [p] => (s.putPiece r p).ackDue r p.va p.loc
  | p :: l => ((s.putPiece r p).wrote p.va p.loc ⟨r.dom, p.loc, r.tid, r.id, none, none, []⟩).putPieces r l

/-- The effect of a write at its home (R97): every piece that it can write is written, and a refused one reported (R194, R375). -/
def State.performStore (s : State) (r : Req) : State :=
  let s' := ((s.unbuffer (coreOf r.k) r.id).dropReq r.id).putPieces r (r.pieces.filter (fun p => (s.pieceBad r p).isNone))
  match r.pieces.findSome? (fun p => (s.pieceBad r p).map (fun c => (c, p.va))) with
  | some x => s'.refuseStore r x.1 x.2
  | none => s'

/-- STORE_PERFORM. -/
def execStorePerform (s : State) : Out :=
  .next (match s.arg with
    | .n1 id => s.onWay id State.performStore
    | _ => s)

/-- WRITE_ACKNOWLEDGEMENT (R97, R103): it leaves its home, and at the core the write counts as acknowledged, its journal entry with it (R124). -/
def execWriteAcknowledgement (s : State) : Out :=
  .next (match s.arg with
    | .n2 id cl =>
      match s.acks.find? (fun a => a.id == id) with
      | none => s
      | some a => s.carry 1 (slicePath cl) (corePath a.core) (nearSlice a.core cl) 0 ⟨.writeAcknowledgement, .n1 id⟩
    | .n1 id =>
      match s.acks.find? (fun a => a.id == id) with
      | none => s
      | some a =>
        let s : State := { s with acks := s.acks.filter (fun a => a.id != id) }
        match a.jent with
        | some j => s.journalEvent a.part a.core .journalAck (.n2 a.core j)
        | none => s
    | _ => s)

/-- The result of a replay written to the register that is owed it (R382). -/
def State.endReplay (s : State) (e : JEnt) (cause : Nat) : State :=
  match e.replay with
  | some d => s.modTid e.tid (fun t => t.setG d (dw cause))
  | none => s

/-- JOURNAL_ACK: the entry becomes FREE (R374, R382). -/
def execJournalAck (s : State) : Out :=
  .next (match s.arg with
    | .n2 core j =>
      match mget (s.core core).journal j with
      | some e => if e.st == .pending then (s.modCore core (fun c => { c with journal := mdel c.journal j })).endReplay e 0 else s
      | none => s
    | _ => s)

/-- An asynchronous trap queued for a thread (R375). -/
def Thread.queueTrap (t : Thread) (cause a : Nat) : Thread :=
  { t with asyncTraps := t.asyncTraps ++ [(BitVec.ofNat 8 cause, addr a)] }

/-- JOURNAL_REFUSAL: the entry becomes REFUSED and raises a JOURNAL trap, but for a replay (R374, R382); that of a thread that
has ended or was placed on another core is reported and freed (R375). -/
def execJournalRefusal (s : State) : Out :=
  .next (match s.arg with
    | .n3 core j cause =>
      match mget (s.core core).journal j with
      | none => s
      | some e =>
        if e.st != .pending then s
        else match s.threadOf e.tid, coreOf e.k == core with
          | some _, true =>
            let s := s.modCore core (fun c => { c with
              journal := mput c.journal j { e with st := .refused (BitVec.ofNat 8 cause), replay := none } })
            if e.replay.isSome then s.endReplay e cause else s.modTid e.tid (fun t => t.queueTrap causeJOURNAL j)
          | _, _ => ((s.modCore core (fun c => { c with journal := mdel c.journal j })).endReplay e cause).push .faultReportArrival
              (.report ⟨e.part, e.launch, BitVec.ofNat 8 cause⟩)
    | _ => s)

/-- STORE_REFUSAL: an ASTORE trap is queued; for a thread that is ending the failure is reported. -/
def execStoreRefusal (s : State) : Out :=
  .next (match s.arg with
    | .val tid cause va =>
      match s.threadOf tid with
      | none => s
      | some t =>
        if t.run == .ending then s.push .faultReportArrival (.report ⟨t.partN, t.launchid, BitVec.ofNat 8 cause⟩)
        else s.modTid tid (fun t => t.queueTrap causeASTORE va.toNat)
    | _ => s)

/-- FAULT_REPORT_ARRIVAL (R376). -/
def execFaultReportArrival (s : State) : Out :=
  .next (match s.arg with
    | .report r => deliverReport s r
    | _ => s)

/-! ## Atomics and accumulations (R127, R128, R185) -/

/-- The value an atomic writes, if it writes (R127). -/
def Aop.result (op : Aop) (old t cmp : DW) : Option DW :=
  match op with
  | .add => some (old + t)
  | .and => some (old &&& t)
  | .or => some (old ||| t)
  | .xor => some (old ^^^ t)
  | .min => some (if old.toInt ≤ t.toInt then old else t)
  | .max => some (if old.toInt ≤ t.toInt then t else old)
  | .minu => some (if old.toNat ≤ t.toNat then old else t)
  | .maxu => some (if old.toNat ≤ t.toNat then t else old)
  | .swap => some t
  | .cas => if old = cmp then some t else none

/-- The doublewords of an ACC object from number i on as they were and as they become, in order. -/
def accWords (old new : Nat) : Nat → Nat → List (Nat × Bool × Nat)
  | 0, _ => []
  | n + 1, i => (i, decide (bits old 63 0 ≠ bits new 63 0), bits new 63 0) :: accWords (old / 2 ^ 64) (new / 2 ^ 64) n (i + 1)

/-- An accumulation at its home (R185, R187, R231): the header and the span of V that changes are written. -/
def State.accumulateAt (s : State) (loc : Nat) (xs : List Exact) : State :=
  let a := s.mem.accAt loc
  let b := accAddAll a.1 a.2 xs
  let h := s.mem.readN loc 8
  let s := if a.1 = b.1 then s else s.write loc 8 (h / 16 * 16 + b.1.toNat)
  let ws := accWords a.2.toNat b.2.toNat 10 1
  let ch := (ws.filter (fun w => w.2.1)).map (·.1)
  match ch.min?, ch.max? with
  | some lo, some hi => (ws.filter (fun w => lo ≤ w.1 && w.1 ≤ hi)).foldl (fun s w => s.write (loc + 8 * w.1) 8 w.2.2) s
  | _, _ => s

/-- The effect of an atomic, an accumulation or an ACCZ at its home. -/
def State.performAtomic (s : State) (r : Req) : State :=
  let loc := r.loc
  let va := r.head.va
  match s.badPiece r, r.kind with
  | some a, .atomic .. => s.respond r ⟨0, 0, some (causeMEMERR, a)⟩
  | some _, _ => (s.dropReq r.id).refuseWrite r.tid r.part r.launch causeMEMERR va
  | none, .atomic op _ t cmp =>
    let old := s.mem.word loc
    let s := match op.result old t cmp with
      | some v => (s.write loc 8 v.toNat).ackDue r va loc
      | none => s
    s.respond r (.ok (old.setWidth 512) 0)
  | none, .acc xs => ((s.accumulateAt loc xs).ackDue r va loc).dropReq r.id
  | none, .accz => ((s.write loc 96 0).ackDue r va loc).dropReq r.id
  | none, _ => s

/-- ATOMIC_PERFORM. -/
def execAtomicPerform (s : State) : Out :=
  .next (match s.arg with
    | .n1 id => s.onWay id State.performAtomic
    | _ => s)

/-! ## Clocks (R105, R106) -/

/-- CLOCK_PACKET_ARRIVAL: KNOWN and the die clock rose as the packet came out of the package switch (R106, `State.moveOut`); what waited for
that is tried again by itself. -/
def execClockPacketArrival (s : State) : Out := .next s

/-- CLOCK_PROBE: die j answers home die h at once, with a packet that carries its clock. -/
def execClockProbe (s : State) : Out :=
  .next (match s.arg with
    | .n2 h j => s.packet 0 (diePath j) (diePath h) 0 none false ⟨.clockPacketArrival, .n2 h j⟩
    | _ => s)

/-! ## Full/empty accesses (R119 to R122, R372, R385) -/

/-- The thread of a final try that failed becomes a swapped waiter (R120, step 2): its instruction has no effect. -/
def State.swapWaiter (s : State) (r : Req) (op : Sop) : State :=
  let p := r.head
  let want := op != .stef
  let s := s.modCluster (homeCluster p.loc) (fun c => { c with swapped := c.swapped ++ [⟨r.tid, coreOf r.k, p.loc, want⟩] })
  let s := ((s.dropSync r.k).parkThread r.k (.word (addr p.va) want) false).modT r.k (fun t => { t with leaving := some false })
  s.push .contextSwapOut (.n2 r.k r.tid)

/-- A request that must come to its home anew: from its core, or at the near port. -/
def State.sendAgain (s : State) (id : Nat) : State := s.modReq id (fun q => { q with left := q.near, out := false, here := false, arr := none })

/-- A synchronising access that the bit does not allow: a failed local try, a final try, or a remote wait (R120, R121). -/
def State.syncFails (s : State) (r : Req) (op : Sop) (final : Bool) : State :=
  let cl := homeCluster r.loc
  if r.near && !final then (s.sendAgain r.id).push .syncTryFailReturn (.n1 r.id)
  else if 128 ≤ s.waiters cl then (s.sendAgain r.id).at (s.cycle + 64) .syncResend (.n1 r.id)
  else if r.near then s.swapWaiter r op
  else s.modReq r.id (fun q => { q with waiting := true })

/-- A synchronising access, a SETE or a PROBE at its home. A SETE and a PROBE act on a word with an uncorrectable error as on another (log
128). -/
def State.performBit (s : State) (r : Req) : State :=
  let loc := r.loc
  match r.kind with
  | .sync op _ _ final =>
    match s.badPiece r with
    | some va => s.respond r ⟨0, 0, some (causeMEMERR, va)⟩
    | none =>
      if op.allowed (s.mem.fe loc) then (s.performSync r).feChanged (some (r.k, r.tid)) loc (s.mem.fe loc)
      else s.syncFails r op final
  | .sete => ((((s.putFe (some (r.k, r.tid)) loc false).dropCopies loc 8).fireWatches loc).ackDue r r.head.va loc).dropReq r.id
  | .probe _ => s.respond r (.ok (if s.mem.fe loc then 1 else 0) 0)
  | _ => s

/-- SYNC_ACCESS_AT_HOME. -/
def execSyncAccessAtHome (s : State) : Out :=
  .next (match s.arg with
    | .n1 id => s.onWay id State.performBit
    | _ => s)

/-- A final try (R120). -/
def ReqKind.finally : ReqKind → ReqKind
  | .sync op d v _ => .sync op d v true
  | x => x

/-- SYNC_TRY_FAIL_RETURN: the next try is sent, after RETRYLIM failures as a final try (R120). -/
def execSyncTryFailReturn (s : State) : Out :=
  .next (match s.arg with
    | .n1 id =>
      match s.req id with
      | none => s
      | some r =>
        match s.thread r.k with
        | none => s
        | some t =>
          let s := s.modT r.k (fun t => { t with tries := t.tries + 1 })
          let s := if t.retrylim.toNat ≤ t.tries + 1 then s.modReq id (fun q => { q with kind := q.kind.finally }) else s
          s.retry .syncAccessAtHome (.n1 id)
    | _ => s)

/-- SYNC_RESEND: a refused request or final try is sent again (R120, R121). -/
def execSyncResend (s : State) : Out :=
  .next (match s.arg with
    | .n1 id => if (s.req id).isSome then s.push .syncAccessAtHome (.n1 id) else s
    | _ => s)

/-- Whether an event is a withdrawal. -/
def Ev.withdraws (e : Ev) : Bool :=
  match e.i with
  | .withdrawalAtHome => true
  | _ => false

/-- WITHDRAWAL_AT_HOME: after everything else of its cycle, the changes of bits and the scans that follow them among it (R385), an entry that
still waits is removed and its instruction takes a WAITLIM trap with no effect; a performed access stands (R121). -/
def execWithdrawalAtHome (s : State) : Out :=
  .next (match s.arg with
    | .n2 k id =>
      match s.req id with
      | none => s
      | some r =>
        if !s.parkedAs k id || r.fin.isSome then s
        else if s.agenda.any (fun e => !e.withdraws) then s.push .withdrawalAtHome (.n2 k id)
        else ((s.dropSync k).wakeThread k).takeTrap k causeWAITLIM r.head.va 0
    | _ => s)

/-- WAITER_WAKE_ARRIVAL: a swapped waiter becomes ready, in its slot or where its context stands (R120). -/
def execWaiterWakeArrival (s : State) : Out :=
  .next (match s.arg with
    | .n2 _ tid => s.modTid tid (fun t => match t.run with
      | .parked (.word _ _) => { t with run := .ready, leaving := none, readyAt := s.cycle + 2 }
      | _ => t)
    | _ => s)

/-! ## Watches (R130, R131) -/

/-- A watch armed at its home: it fires at once, is entered, or is refused when the table is full. It reads a word with an uncorrectable error
as another (log 128). -/
def State.armAtHome (s : State) (r : Req) : State :=
  let loc := r.loc
  let cl := homeCluster loc
  let s := s.dropReq r.id
  match r.kind with
  | .watch rel cmp =>
    if 256 ≤ (s.cluster cl).watches.length then s.tellThread cl r.tid ⟨.watchWakeArrival, .wake r.tid r.id none⟩
    else if rel != 6 && relHolds rel (s.mem.word loc) cmp then
      s.tellThread cl r.tid ⟨.watchWakeArrival, .wake r.tid r.id (some (s.mem.word loc))⟩
    else s.modCluster cl (fun c => { c with watches := c.watches ++ [⟨r.id, r.tid, loc, rel, cmp⟩] })
  | _ => s

/-- WATCH_ARM_AT_HOME. -/
def execWatchArmAtHome (s : State) : Out :=
  .next (match s.arg with
    | .n1 id => s.onWay id State.armAtHome
    | _ => s)

/-- WATCH_WAKE_ARRIVAL: the wake or refusal of the watch that is armed is held for WAIT. -/
def execWatchWakeArrival (s : State) : Out :=
  .next (match s.arg with
    | .wake tid id v => s.modTid tid (fun t =>
        match t.watch with
        | .armed i a => if i = id then { t with watch := match v with
            | some v => .wake v
            | none => .refused a } else t
        | _ => t)
    | _ => s)

/-! ## The way change-over (R91, R92) -/

/-- The ways whose role a change-over changes. -/
def waysChanged (w : DW) : List Nat := (List.range 16).filter (fun i => w.getLsbD i != w.getLsbD (16 + i))

/-- Whether a copy command queued, or a row of it, writes into a way of a cluster that leaves scratch (R91; log 129). -/
def State.copyIntoLeaving (s : State) (cl : Key) : Bool :=
  s.clusters.any (fun c => c.2.copyq.any (fun x => (List.range x.rows).any (fun j =>
    scratchCl (x.dst + j * x.dpitch) == cl && s.leavingWay (x.dst + j * x.dpitch))))

/-- The lines of a cluster's ways that leave the cache. -/
def Cluster.leavingLines (c : Cluster) : List VLine := c.lines.filter (fun l => !c.wmask.getLsbD l.way && c.wmask.getLsbD (16 + l.way))

/-- Those lines written back: each that is dirty enters its channel's write queue and is clean (R91). -/
def State.cleanLeaving (s : State) (cl : Key) : State :=
  let ls := (s.cluster cl).leavingLines
  (ls.foldl State.writeBack s).modCluster cl (fun c => { c with lines := c.lines.map (fun l => if ls.contains l then { l with dirty := false } else l) })

/-- Whether a write-back of such a line has still to reach DRAM. -/
def State.cleaning (s : State) (cl : Key) : Bool :=
  (s.cluster cl).leavingLines.any (fun l => (s.group (l.loc / 2 ^ 32)).wq.any (fun e => e.loc == l.loc))

/-- A way as a change-over leaves it (R92): zero and empty, its format register at its reset value, its lines gone. -/
def State.resetWay (s : State) (cl w : Nat) : State :=
  ((s.modMem (fun m => m.wipe (scratchLoc cl w 0) 65536)).dropCopies (scratchLoc cl w 0) (2 ^ 19)).modCluster cl (fun c => { c with
    bfmt := mdel c.bfmt w, lines := c.lines.filter (fun l => l.way != w) })

/-- WAY_CHANGEOVER. -/
def execWayChangeover (s : State) : Out :=
  .next (match s.arg with
    | .n1 cl =>
      let w := (s.cluster cl).wmask
      if !w.getLsbD 32 then s
      else
        let s := s.cleanLeaving cl
        if s.copyIntoLeaving cl || s.cleaning cl then s.retry .wayChangeover (.n1 cl)
        else
          let s := (waysChanged w).foldl (fun s i => s.resetWay cl i) s
          s.modCluster cl (fun c => { c with wmask := (w &&& 0xFFFF0000) ||| ((w >>> 16).setWidth 16).setWidth 64 })
    | _ => s)

/-! ## The copy engine (R133 to R137, R386) -/

/-- The number of a core in its cluster. -/
def coreIndex (core : Key) : Nat := coreY core % 4 * 4 + coreX core % 4

/-- The command with which a thread of a slot waits for acceptance, once its release conditions hold and its engine may own its destination
alone (R111, R133); a service core's waits on (log 18). -/
def State.copyReady (s : State) (k : Key) (t : Thread) : Option CopyCmd :=
  match t.run, t.pend with
  | .parked .copyAccept, some (.copy c) =>
    if isService (coreOf k) || !s.releasedNow k t .die then none
    else match s.acceptCopy false c with
      | .error _ => some c
      | .ok c' => if s.ownedElsewhere c'.own (.copy (engineOf (coreOf k))) then none else some c
  | _, _ => none

/-- The slot of a cluster whose command is accepted next: that of the first core after the one last accepted (R133). -/
def State.copyWinner (s : State) (cl : Key) : Option Key :=
  let last := (s.cluster cl).copyRR
  let turn (k : Key) : Nat := (coreIndex (coreOf k) + 15 - last) % 16 * 8 + slotOf k
  (s.threads.filter (fun e => !isService (coreOf e.1) && clusterOf (coreOf e.1) == cl && (s.copyReady e.1 e.2).isSome)).foldl (fun o e => match o with
    | none => some e.1
    | some k => if turn e.1 < turn k then some e.1 else some k) none

/-- The command of a slot accepted, or its trap (R133): what it takes is taken, and the engine owns its destination. -/
def State.takeCopy (s : State) (k : Key) (t : Thread) (c : CopyCmd) : State :=
  let cl := engineOf (coreOf k)
  match s.acceptCopy false c with
  | .error h => (s.modT k (fun t => { t with run := .ready, readyAt := s.cycle + 2, pend := none })).stopped k t h
  | .ok c' =>
    let idle := (s.cluster cl).copyq.isEmpty
    let s := (s.modCluster cl (fun x => { x with copyq := x.copyq ++ [c'], copyRR := coreIndex (coreOf k) })).dropOwned c'.own
    let s := (s.takeNow k t).modT k (fun t => { t.complete t.npc s.cycle with pend := none, copySeq := t.copySeq + 1 })
    if idle then s.copyNext cl else s

/-- COPY_ACCEPT: of the commands of a cluster that are ready the one whose turn it is is accepted, or traps; this one waits. -/
def execCopyAccept (s : State) : Out :=
  .next (match s.arg with
    | .n1 k =>
      match s.thread k with
      | none => s
      | some t =>
        match t.run, t.pend with
        | .parked .copyAccept, some (.copy c) =>
          let cl := engineOf (coreOf k)
          if 32 ≤ (s.cluster cl).copyq.length || (s.copyReady k t).isNone then s.retry .copyAccept (.n1 k)
          else match s.copyWinner cl with
            | none => s.takeCopy k t c
            | some j =>
              if j = k then s.takeCopy k t c
              else match s.thread j with
                | some u => match s.copyReady j u with
                  | some d => (s.takeCopy j u d).push .copyAccept (.n1 k)
                  | none => s
                | none => s
        | _, _ => s
    | _ => s)

/-- The die of a copy engine. -/
def engineDie (cl : Key) : Nat := dieOfCluster cl

/-- COPY_UNIT_WRITE. -/
def execCopyUnitWrite (s : State) : Out :=
  .next (match s.arg with
    | .n1 cl => s.copyUnit (engineDie cl) cl
    | _ => s)

/-- COPY_COMPLETE: once the command's writes have drained (R111) its record is pushed to q0 (R137; log 60). -/
def execCopyComplete (s : State) : Out :=
  .next (match s.arg with
    | .n1 cl =>
      match (s.cluster cl).copyq with
      | [] => s
      | c :: l =>
        if c.status == 0 && c.row < c.rows then s
        else if s.draining cl then s.retryOnce .copyComplete (.n1 cl)
        else
          let st := c.status.toNat
          let s := s.modCluster cl (fun x => { x with copyq := l })
          (s.pushRecord c.tid c.part c.launch st (recordCause st) (fun t =>
            { t with q0 := t.q0 ++ [dw (c.seq.toNat * 2 ^ 32 + st)] })).copyNext cl
    | _ => s)

/-- COPY_UNIT_TIMEOUT: the unit is written again, as before, while its destination is still owned: nothing changes (R386, R387). -/
def execCopyUnitTimeout (s : State) : Out := .next s

end Sys2Proof.Machine
end

