-- ==== Sys2Proof/Machine/EvWork.lean ====
section
/-! DEFINITION. The hardware's own steps of the work hierarchy (14_scheduling R237 to R252, 15 R261, R267, R270) and what acts at a
thread's boundary or ends its wait (22_traps R367, R372, R373, R375; 07 R138, R139). -/

namespace Sys2Proof.Machine

/-! ## Launches (R242 to R244) -/

/-- LAUNCH_START: eligible launches enter their queues, and the head of the highest-priority nonempty queue starts if its
segments have room and none has started in this cycle. -/
def execLaunchStart (s : State) : Out :=
  .next (match s.arg with
    | .n1 d =>
      let s := (s.eligibleLaunches d).foldl (fun s r => s.enqueueLaunch d r) s
      match (s.die d).headLaunch with
      | none => s
      | some (p, r) =>
        let x := s.launch d r
        if (s.die d).launchAt != s.cycle + 1 && s.seedsFit d x then
          let s := s.modDie d (fun y => { y with launchAt := s.cycle + 1, lqueues := y.lqueues.setIfInBounds p ((y.lqueues.toList.getD p []).drop 1) })
          let s := (s.modLaunch d r (fun x => { x with stage := .started })).writeSeeds d r x
          if (s.die d).headLaunch.isSome then s.wantLaunch (s.cycle + 1) d else s
        else s.wantLaunch (s.cycle + 1) d
    | _ => s)

/-- Whether a write of a launch's threads is still to be performed and acknowledged (R244). -/
def State.launchWrites (s : State) (part : Nat) (h : BitVec 32) : Bool :=
  s.cores.any (fun c => c.2.sbuf.any (fun e => e.launch == h && e.part == part)) ||
  s.reqs.any (fun r => r.launch == h && r.part == part && r.kind.writes) ||
  s.acks.any (fun a => a.launch == h && a.part == part)

/-- RELEASE_FLUSH_DONE: the flush of an ended launch completes once its threads' writes are performed and acknowledged. -/
def execReleaseFlushDone (s : State) : Out :=
  .next (match s.arg with
    | .n2 part h =>
      let hb : BitVec 32 := BitVec.ofNat 32 h
      match s.flushes.find? (fun f => f.part == part && f.launch == hb) with
      | none => s
      | some f =>
        if s.launchWrites part hb then s.retry .releaseFlushDone (.n2 part h)
        else
          let s : State := { s with flushes := s.flushes.filter (fun x => !(x.part == part && x.launch == hb)) }
          let s := f.levels.foldl (fun s l => modGraphOf s part l (fun g =>
            let i := g.members.idxOf hb
            if i < g.members.length then { g with flushed := g.flushed ||| BitVec.ofNat 32 (2 ^ i) } else g)) s
          s.lookAtLaunches
    | _ => s)

/-! ## Slots and contexts (R245, R252) -/

/-- SLOT_ASSIGN: one claim of a cluster takes a free slot; the next is looked for. -/
def execSlotAssign (s : State) : Out :=
  .next (match s.arg with
    | .n1 cl =>
      match s.nextClaim cl with
      | none => s
      | some (.ctx core x k) =>
        (((s.reserve k).slotTaken k x.id).push .contextRestore (.n3 core x.id k)).push .slotAssign (.n1 cl)
      | some (.inbox x k) =>
        ((s.slotTaken k x.id).putCtx k { x with th := { x.th.unwait with run := .ready } }).push .slotAssign (.n1 cl)
      | some (.seed sd k) =>
        let s := (s.reserve k).slotTaken k 0
        ((s.modCluster cl (fun c => { c with seeds := c.seeds.erase sd })).push .threadStart (.seed k sd)).push .slotAssign (.n1 cl)
    | _ => s)

/-- THREAD_START: a seed's thread begins in its slot (R243). -/
def execThreadStart (s : State) : Out :=
  .next (match s.arg with
    | .seed k sd =>
      let s := s.unreserve k
      if (s.thread k).isSome then
        s.modCluster (clusterOf (coreOf k)) (fun c => { c with seeds := sd :: c.seeds })
      else
        let t := s.seedThread sd
        { s with nextId := s.nextId + 1, threads := mput s.threads k t }
    | _ => s)

/-- CONTEXT_SWAP_OUT: a context leaves its slot once nothing is owed to it and it stands where it may leave (R21, R252). -/
def execContextSwapOut (s : State) : Out :=
  .next (match s.arg with
    | .n2 k tid =>
      match s.thread k with
      | none => s
      | some t =>
        if t.tid != tid || t.leaving.isNone || t.thsBit thsCANP || t.run == .ending then s
        else if t.mayLeave && s.settled k t then s.vacate k t
        else s.retry .contextSwapOut (.n2 k tid)
    | _ => s)

/-- CONTEXT_RESTORE: a ready context is put in its slot. -/
def execContextRestore (s : State) : Out :=
  .next (match s.arg with
    | .n3 core id k =>
      match ((s.core core).cache ++ (s.core core).backing).find? (fun x => x.id == id) with
      | none => s.unreserve k
      | some x => if (s.thread k).isSome then s.unreserve k else s.putCtx k x
    | _ => s)

/-! ## Migration (R248) -/

/-- Whether a fence stops the packets of a migration (R361). -/
def State.severed (s : State) (k cl : Key) : Bool := (s.die (dieOfCluster cl)).fenced || (s.die (dieOfCore (coreOf k))).fenced

/-- MIGRATION_RESERVATION: the home cluster reserves a slot or an inbox entry; the packet's arrival is due. -/
def execMigrationReservation (s : State) : Out :=
  .next (match s.arg with
    | .n2 k cl =>
      match s.thread k with
      | none => s
      | some t =>
        if t.run != .parked (.migrate cl) then s
        else if s.severed k cl then s.wakeThread k
        else match s.clusterSlot cl with
          | some x => (s.reserve x).push .migrationArrival (.n3 t.tid cl (x + 1))
          | none =>
            if (s.cluster cl).inbox.length + (s.cluster cl).resInbox < 16 then
              (s.modCluster cl (fun c => { c with resInbox := c.resInbox + 1 })).push .migrationArrival (.n3 t.tid cl 0)
            else s.wakeThread k
    | _ => s)

/-- A reservation given back (R248). -/
def State.unreserveFor (s : State) (cl x : Nat) : State :=
  if x = 0 then s.modCluster cl (fun c => { c with resInbox := c.resInbox - 1 })
  else (s.unreserve (x - 1)).offerSlots cl

/-- A thread as its packet brings it to another core (R20): its slot state is that of thread start. -/
def Thread.migrated (t : Thread) : Thread :=
  { t with trapcause := 0, trappc := 0, trapaddr := 0, run := .ready, leaving := none, duty := [] }

/-- MIGRATION_ARRIVAL: the packet leaves once its thread's results are written and its stores have drained, and takes the reserved
slot or waits in the inbox. -/
def execMigrationArrival (s : State) : Out :=
  .next (match s.arg with
    | .n3 tid cl x =>
      match s.slotOfTid tid with
      | none => s.unreserveFor cl x
      | some k =>
        match s.thread k with
        | none => s.unreserveFor cl x
        | some t =>
          if t.run != .parked (.migrate cl) then s.unreserveFor cl x
          else if s.severed k cl then (s.unreserveFor cl x).wakeThread k
          else if !s.settled k t then
            s.retry .migrationArrival (.n3 tid cl x)
          else
            let s := s.sendDuty t
            let d := dieOfCore (coreOf k)
            let s := (s.heard (dieOfCluster cl) d (s.clockOf d)).unreserveFor cl x
            let s : State := { s with threads := mdel s.threads k }
            let s := s.offerSlots (clusterOf (coreOf k))
            let c : Ctx := ⟨s.nextId, k, t.migrated, none, false⟩
            let s : State := { s with nextId := s.nextId + 1 }
            if x = 0 then (s.modCluster cl (fun y => { y with inbox := y.inbox ++ [c] })).offerSlots cl
            else s.putCtx (x - 1) c
    | _ => s)

/-! ## Barriers (R250, R270) -/

/-- BARRIER_ROW_COMPLETION received by a core. -/
def execBarrierRowCompletion (s : State) : Out :=
  .next (match s.arg with
    | .n2 core n =>
      let s := s.modBar core n (fun b => { b with rowIn := true })
      if ((s.core core).bar n).arrived then s.rowComplete core n else s
    | _ => s)

/-- BARRIER_COLUMN_COMPLETION received by an origin-column core. -/
def execBarrierColumnCompletion (s : State) : Out :=
  .next (match s.arg with
    | .n2 core n =>
      let s := s.modBar core n (fun b => { b with colIn := true })
      if ((s.core core).bar n).rowDone (coreX core) then s.colComplete core n else s
    | _ => s)

/-- BARRIER_RELEASE: with 0, the release reaches a core; with 1, a held arrival takes effect in the cycle after it. -/
def execBarrierRelease (s : State) : Out :=
  .next (match s.arg with
    | .n3 core n held =>
      if held = 0 then
        let h := ((s.core core).bar n).heldArr
        let s := s.modBar core n (fun b => { b with reg := barNext b.reg, arrived := false, rowIn := false, colIn := false })
        if h then s.at (s.cycle + 1) .barrierRelease (.n3 core n 1) else s
      else if ((s.core core).bar n).heldArr then
        (s.modBar core n (fun b => { b with heldArr := false, reg := barSetCnt b.reg 0 })).arrive core n
      else s
    | _ => s)

/-! ## Waits that end by themselves (R261, R267) -/

/-- The parked thread of that wait made ready, wherever its context stands. -/
def State.endWait (s : State) (tid id : Nat) (p : Park → Bool) : State :=
  s.modTid tid (fun t => match t.run with
    | .parked x => if t.waitId = id && p x then { t.woken s.cycle with leaving := none } else t
    | _ => t)

/-- YIELD_DEADLINE: CYCLE has reached the deadline. -/
def execYieldDeadline (s : State) : Out :=
  .next (match s.arg with
    | .n2 tid id => s.endWait tid id (fun p => match p with
      | .cycle _ => true
      | _ => false)
    | _ => s)

/-- YIELD_READY_TIMEOUT: 256 cycles have passed. -/
def execYieldReadyTimeout (s : State) : Out :=
  .next (match s.arg with
    | .n2 tid id => s.endWait tid id (fun p => match p with
      | .yield _ => true
      | _ => false)
    | _ => s)

/-- CCWAIT_RESEND: a refused CCWAIT is sent again (R267). -/
def execCcwaitResend (s : State) : Out :=
  .next (match s.arg with
    | .n2 tid id =>
      match s.threadOf tid with
      | none => s
      | some t =>
        match t.run with
        | .parked (.counterFull h) =>
          if t.waitId != id then s
          else match checkHandle s t.partN h.toNat with
            | .live l =>
              if (s.counter l).waiters.length < 64 then
                (s.modCounter l (fun c => { c with waiters := c.waiters ++ [tid] })).modTid tid (fun t =>
                  { t with run := .parked (.counter h) })
              else s.at (s.cycle + 64) .ccwaitResend (.n2 tid id)
            | _ => s.endWait tid id (fun _ => true)
        | _ => s
    | _ => s)

/-! ## At a boundary (R367) -/

/-- UI_ENTRY (R139): the shadow set is taken, UIACT set, and the thread stands at UIVEC. -/
def Thread.enterUi (t : Thread) : Thread :=
  let t := t.unwait
  let g (i : Nat) : RegCell 64 := { t.gcell (20 + i) with mark := false, owed := false }
  let ps := predsFrom (predWord t.p) (predFe t.p)
  { t with
    shadow := ⟨t.pc, ps, #v[g 0, g 1, g 2, g 3]⟩
    ths := withBit t.ths thsUIACT true
    pc := t.uivec
    run := .ready }

/-- UI_ENTRY. -/
def execUiEntry (s : State) : Out :=
  .next (match s.arg with
    | .n1 k => s.modT k (fun t => if t.uiDue && t.atBoundary then t.enterUi else t)
    | _ => s)

/-- ASYNC_TRAP_ENTRY: the oldest asynchronous trap is taken (R375, R369). -/
def execAsyncTrapEntry (s : State) : Out :=
  .next (match s.arg with
    | .n1 k =>
      match s.thread k with
      | none => s
      | some t =>
        match t.asyncTraps with
        | [] => s
        | (cause, a) :: l =>
          if t.atBoundary && !t.thsBit thsINTRAP then
            (s.modT k (fun t => { t.unwait with asyncTraps := l, run := .ready })).takeTrap k cause.toNat a.toNat 0
          else s
    | _ => s)

/-- WAKE_DUTY: one waiter is sent its wake (R373). -/
def execWakeDuty (s : State) : Out :=
  .next (match s.arg with
    | .n1 k =>
      match s.thread k with
      | none => s
      | some t =>
        match t.duty with
        | [] => s
        | w :: l => (s.modT k (fun t => { t with duty := l })).push .waiterWakeArrival (.n2 w.1 w.2)
    | _ => s)

/-- CANCEL_AT_BOUNDARY: a cancelled thread ends (R241). -/
def execCancelAtBoundary (s : State) : Out :=
  .next (match s.arg with
    | .n1 k =>
      match s.thread k with
      | none => s
      | some t => if t.thsBit thsCANP then s.startEnding k else s
    | _ => s)

/-! ## Wait limits (R372) -/

/-- The exact WAITLIM trap of a thread whose wait expired: in its slot at once, else as its context is restored. -/
def State.expire (s : State) (t : Thread) (a : Nat) : State :=
  let s := (s.dropWait t).modTid t.tid Thread.unwait
  match s.slotOfTid t.tid with
  | some k => (s.wakeThread k).takeTrap k causeWAITLIM a 0
  | none => s.modTid t.tid (fun t => { t with run := .entering causeWAITLIM a 0 })

/-- A parked thread's wait expired, by what it waits for. -/
def State.expireWait (s : State) (t : Thread) (p : Park) : State :=
  match p with
  | .sync id => match s.slotOfTid t.tid with
    | some k => s.push .withdrawalAtHome (.n2 k id)
    | none => s
  | .plankAccept | .copyAccept => (s.modTid t.tid (fun t => { t with pend := none })).expire t 0
  | .pushRoom _ => (s.modTid t.tid (fun t => t.setFifo 4 [])).expire t 0
  | _ => s.expire t 0

/-- The withdrawal of a port operation whose limit expired. -/
def State.portExpiry (s : State) (t : Thread) (id : Nat) : State :=
  t.ports.foldl (fun s p => match (s.port p).bind (·.op) with
    | some o => if o.id = id then s.withdraw p none true else s
    | none => s) s

/-- The expiry of what does not park its thread: a lease request leaves its register empty and marked (R225, R414). -/
def State.otherExpiry (s : State) (t : Thread) (id : Nat) : State :=
  match t.leaseOwe with
  | some (d, i) =>
    if i = id then s.modTid t.tid (fun t => { t.markReg (.g d) with lease := .none, leaseOwe := none })
    else s.portExpiry t id
  | none => s.portExpiry t id

/-- WAITLIM_EXPIRY: of a parked wait, of a lease request (R225), or of a port operation (R288). -/
def execWaitlimExpiry (s : State) : Out :=
  .next (match s.arg with
    | .n2 tid id =>
      match s.threadOf tid with
      | none => s
      | some t =>
        match t.run with
        | .parked p => if t.waitId = id then s.expireWait t p else s.otherExpiry t id
        | _ => s.otherExpiry t id
    | _ => s)

end Sys2Proof.Machine
end

