-- ==== Sys2Proof/Machine/EvGang.lean ====
section
/-! DEFINITION. Configuration writes as they are performed (05_memory_spaces R82, 21_isolation R341, R342, R345, R349, R351, R355),
the gang switch (R351 to R354) and resizing (R355). -/

namespace Sys2Proof.Machine

/-! ## Configuration writes -/

/-- A configuration store performed at its unit, if the event names a register. -/
def State.atReg (s : State) (f : CfgReg → DW → State) : Out :=
  .next (match s.arg with
    | .val _ x v => match cfgReg x with
      | some r => f r v
      | none => s
    | _ => s)

/-- PCFG_WRITE: DOMAIN is writable only while VALID is 0 (R341). -/
def execPcfgWrite (s : State) : Out :=
  s.atReg (fun r v => match r with
    | .part p 0 => s.modPart p (fun x => { x with
        pcfg := keep v 63 63 ||| (if x.valid then keep x.pcfg 11 0 else keep v 11 0) })
    | _ => s)

/-- Whether a group is in a mask (R341). -/
def inMask (m : Vector DW 2) (g : Key) : Bool := (m.toList.getD (g / 64) 0).getLsbD (g % 64)

/-- A mask with a group in it or not. -/
def setMask (m : Vector DW 2) (g : Key) (b : Bool) : Vector DW 2 :=
  let w := m.toList.getD (g / 64) 0
  let one := dw (2 ^ (g % 64))
  m.setIfInBounds (g / 64) (if b then w ||| one else w &&& ~~~one)

/-- PGRP_WRITE: the groups change, and with them every switch's permission table (R82, R342). -/
def execPgrpWrite (s : State) : Out :=
  s.atReg (fun r v => match r with
    | .part p i =>
      if i = 1 ∨ i = 2 then s.modPart p (fun x =>
        let m := x.pgrp.setIfInBounds (i - 1) v
        { x with pgrp := m, resize := none, gone := x.gone.filter (fun g => !inMask m g) })
      else s
    | _ => s)

/-- PNEXT_WRITE: a resize is asked for; the mask as it stands is kept for re-homing (R355). -/
def execPnextWrite (s : State) : Out :=
  s.atReg (fun r v => match r with
    | .part p i =>
      if i = 3 ∨ i = 4 then s.modPart p (fun x => { x with pnext := x.pnext.setIfInBounds (i - 3) v, resize := some x.pgrp }) else s
    | _ => s)

/-- The next multiple of a number of ns after now. -/
def State.nextMultiple (s : State) (n : Nat) : Nat := (s.rtime / n + 1) * n

/-- GSCHED_WRITE: it takes effect at the group's next tick, or at the next whole millisecond if no tick falls on the group (R351). -/
def execGschedWrite (s : State) : Out :=
  s.atReg (fun r v => match r with
    | .gsched g =>
      let s' := s.modGroup g (fun x => { x with gpend := some (keep v 63 47 ||| keep v 41 40 ||| keep v 39 20) })
      if gPeriod (s.group g).gsched = 0 then
        s'.atNs (s.nextMultiple 1000000) .gschedTakeEffect (.n1 (dieOfGroup g))
      else s'
    | _ => s)

/-- WSHARE_WRITE (R345). -/
def execWshareWrite (s : State) : Out :=
  s.atReg (fun r v => match r with
    | .wshare c p => s.modCluster c (fun x => { x with wshare := mput x.wshare p (v.setWidth 16) })
    | _ => s)

/-- FREL_WRITE: each OWNED frame named becomes DIRTY (R82, R349). -/
def execFrelWrite (s : State) : Out :=
  s.atReg (fun r v => match r with
    | .frel g =>
      let f := bits v.toNat 31 12
      let n := bits v.toNat 51 32 + 1
      s.modGroup g (fun x => { x with frames := x.frames.map (fun e => if f ≤ e.1 ∧ e.1 < f + n then (e.1, .dirty) else e) })
    | _ => s)

/-- CONFIG_WRITE (R82). -/
def execConfigWrite (s : State) : Out := s.atReg (fun r v => s.cfgWrite r v)

/-! ## Images (R352, R353) -/

/-- Whether a slot is in a group. -/
def inGroup (g : Key) (k : Key) : Bool := !isService (coreOf k) && groupOf (coreOf k) == g

/-- A cluster with the part of another that belongs to its resident partition; the rest is its slice's own. -/
def Cluster.withPart (c x : Cluster) : Cluster :=
  { c with
    copyq := x.copyq, copyRR := x.copyRR, seeds := x.seeds, tasks := x.tasks, inbox := x.inbox, resSlots := x.resSlots
    resInbox := x.resInbox, brim := x.brim }

/-- The part of a cluster that belongs to its resident partition. -/
def Cluster.partOnly (c : Cluster) : Cluster := Cluster.reset.withPart c

/-- Whether a waiting event goes into a group's image: it acts on a thread, a core, or a reservation there. -/
def keptEv (g : Key) (tids : List Nat) (e : Ev) : Bool :=
  match e.i, e.arg with
  | .waitlimExpiry, .n2 tid _ => tids.contains tid
  | .contextSwapOut, .n2 k _ => inGroup g k
  | .migrationArrival, .n3 tid cl _ => tids.contains tid || groupOfCluster cl == g
  | .barrierRowCompletion, .n2 c _ | .barrierColumnCompletion, .n2 c _ => groupOf c == g && !isService c
  | .barrierRelease, .n3 c _ _ => groupOf c == g && !isService c
  | _, _ => false

/-- Whether a waiting event is of an engine of a group, which starts anew with the state it finds. -/
def engineEv (g : Key) (e : Ev) : Bool :=
  match e.i, e.arg with
  | .copyUnitWrite, .n1 cl | .copyComplete, .n1 cl => groupOfCluster cl == g && cl < 512
  | .plankCommandEnd, .n1 x | .leaseGrant, .n1 x => x == g
  | .leaseCycleLimit, .n2 x _ => x == g
  | .copyAccept, .n1 k | .plankAccept, .n1 k => inGroup g k
  | _, _ => false

/-- The resident partition's state of a group as an image: slots, context caches, inboxes, engine queues and progress, Plank and
lease, Brim bindings, with the events that wait. Caches stay; of a lease the cycles are kept that it had lasted at the tick (R218). -/
def State.saveImage (s : State) (g : Key) : GImage :=
  let ts := s.threads.filter (fun e => inGroup g e.1)
  let cores := (s.cores.filter (fun c => !isService c.1 && groupOf c.1 == g)).map (fun c =>
    (c.1, { c.2 with plb := [], icache := [], dcache := [], stopped := false }))
  let clusters := (s.clusters.filter (fun c => c.1 < 512 && groupOfCluster c.1 == g)).map (fun c => (c.1, c.2.partOnly))
  let p := (s.group g).plank
  let d := s.die (dieOfGroup g)
  let x : GImage := ⟨ts, cores, clusters, { p with since := d.swapTick - p.since }, [], d.swapNs⟩
  let tids := x.all.map (·.tid)
  { x with held := (s.timers.filter (fun t => keptEv g tids t.2)).map (fun t => (t.1 - s.cycle, t.2)) }

/-- A group's state replaced by an image, the held events due again. -/
def State.loadImage (s : State) (g : Key) (x : GImage) : State :=
  let tids := (s.saveImage g).all.map (·.tid)
  let threads := x.threads.foldl (fun m e => mput m e.1 e.2) (s.threads.filter (fun e => !inGroup g e.1))
  let s : State := { s with threads := threads, timers := s.timers.filter (fun t => !keptEv g tids t.2 && !engineEv g t.2) }
  let s := (List.range 64).foldl (fun s i =>
    let c := coreInCluster (clusterInGroup g (i / 16)) (i % 16)
    match mget s.cores c, mget x.cores c with
    | none, none => s
    | _, y => s.modCore c (fun z => { y.getD Core.reset with plb := z.plb, icache := z.icache, dcache := z.dcache, stopped := z.stopped })) s
  let s := (List.range 4).foldl (fun s i =>
    let cl := clusterInGroup g i
    match mget s.clusters cl, mget x.clusters cl with
    | none, none => s
    | _, y => s.modCluster cl (fun z => z.withPart (y.getD Cluster.reset))) s
  let s := s.modPlank g (fun z => { x.plank with
    since := s.cycle - x.plank.since, govDelay := z.govDelay, govAt := z.govAt, completed := z.completed, retired := z.retired })
  x.held.foldl (fun s e => s.at (s.cycle + e.1) e.2.i e.2.arg) s

/-- Everything of a group that may now go on: engines, slots, lease, Carders and rotor ports. -/
def State.resume (s : State) (g : Key) : State :=
  let s := (List.range 4).foldl (fun s i =>
    let cl := clusterInGroup g i
    ((s.copyNext cl).offerSlots cl).wantStep ⟨dieOfGroup g, 0, cl % 64⟩) s
  let p := (s.group g).plank
  let s := match p.queue with
    | c :: _ => if c.started then s.pushOnce .plankCommandEnd (.n1 g) else s.plankStart g
    | [] => s
  let s := if p.holder.isSome then s.at (max (s.cycle + 1) (p.since + 65536)) .leaseCycleLimit (.n2 g p.since)
    else if (s.leaseWaiters g).isEmpty then s else s.at (s.cycle + 1) .leaseGrant (.n1 g)
  let s := ((s.wantStep ⟨dieOfGroup g, 1, g % 16⟩).wantStep ⟨dieOfGroup g, 2, quadOf g⟩).wantStep ⟨dieOfGroup g, 3, 0⟩
  s.io.rports.foldl (fun s p => s.kick p.1) s

/-! ## Re-homing (R355, R391) -/

/-- The groups of a mask, in ascending order of die and group. -/
def maskGroups (m : Vector DW 2) : List Key := (List.range 128).filter (fun g => inMask m g)

/-- The core of a group at the place that another core has in its own. -/
def sameCore (g : Key) (c : Key) : Key := dieOfGroup g * 1024 + (g % 16 / 4 * 8 + coreY c % 8) * 32 + g % 4 * 8 + coreX c % 8

/-- A thread as re-homing leaves it: its k registers unbound, its watch and lease gone, its instruction to be issued again. -/
def Thread.rehomed (t : Thread) : Thread :=
  let t := match t.leaseOwe with
    | some x => t.emptyReg (.g x.1)
    | none => t
  let t := t.unwait
  let run := match t.run with
    | .dropped _ _ _ | .parked _ | .again => .ready
    | r => r
  { t with
    run := run, pend := none, took := [], tries := 0, leaving := none, duty := []
    k := Vector.replicate 16 none, watch := .none, lease := .none, leaseOwe := none }

/-- A context placed on a core of its partition, in the backing area, ready to enter. -/
def State.rehomeCtx (s : State) (c : Key) (x : Ctx) : State :=
  let t := x.th
  let s := ((s.sendDuty t).dropWait t).endWatch t.tid
  let s := t.ports.foldl (fun s p => s.modPort p (fun y => { y with holder := none })) s
  let y : Ctx := ⟨s.nextId, 8 * c + slotOf x.slot, { t.rehomed with watch := .none }, some s.cycle, x.hold⟩
  let s : State := { s with nextId := s.nextId + 1 }
  let add (z : Core) : Core := { z with backing := z.backing ++ [y] }
  if s.residentOn t.partN (groupOf c) then (s.modCore c add).offerSlots (clusterOf c)
  else s.modImage t.partN (groupOf c) (fun i => { i with cores := mput i.cores c (add ((mget i.cores c).getD Core.reset)) })

/-- The group a removed group's contexts go to, if the partition keeps any (R355). -/
def State.rehomeGroup (s : State) (part : Nat) (g : Key) : Option Key :=
  let p := s.partn part
  let after := maskGroups p.pnext
  after[(maskGroups (p.resize.getD p.pgrp)).idxOf g % after.length]?

/-- The contexts of an image. -/
def GImage.ctxs (x : GImage) : List Ctx :=
  x.threads.map (fun e => ⟨0, e.1, e.2, none, false⟩) ++ x.cores.flatMap (fun c => c.2.cache ++ c.2.backing) ++
  x.clusters.flatMap (fun c => c.2.inbox)

/-- What a removed group's event list still asks for: journal answers, and migrations and reservations given up. -/
def State.settleHeld (s : State) (g : Key) (x : GImage) : State :=
  x.held.foldl (fun s e => match e.2.i, e.2.arg with
    | .migrationArrival, .n3 tid cl w =>
      if groupOfCluster cl == g then s.modTid tid (fun t => match t.run with
        | .parked (.migrate _) => { t with run := .ready, readyAt := s.cycle + 2 }
        | _ => t)
      else s.unreserveFor cl w
    | .journalRefusal, .n3 core j cause => match (mget x.cores core).bind (fun c => mget c.journal j) with
      | some j => s.push .faultReportArrival (.report ⟨j.part, j.launch, BitVec.ofNat 8 cause⟩)
      | none => s
    | _, _ => s) s

/-- The commands, seeds and tasks of a removed cluster put at the same place of another group; a copy into the scratch that is
gone fails there with STATUS 2. -/
def State.moveCluster (s : State) (part : Nat) (h : Key) (cl : Key) (c : Cluster) : State :=
  let cl' := clusterInGroup h (cl % 64 / 8 % 2 * 2 + cl % 2)
  let idle := (s.clusterFor part cl').copyq.isEmpty
  let s := s.modClusterFor part cl' (fun z => { z with
    copyq := z.copyq ++ c.copyq
    seeds := z.seeds ++ c.seeds.map (fun d => { d with core := sameCore h d.core })
    tasks := z.tasks ++ c.tasks })
  if !s.residentOn part h then s
  else (if idle then s.copyNext cl' else s).offerSlots cl'

/-- A removed group's image disposed of (R355, R375). -/
def State.rehome (s : State) (part : Nat) (g : Key) (x : GImage) : State :=
  match s.rehomeGroup part g with
  | none => s.modPart part (fun p => { p with images := mput p.images g x })
  | some h =>
    let s := s.modPart part (fun p => { p with images := mput p.images g x })
    let s := x.clusters.foldl (fun s c => c.2.brim.foldl (fun s r => match r.2.b with
      | some b => s.dropBrim r.1 b
      | none => s) s) s
    let x := s.image part g
    let s := s.modPart part (fun p => { p with images := mdel p.images g })
    let s := x.plank.queue.foldl (fun s c => s.pushRecord c.tid c.part c.launch 2 causeSCRATCHGONE (fun t =>
      { t with q1 := t.q1 ++ [dw (c.seq.toNat * 2 ^ 32 + recordFlags c.flags + 2)] })) s
    let s := s.settleHeld g x
    let s := x.cores.foldl (fun s c => c.2.journal.foldl (fun s j => match j.2.st with
      | .refused cause => s.report j.2.part j.2.launch cause.toNat
      | .pending => s) s) s
    let s := x.ctxs.foldl (fun s c => s.rehomeCtx (sameCore h (coreOf c.slot)) c) s
    x.clusters.foldl (fun s c => s.moveCluster part h c.1 c.2) s

/-- The threads of a core: in its slots, its context cache and its backing area. -/
def State.coreCtxs (s : State) (c : Key) : List Ctx :=
  (s.threads.filter (fun e => coreOf e.1 == c)).map (fun e => ⟨0, e.1, e.2, none, false⟩) ++ (s.core c).cache ++ (s.core c).backing

/-- The contexts of a core that no spare replaces re-homed (R391, R355): to the partition's other groups. -/
def State.evacuate (s : State) (c : Key) : State :=
  let xs := s.coreCtxs c
  let g := groupOf c
  let s := (s.core c).journal.foldl (fun s j => match j.2.st with
    | .refused cause => s.report j.2.part j.2.launch cause.toNat
    | .pending => s) s
  let s : State := { s with threads := s.threads.filter (fun e => coreOf e.1 != c) }
  let s := s.modCore c (fun x => { x with cache := [], backing := [], journal := [] })
  xs.foldl (fun s x =>
    let gs := s.groupsOf x.th.partN
    let others := gs.filter (· != g)
    match others[gs.idxOf g % others.length]? with
    | some h => (if (s.group g).plank.holder = some x.th.tid then s.leaseFreed g else s).rehomeCtx (sameCore h c) x
    | none => s.modCore c (fun y => { y with backing := y.backing ++ [x] })) s

/-- The retired cores of a group evacuated: what an image brings to them goes on elsewhere. -/
def State.evacuateRetired (s : State) (g : Key) : State :=
  s.io.retired.foldl (fun s u => match u with
    | .core c => if !isService c && groupOf c == g && !s.io.replacing.contains u then s.evacuate c else s
    | _ => s) s

/-! ## Ticks (R351, R352, R355) -/

/-- The scratch ways of a partition in a cluster returned to cache (R355, R91, R92). -/
def State.returnWays (s : State) (part : Nat) (cl : Key) : State :=
  let sh := (mget (s.cluster cl).wshare part).getD 0
  let s := ((List.range 16).filter (fun i => sh.getLsbD i && (s.cluster cl).wmask.getLsbD i)).foldl (fun s i => s.resetWay cl i) s
  s.modCluster cl (fun c => { c with wmask := c.wmask &&& ~~~(sh.setWidth 64) })

/-- The connectors of a partition with a port or region in a group stopped (R355, R306). -/
def State.stopConsIn (s : State) (part : Nat) (g : Key) : State :=
  s.dies.foldl (fun s d => d.2.conns.foldl (fun s r => match r.2.con with
    | some con =>
      if con.part = part ∧ (con.ports.any (fun p => groupOf p.2.place == g && !isService p.2.place) ||
          con.regions.any (fun x => (carderGroups x.2.carder).contains g)) then s.stopCon d.1 r.1 con else s
    | none => s) s) s

/-- A group leaves a partition at a tick (R355); its contexts follow when its cores have stopped. -/
def State.removeGroup (s : State) (part : Nat) (g : Key) : State :=
  let s := s.modPart part (fun p => { p with pgrp := setMask p.pgrp g false, gone := nadd p.gone g })
  let s := (List.range 4).foldl (fun s i => s.returnWays part (clusterInGroup g i)) s
  let s := s.stopConsIn part g
  let dom := s.domainOf part
  { s with cores := s.cores.map (fun c => (c.1, { c.2 with plb := c.2.plb.filter (fun r => r.dom != dom) })) }

/-- A group joins a partition at a tick, with empty state. -/
def State.addGroup (s : State) (part : Nat) (g : Key) : State :=
  s.modPart part (fun p => { p with pgrp := setMask p.pgrp g true, gone := ndel p.gone g, images := mdel p.images g })

/-- The resizes that take effect at a tick of a group. -/
def State.resizeAt (s : State) (g : Key) : State :=
  s.parts.foldl (fun s e =>
    let p := s.partn e.1
    if p.resize.isNone || inMask p.pgrp g == inMask p.pnext g then s
    else if inMask p.pnext g then s.addGroup e.1 g else s.removeGroup e.1 g) s

/-- A tick of one group: a pending schedule takes effect, the resizes too, and the owner is found. -/
def State.tickGroup (s : State) (g : Key) : State :=
  let s := s.modGroup g (fun x => { x with gsched := x.gpend.getD x.gsched, gpend := none })
  let x := s.group g
  let was := inMask (s.partn x.owner).pgrp g
  let s := s.resizeAt g
  let new := ownerAt x.gsched s.rtime
  let left := (was && !inMask (s.partn x.owner).pgrp g) || s.parts.any (fun e => !inMask e.2.pgrp g && (mget e.2.images g).isSome)
  if new = x.owner ∧ !left then s.modGroup g (fun x => { x with incoming := none })
  else s.modGroup g (fun x => { x with incoming := some new })

/-- Whether the partition that comes to a group has an image there which no half of the die's Bandbox holds (R353). -/
def State.unloaded (s : State) (d : Nat) (g : Key) : Bool :=
  match (s.group g).incoming with
  | some new => (mget (s.partn new).images g).isSome && !(s.die d).halves.any (fun h => h.any (fun h => h.1 == new))
  | none => false

/-- A tick of a die's groups (R352): those that change hands stop, and the exchange, the save deadline and the late report are due.
The exchange moves 64 MiB at 4,096 bytes a cycle, and takes longer where the incoming image must be read from DRAM (R353). -/
def State.tick (s : State) (d : Nat) (gs : List Key) : State :=
  let s := gs.foldl State.tickGroup s
  let sw := gs.filter (fun g => s.switching g)
  if sw.isEmpty then s
  else
    let s := s.modDie d (fun x => { x with joining := true, swapTick := s.cycle, swapNs := s.rtime })
    let s := s.abandonAll (fun k => sw.any (fun g => inGroup g k))
    let n := if sw.any (fun g => s.unloaded d g) then Config.restoreExtra s.nextId else 0
    let s := ((s.at (s.cycle + 16384 + n) .bandboxExchangeDone (.n1 d)).atNs (s.rtime + 20000) .saveDeadline (.n2 d s.cycle)).atNs
      (s.rtime + 100000) .gangLateTimeout (.n2 d s.cycle)
    { s with nextId := s.nextId + 1 }

/-- The groups of a die. -/
def dieGroups (d : Nat) : List Key := (List.range 16).map (fun i => d * 16 + i)

/-- The ticks of a die's schedules due, one event for each value of GSCHED with a period. -/
def State.armTicks (s : State) (d : Nat) : State :=
  (dieGroups d).foldl (fun s g =>
    let v := (s.group g).gsched
    if gPeriod v = 0 || s.alarms.any (fun t => t.2 == ⟨.gangTick, .n2 d v.toNat⟩) then s
    else s.atNs (s.nextMultiple (gPeriod v * 1000)) .gangTick (.n2 d v.toNat)) s

/-- GANG_TICK: the groups of a die whose GSCHED has that value tick. -/
def execGangTick (s : State) : Out :=
  .next (match s.arg with
    | .n2 d v => (s.tick d ((dieGroups d).filter (fun g => (s.group g).gsched.toNat == v))).armTicks d
    | _ => s)

/-- GSCHED_TAKE_EFFECT: the written schedules of a die's groups whose PERIOD is 0 take effect, which counts as their tick. -/
def execGschedTakeEffect (s : State) : Out :=
  .next (match s.arg with
    | .n1 d => (s.tick d ((dieGroups d).filter (fun g => gPeriod (s.group g).gsched == 0 && (s.group g).gpend.isSome))).armTicks d
    | _ => s)

/-! ## The exchange (R353, R354) -/

/-- Whether a waiting event brings a packet to a group's cores or Brims. -/
def State.bringsTo (s : State) (gs : List Key) (e : Ev) : Bool :=
  match e.i, e.arg with
  | .portCompletionArrival, .port p | .portRequestArrival, .port p => match s.port p with
    | some x => !isService x.place && gs.contains (groupOf x.place)
    | none => false
  | .brimWatermarkMessage, .wm cl _ _ _ => gs.contains (groupOfCluster cl)
  | _, _ => false

/-- Whether groups have stopped (R352, R391): store buffers have drained, what was under way to their cores has arrived, no posted
store of theirs is unanswered and no result owed to their slots where they leave a partition, and no replacement is under way. -/
def State.groupsQuiet (s : State) (gs : List Key) : Bool :=
  s.cores.all (fun c => isService c.1 || !gs.contains (groupOf c.1) || c.2.sbuf.isEmpty) &&
  !(s.timers.any (fun t => s.bringsTo gs t.2)) &&
  !(s.reqs.any (fun r => !isService (coreOf r.k) && gs.contains (groupOf (coreOf r.k)) && !s.inPart r.part (groupOf (coreOf r.k)) &&
    (match r.kind with
    | .stp _ => true
    | _ => false))) &&
  !(s.owed.any (fun o => !isService (coreOf o.k) && gs.contains (groupOf (coreOf o.k)) &&
    (s.thread o.k).any (fun t => !s.inPart t.partN (groupOf (coreOf o.k))))) &&
  !(s.io.replacing.any (fun u => match u with
    | .core c => !isService c && gs.contains (groupOf c)
    | .plank g => gs.contains g
    | _ => false))

/-- What a port's idle time counts from as its partition comes back to its group (R315): the time away does not count, and where the
partition was never there nothing does. -/
def State.shiftIdle (s : State) (part : Nat) (g : Key) : State :=
  let away : Option Nat := (mget (s.partn part).images g).map (fun x => s.rtime - x.since)
  let port (p : PortSt) : PortSt :=
    if groupOf p.place == g && !isService p.place then { p with last := (away.map (p.last + ·)).getD s.rtime } else p
  { s with dies := s.dies.map (fun d => (d.1, { d.2 with conns := d.2.conns.map (fun r => (r.1, { r.2 with con := r.2.con.map (fun c =>
      if c.part = part then { c with ports := c.ports.map (fun p => (p.1, port p.2)) } else c) })) })) }

/-- The exchange of one group: the image of the owner is taken, that of the incoming partition put in its place; what is left of
partitions that the group left is re-homed. -/
def State.exchange (s : State) (g : Key) : State :=
  match (s.group g).incoming with
  | none => s
  | some new =>
    let old := (s.group g).owner
    let stays := old == new && s.inPart old g
    let x := s.saveImage g
    let s := if stays then s else
      let s := (s.shiftIdle new g).loadImage g (s.image new g)
      let s := s.modPart new (fun p => { p with images := mdel p.images g })
      if s.inPart old g then s.modPart old (fun p => { p with images := mput p.images g x }) else s.rehome old g x
    let s := s.modGroup g (fun y => { y with owner := new, incoming := none })
    let s := (s.parts.filter (fun e => (mget e.2.images g).isSome && !inMask e.2.pgrp g)).foldl (fun s e => s.rehome e.1 g (s.image e.1 g)) s
    (s.evacuateRetired g).resume g

/-- The half of a Bandbox that an outgoing image is written into while the incoming one is read from the other (R353, log 75). -/
def Die.halfFor (x : Die) (old new : Nat) : Nat :=
  let is (i p : Nat) : Bool := (x.halves.toList.getD i none).any (fun h => h.1 == p)
  if is 0 new then 1 else if is 1 new then 0 else if is 1 old then 1 else 0

/-- An image put into its half of a Bandbox by a tick, under a number of its own; what was written there before is gone. -/
def State.bandSave (s : State) (d old new : Nat) : State :=
  let h := (s.die d).halfFor old new
  { s with nextId := s.nextId + 1 }.modDie d (fun x => { x with
    halves := x.halves.setIfInBounds h (some (old, s.nextId))
    bandbox := x.bandbox.filter (fun c => c.1 / 0x4000000 != h) })

/-- The image that an exchange of a die saves: the first of its groups whose owner stays its partition gives the outgoing and the incoming
one. -/
def State.bandTick (s : State) (d : Nat) (gs : List Key) : State :=
  match gs.find? (fun g => (s.group g).incoming != some (s.group g).owner && s.inPart (s.group g).owner g) with
  | some g => s.bandSave d (s.group g).owner (((s.group g).incoming).getD 0)
  | none => s

/-- BANDBOX_EXCHANGE_DONE: the die's restore ends and it joins its slice, once its cores have stopped. -/
def execBandboxExchangeDone (s : State) : Out :=
  .next (match s.arg with
    | .n1 d =>
      let gs := (dieGroups d).filter (fun g => s.switching g)
      if gs.isEmpty then s
      else if !s.groupsQuiet gs then s.retry .bandboxExchangeDone (.n1 d)
      else
        (gs.foldl State.exchange (s.bandTick d gs)).modDie d (fun x => { x with joining := false })
    | _ => s)

/-- SAVE_DEADLINE: a die that has not restored joins late; until it joins, what is bound for it waits (R354), as it does from the tick
on. -/
def execSaveDeadline (s : State) : Out := .next s

/-- GANG_LATE_TIMEOUT: a die that has still not joined is reported to Plynvas (R354, R25). -/
def execGangLateTimeout (s : State) : Out :=
  .next (match s.arg with
    | .n2 d c =>
      if (s.die d).joining && (s.die d).swapTick == c then
        (((dieGroups d).filterMap (fun g => (s.group g).incoming)).eraseDups).foldl (fun s p =>
          s.raise [evHeader 3 0 (d * 2 ^ 37 + p * 2 ^ 32)]) s
      else s
    | _ => s)

end Sys2Proof.Machine
end

