-- ==== Sys2Proof/Machine/EvEth.lean ====
section
/-! DEFINITION. Ultra Ethernet (25_host R395, R396, R398) and stream ingress (R399). -/

namespace Sys2Proof.Machine

/-! ## Connections and answers -/

/-- A connection's place in the table: its port and number. -/
def connKey (port conn : Nat) : Nat := port * 2 ^ 32 + conn

/-- A connection that is set up. -/
def State.connOf (s : State) (port conn : Nat) : Option EthConn := mget s.io.conns (connKey port conn)

/-- The state with it changed. -/
def State.modConnOf (s : State) (port conn : Nat) (f : EthConn → EthConn) : State :=
  match s.connOf port conn with
  | some c => s.modIo (fun io => { io with conns := mput io.conns (connKey port conn) (f c) })
  | none => s

/-- Whether a delivery mode is ROD (R397: 1 in a connection setup). -/
def EthConn.rod (c : EthConn) : Bool := c.mode == 1

/-- An answer sent to a peer. -/
def State.answer (s : State) (port conn : Nat) (code : EthCode) (data : List Byte) : State :=
  s.modIo (fun io => { io with answers := io.answers ++ [⟨port, conn, code, data⟩] })

/-- Whether R395 supports what a peer asks for: spraying not with ROD, AES-256-GCM as the one transport security. -/
def supported (x : ConnReq) : Bool :=
  x.port < 8 && x.mode < 3 && !x.creditFlow && x.pfcClasses ≤ 2 && x.congestion < 2 && !(x.spraying && x.mode == 1) && x.security < 2

/-- CONNECTION_SETUP: a peer that asks for what R395 does not support is refused. -/
def execConnectionSetup (s : State) : Out :=
  .next (match s.arg with
    | .conn x =>
      if supported x then
        (s.modIo (fun io => { io with conns := mput io.conns (connKey x.port x.conn) ⟨x.mode, x.part, []⟩ })).answer x.port x.conn .ok []
      else s.answer x.port x.conn .err []
    | _ => s)

/-- REMOTE_ATOMIC_OPERATION: refused with an error response (R395). -/
def execRemoteAtomicOperation (s : State) : Out :=
  .next (match s.arg with
    | .n2 port conn => s.answer port conn .err []
    | _ => s)

/-! ## Queues (R396, R398) -/

/-- Whether a queue is assigned. -/
def EthQ.valid (q : EthQ) : Bool := q.w0.getLsbD 63
/-- Its partition. -/
def EthQ.part (q : EthQ) : Nat := bits q.w0.toNat 4 0
/-- Its port. -/
def EthQ.port (q : EthQ) : Nat := bits q.w0.toNat 10 8

/-- Whether an operation from a peer may use a queue: assigned to that port, on a connection of its partition. -/
def State.mayUse (s : State) (q : EthQ) (port conn : Nat) : Bool :=
  q.valid && q.port == port && (match s.connOf port conn with
    | some c => c.part == q.part
    | none => false)

/-- The parts of n bytes from an address by 4 KiB page. -/
def spanFrom : Nat → Nat → Nat → List (Nat × Nat)
  | 0, _, _ => []
  | fuel + 1, va, n =>
    if n = 0 then []
    else
      let a := min n (4096 - va % 4096)
      (va, a) :: spanFrom fuel (va + a) (n - a)

/-- The parts of n bytes from an address. -/
def span (va n : Nat) : List (Nat × Nat) := spanFrom (n / 4096 + 2) va n

/-- The places of a port's access for a queue's partition. -/
def State.ethPlaces (s : State) (part : Nat) (rt : Right) (va n : Nat) : Except EngErr (List Piece) :=
  s.engPlaces (s.ioAcc part) rt (span va n)

/-- Bytes that a port reads at places for a partition: their frames are claimed (R349). -/
def State.ethRead (s : State) (part : Nat) (ps : List Piece) : State :=
  ((s.ioDone ps).takeWays (s.domainOf part) ps).claimAll (s.domainOf part) ps

/-- STATUS of a failed access (R392, R398): MEMERR, else a protection failure. -/
def EngErr.ethStatus : EngErr → Nat
  | .status 1 => 3
  | _ => 2

/-- Whether an access fails on a word with an uncorrectable error (R392). -/
def EngErr.memerr : EngErr → Bool
  | .status 1 => true
  | _ => false

/-- A completion value (R398): the bytes moved and STATUS. -/
def ethValue (moved status : Nat) : DW := dw (moved * 2 ^ 32 + status)

/-! ## Incoming RMA operations (R395, R396) -/

/-- The place of a completion word, if one is named. -/
def State.cwPlace (s : State) (part cw : Nat) : Except EngErr (List Piece) := if cw = 0 then .ok [] else s.ethPlaces part .wr cw 8

/-- A completion word's value written and set full at its place, if it has one. -/
def State.cwWrite (s : State) (part : Nat) (ps : List Piece) (v : DW) : State :=
  ps.foldl (fun s x => s.putFe none x.loc true) (s.ioWrite part ps v.toNat)

/-- A completion word's value written, if one is named. -/
def State.ethComplete (s : State) (part cw : Nat) (v : DW) : Except EngErr State :=
  match s.cwPlace part cw with
  | .error e => .error e
  | .ok ps => .ok (s.cwWrite part ps v)

/-- An incoming RMA write performed, or answered with an error; an error of an access that must wait stands for the wait. -/
def State.rmaWrite (s : State) (w : EthWrite) : Except EngErr State :=
  let q := s.eth w.queue
  let no (s : State) : State := s.answer w.port w.conn .err []
  if !s.mayUse q w.port w.conn || w.cw.toNat % 8 != 0 then .ok (no s)
  else match s.ethPlaces q.part .wr w.addr.toNat w.data.length, s.cwPlace q.part w.cw.toNat with
    | .ok ps, .ok cs => .ok (((s.ioWrite q.part ps (bytesNat w.data)).cwWrite q.part cs (ethValue w.data.length 0)).answer w.port w.conn .ok [])
    | .error e, .ok cs => if e.waits then .error e else .ok (no (if e.memerr then s.cwWrite q.part cs (ethValue 0 3) else s))
    | .ok _, .error e => if e.waits then .error e else .ok (no s)
    | .error e, .error e' => if e.waits then .error e else if e'.waits then .error e' else .ok (no s)

/-- An incoming RMA read performed: the bytes, if the partition's ranges grant RD and its tables admit their homes. -/
def State.rmaRead (s : State) (x : EthRead) : Except EngErr State :=
  let q := s.eth x.queue
  if !s.mayUse q x.port x.conn then .ok (s.answer x.port x.conn .err [])
  else match s.ethPlaces q.part .rd x.addr.toNat x.len with
    | .ok ps =>
      let v := s.mem.gatherAt ps
      .ok ((s.ethRead q.part ps).answer x.port x.conn .ok ((List.range x.len).map (fun i => BitVec.ofNat 8 (v / 256 ^ i))))
    | .error e => if e.waits then .error e else .ok (s.answer x.port x.conn .err [])

/-! ## Completion words of a queue (R398) -/

/-- The completion words of operations that have ended written, on ROD connections in ring order; with what remains, and whether a
write must wait. -/
def flushEth (part : Nat) : State → Bool → List EthOp → State × List EthOp × Bool
  | s, _, [] => (s, [], false)
  | s, held, o :: l =>
    match o.fin with
    | none =>
      let r := flushEth part s (held || o.rod) l
      (r.1, o :: r.2.1, r.2.2)
    | some v =>
      if o.rod && held then
        let r := flushEth part s held l
        (r.1, o :: r.2.1, r.2.2)
      else match s.ethComplete part o.cw v with
        | .ok s => flushEth part s held l
        | .error e =>
          if e.waits then
            let r := flushEth part (s.ioWait part e) (held || o.rod) l
            (r.1, o :: r.2.1, true)
          else flushEth part s held l

/-- A queue's completion words written as far as they are due. -/
def State.flushQueue (s : State) (e : Nat) : State :=
  let q := s.eth e
  let r := flushEth q.part s false q.ops
  let r2 := flushEth q.part r.1 false q.rcvs
  let s := r2.1.modEth e (fun q => { q with ops := r.2.1, rcvs := r2.2.1 })
  if r.2.2 || r2.2.2 then s.retry .ethOperationEnd (.n1 e) else s

/-! ## The rings (R398) -/

/-- The operation of a send entry, with whether it is well formed. -/
def parseSend (x : Nat) : Bool × Nat × Nat × Nat × Nat × Nat :=
  let w (i : Nat) := x / 2 ^ (64 * i) % 2 ^ 64
  let op := bits (w 0) 63 56
  let rma := op == 2 || op == 3
  let ok := (op == 1 || rma) && bits (w 0) 55 32 == 0 && w 1 < 2 ^ 56 && 1 ≤ w 2 && w 2 ≤ 2 ^ 24 && w 3 < 2 ^ 56 &&
    (rma || (w 3 == 0 && w 4 == 0)) && w 5 < 2 ^ 56 && w 5 % 8 == 0 && w 6 == 0 && w 7 == 0
  (ok, op, bits (w 0) 31 0, w 1, w 2, w 5)

/-- STATUS with which a well-formed operation of the module fails before anything moves, if it does: its buffer's range, or a word
of it with an uncorrectable error. Else the buffer's bytes are read, unless the operation is an RMA read. -/
def State.sendStatus (s : State) (q : EthQ) (op conn laddr len : Nat) : Except EngErr (Option Nat × State) :=
  match s.connOf q.port conn with
  | none => .ok (some 2, s)
  | some c =>
    if c.part != q.part then .ok (some 2, s)
    else match s.ethPlaces q.part (if op = 3 then .wr else .rd) laddr len with
      | .ok ps => .ok (none, if op = 3 then s else s.ethRead q.part ps)
      | .error e =>
        if e.memerr then .ok (if op = 3 then none else some 3, s)
        else if e.waits then (if op = 3 then .ok (none, s) else .error e)
        else .ok (some 2, s)

/-- A send entry that the port has read started, or ended with its status, unless its buffer cannot be read yet. -/
def State.startSend (s : State) (e num x : Nat) : Except EngErr State :=
  let q := s.eth e
  let (ok, op, conn, laddr, len, cw) := parseSend x
  let rod := ((s.connOf q.port conn).map (·.rod)).getD false
  let cw := if cw % 8 = 0 ∧ cw < 2 ^ 56 then cw else 0
  match (if !ok then .ok (some 2, s) else s.sendStatus q op conn laddr len) with
  | .error x => .error x
  | .ok (st, s) =>
    let s := s.modEth e (fun q => { q with ops := q.ops ++ [⟨num, rod, op, laddr, len, cw, st.map (ethValue 0)⟩] })
    .ok (if st.isSome then s.flushQueue e else s)

/-- A doubleword of a queue's control block. -/
def State.qcbWord (s : State) (q : EthQ) (off : Nat) : Except EngErr Nat :=
  match s.ethPlaces q.part .rd (q.qcb.toNat + off) 8 with
  | .ok ps => .ok (s.mem.gatherAt ps)
  | .error e => .error e

/-- The next entry of a ring beyond those taken, read, its head written: the entry's number and bytes, or none when nothing new is
posted. The ring's fields stand from doubleword `f` on, its entries are n bytes. -/
def State.takeEntry (s : State) (q : EthQ) (f n taken hd : Nat) : Except EngErr (Option (Nat × State)) := do
  let base ← s.qcbWord q (8 * f)
  let size ← s.qcbWord q (8 * f + 8)
  let tail ← s.qcbWord q (8 * f + 16)
  let size := bits size 16 0
  if size = 0 ∨ bits tail 31 0 = taken then pure none
  else
    let ps ← s.ethPlaces q.part .rd (base + n * (taken % size)) n
    let hs ← s.ethPlaces q.part .wr (q.qcb.toNat + hd) 8
    pure (some (s.mem.gatherAt ps, (s.ethRead q.part ps).ioWrite q.part hs ((taken + 1) % 2 ^ 32)))

/-- The next send entry taken and started; none when nothing new is posted. -/
def State.takeSend (s : State) (e : Nat) : Except EngErr (Option State) := do
  let q := s.eth e
  match ← s.takeEntry q 0 64 q.staken 48 with
  | some (x, s) =>
    let s ← (s.modEth e (fun q => { q with staken := (q.staken + 1) % 2 ^ 32 })).startSend e q.staken x
    pure (some s)
  | none => pure none

/-- The next receive entry taken; none when nothing new is posted. -/
def State.takeRecv (s : State) (e : Nat) : Except EngErr (Option State) := do
  let q := s.eth e
  match ← s.takeEntry q 3 32 q.rtaken 56 with
  | some (x, s) => pure (some (s.modEth e (fun q => { q with rtaken := (q.rtaken + 1) % 2 ^ 32, posted := q.posted ++ [x] })))
  | none => pure none

/-- ETH_TAIL_NOTIFY: the port reads the new entries, one at a time. An entry that cannot be read waits for the next notice. -/
def execEthTailNotify (s : State) : Out :=
  .next (match s.arg with
    | .n1 e =>
      let q := s.eth e
      let again (s' : State) (x : EngErr) : State := if x.waits then (s'.ioWait q.part x).retry .ethTailNotify (.n1 e) else s'
      if !q.valid then s
      else match s.takeSend e with
        | .ok (some s') => s'.pushOnce .ethTailNotify (.n1 e)
        | r =>
          let s := match r with
            | .error x => again s x
            | .ok _ => s
          match s.takeRecv e with
          | .ok (some s') => s'.pushOnce .ethTailNotify (.n1 e)
          | .ok none => s
          | .error x => again s x
    | _ => s)

/-- ETH_OPERATION_END: the operation's data, if it reads, is written, and its completion word is due. -/
def execEthOperationEnd (s : State) : Out :=
  .next (match s.arg with
    | .n1 e => s.flushQueue e
    | .ethEnd x =>
      let q := s.eth x.queue
      match q.ops.find? (fun o => o.num == x.op && o.fin.isNone) with
      | none => s
      | some o =>
        let done (s : State) (v : DW) : State :=
          (s.modEth x.queue (fun q => { q with ops := q.ops.map (fun y => if y = o then { y with fin := some v } else y) })).flushQueue x.queue
        if x.status != 0 then done s (ethValue 0 x.status.toNat)
        else if o.op != 3 then done s (ethValue o.len 0)
        else
          let d := x.data.take o.len
          match s.ethPlaces q.part .wr o.laddr d.length with
          | .error er => if er.waits then (s.ioWait q.part er).retry .ethOperationEnd s.arg else done s (ethValue 0 er.ethStatus)
          | .ok ps => done (s.ioWrite q.part ps (bytesNat d)) (ethValue d.length 0)
    | _ => s)

/-- A send's payload put in the oldest posted buffer: the state, the bytes moved, STATUS; an error while it must wait. -/
def State.receiveSend (s : State) (q : EthQ) (x : Nat) (data : List Byte) : Except EngErr (State × Nat × Nat) :=
  let w (i : Nat) := x / 2 ^ (64 * i) % 2 ^ 64
  let n := min data.length (w 1)
  if 2 ^ 56 ≤ w 0 || 2 ^ 56 ≤ w 2 || w 2 % 8 != 0 || w 3 != 0 then .ok (s, 0, 2)
  else match s.ethPlaces q.part .wr (w 0) n with
    | .error e => if e.waits then .error e else .ok (s, 0, e.ethStatus)
    | .ok ps => .ok (s.ioWrite q.part ps (bytesNat (data.take n)), n, if w 1 < data.length then 4 else 0)

/-- An incoming send performed: to the ingress channel bound to the queue, else to the oldest posted receive entry. -/
def State.sendIn (s : State) (x : EthSend) : Except EngErr State :=
  let q := s.eth x.queue
  if !s.mayUse q x.port x.conn then .ok (s.answer x.port x.conn .err [])
  else if s.io.ingress.any (fun h => h.2.valid && h.2.eq == x.queue) then .ok (s.push .ingressSend (.ethSend x))
  else match q.posted with
    | [] => .ok (s.answer x.port x.conn .notReady [])
    | r :: l =>
      match s.receiveSend q r x.data with
      | .error e => .error e
      | .ok (s, n, st) =>
        let cw := r / 2 ^ 128 % 2 ^ 64
        let cw := if cw % 8 = 0 ∧ cw < 2 ^ 56 then cw else 0
        let rod := ((s.connOf x.port x.conn).map (·.rod)).getD false
        let s := s.modEth x.queue (fun q => { q with posted := l, rcvs := q.rcvs ++ [⟨q.rtaken, rod, 0, 0, 0, cw, some (ethValue n st)⟩] })
        .ok ((s.flushQueue x.queue).answer x.port x.conn (if st = 2 ∨ st = 3 then .err else .ok) [])

/-! ## What peers send (R395, R396) -/

/-- The port of an operation. -/
def EthIn.port : EthIn → Nat
  | .write w => w.port
  | .read x => x.port
  | .send x => x.port

/-- Its connection. -/
def EthIn.conn : EthIn → Nat
  | .write w => w.conn
  | .read x => x.conn
  | .send x => x.conn

/-- Its queue. -/
def EthIn.queue : EthIn → Nat
  | .write w => w.queue
  | .read x => x.queue
  | .send x => x.queue

/-- An operation performed, or an error of an access that must wait. -/
def State.ethPerform (s : State) : EthIn → Except EngErr State
  | .write w => s.rmaWrite w
  | .read x => s.rmaRead x
  | .send x => s.sendIn x

/-- The operations that wait on a connection performed in order, until one must wait. -/
def ethDrain (port conn : Nat) : Nat → State → State
  | 0, s => s
  | fuel + 1, s =>
    match s.connOf port conn with
    | none => s
    | some c =>
      match c.backlog with
      | [] => s
      | x :: l =>
        match s.ethPerform x with
        | .error e => (s.ioWait (s.eth x.queue).part e).retry .ethIncomingWrite (.n2 port conn)
        | .ok s => ethDrain port conn fuel (s.modConnOf port conn (fun c => { c with backlog := l }))

/-- An operation that has come: on a ROD connection it takes its turn behind those that wait, on another it waits alone. -/
def State.ethCome (s : State) (i : Instr) (x : EthIn) : State :=
  match s.connOf x.port x.conn with
  | none => s.answer x.port x.conn .err []
  | some c =>
    if c.rod && !c.backlog.isEmpty then s.modConnOf x.port x.conn (fun c => { c with backlog := c.backlog ++ [x] })
    else match s.ethPerform x with
      | .ok s => s
      | .error e =>
        let s := s.ioWait (s.eth x.queue).part e
        if c.rod then (s.modConnOf x.port x.conn (fun c => { c with backlog := [x] })).retry .ethIncomingWrite (.n2 x.port x.conn)
        else s.retry i s.arg

/-- ETH_INCOMING_WRITE: it takes its turn on its connection. -/
def execEthIncomingWrite (s : State) : Out :=
  .next (match s.arg with
    | .ethWrite w => s.ethCome .ethIncomingWrite (.write w)
    | .n2 port conn => ethDrain port conn (((s.connOf port conn).map (·.backlog.length)).getD 0) s
    | _ => s)

/-- ETH_INCOMING_READ. -/
def execEthIncomingRead (s : State) : Out :=
  .next (match s.arg with
    | .ethRead x => s.ethCome .ethIncomingRead (.read x)
    | _ => s)

/-- ETH_INCOMING_SEND. -/
def execEthIncomingSend (s : State) : Out :=
  .next (match s.arg with
    | .ethSend x => s.ethCome .ethIncomingSend (.send x)
    | _ => s)

/-! ## Stream ingress (R399) -/

/-- The port a channel's HANDLE and PORT name (R298). -/
def Ingress.named (h : Ingress) : PortId := ⟨bits h.handle.toNat 10 8, bits h.handle.toNat 7 0, h.port⟩

/-- The port a channel is bound to. -/
def Ingress.portId (h : Ingress) : PortId := h.bound.getD h.named

/-- Records of a payload: n of them from its bytes. -/
def ingRecords (isV : Bool) : Nat → List Byte → Option (List IngEnt × List Byte)
  | 0, l => some ([], l)
  | n + 1, l =>
    let w := if isV then 64 else 8
    if l.length < w + 8 then none
    else match ingRecords isV n (l.drop (w + 8)) with
      | none => none
      | some (r, l') => some (.record ⟨BitVec.ofNat 512 (bytesNat (l.take w)), dw (bytesNat ((l.drop w).take 8))⟩ :: r, l')

/-- The entries of a payload, if they fill it exactly and none has KIND 3. -/
def ingEntries (isV : Bool) : Nat → List Byte → Option (List IngEnt)
  | _, [] => some []
  | 0, _ => none
  | fuel + 1, l =>
    if l.length < 8 then none
    else
      let h := bytesNat (l.take 8)
      match bits h 63 62 with
      | 0 => match ingRecords isV (bits h 61 48) (l.drop 8) with
        | none => none
        | some (r, l') => (ingEntries isV fuel l').map (r ++ ·)
      | 1 => (ingEntries isV fuel (l.drop 8)).map (.wmark (BitVec.ofNat 48 h) :: ·)
      | 2 => (ingEntries isV fuel (l.drop 8)).map (.widle (BitVec.ofNat 48 h) :: ·)
      | _ => none

/-- The values WIDLE takes (R332). -/
def idleOk (v : Nat) : Bool := v == 0 || (1000 ≤ v && v ≤ 1000000000)

/-- A channel's next operation sent (R399): entries are acted on in order, one operation pending at a time. -/
def ingressNext (h : Nat) : Nat → State → State
  | 0, s => s
  | fuel + 1, s =>
    let c := s.ingress h
    let p := c.portId
    if !c.valid || ((s.port p).bind (·.op)).isSome then s
    else
      let pop (s : State) (disc : Bool) : State :=
        s.modIngress h (fun c => { c with ents := c.ents.drop 1, disc := if disc then sat16 c.disc else c.disc })
      let start (a : PAct) : State := s.startOp p (8 * 1024) none a .none false true
      match c.ents with
      | [] => s
      | .record x :: _ => if x.tag = noMeta then ingressNext h fuel (pop s true) else start (.offer x false)
      | .wmark v :: _ => start (.wmark v)
      | .widle v :: _ => if idleOk v.toNat then start (.widle (v.setWidth 64)) else ingressNext h fuel (pop s true)
      | .fin port conn n :: _ =>
        ingressNext h fuel (((pop s false).modIngress h (fun c => { c with held := c.held - n })).answer port conn .ok [])

/-- The state with a channel's next operation sent. -/
def State.ingressGo (s : State) (h : Nat) : State := ingressNext h ((s.ingress h).ents.length + 1) s

/-- INGRESS_SEND: the payload is checked and held; one for which the 1 MiB of a channel has no room stays
unacknowledged until it has, or until the channel is empty (log 100). -/
def execIngressSend (s : State) : Out :=
  .next (match s.arg with
    | .ethSend x =>
      match s.io.ingress.find? (fun h => h.2.valid && h.2.eq == x.queue) with
      | none => s
      | some (h, c) =>
        let isV := match s.conn c.portId.die c.portId.con with
          | some con => (con.desc c.portId.port).isV
          | none => false
        if !(((s.connOf x.port x.conn).map (·.rod)).getD false) || x.data.isEmpty then s.answer x.port x.conn .err []
        else match ingEntries isV (x.data.length / 8 + 1) x.data with
          | none => s.answer x.port x.conn .err []
          | some es =>
            if c.held != 0 && 2 ^ 20 < c.held + x.data.length then s
            else (s.modIngress h (fun c => { c with
              held := c.held + x.data.length, ents := c.ents ++ es ++ [.fin x.port x.conn x.data.length] })).ingressGo h
    | _ => s)

/-- INGRESS_OP_COMPLETE: the head entry's operation has completed, and the next is sent. -/
def execIngressOpComplete (s : State) : Out :=
  .next (match s.arg with
    | .port p =>
      match s.port p with
      | none => s
      | some x =>
        match x.holder, x.op.bind (·.fin) with
        | some (.ingress h), some d =>
          let isRec := match (s.ingress h).ents with
            | .record _ :: _ => true
            | _ => false
          let lost := match d with
            | .fired delivered _ => !delivered
            | .notFired => false
          let s := s.modPort p (fun x => { x with op := none })
          let s := s.modIngress h (fun c => { c with
            ents := c.ents.drop 1
            offered := if isRec then sat16 c.offered else c.offered
            disc := if isRec && lost then sat16 c.disc else c.disc })
          s.ingressGo h
        | _, _ => s
    | _ => s)

/-- A channel unbound (R399): its pending operation is withdrawn, its payload discarded. -/
def State.ingressOff (s : State) (h : Nat) : State :=
  let c := s.ingress h
  let s := if c.valid then s.unholdPort c.portId else s
  s.modIngress h (fun c => { c with valid := false, bound := none, ents := [], held := 0 })

/-- INGRESS_BIND: the channel takes the port, or the bind is refused with ERR. -/
def execIngressBind (s : State) : Out :=
  s.atReg (fun r v => match r with
    | .ingress h 0 =>
      let e := bits v.toNat 7 0
      let q := s.eth e
      let c := { s.ingress h with eq := e }
      let ok := q.valid && (match s.checkCon q.part c.handle.toNat with
        | .error _ => false
        | .ok (d, k, con) => c.port < con.image.ports.length && !(con.desc c.port).isIn && (match s.port ⟨d, k, c.port⟩ with
          | some x => x.holder.isNone && x.op.isNone
          | none => false))
      if ok then
        ((s.ingressOff h).modIngress h (fun c => { c with valid := true, bound := some c.named, eq := e, err := false })).modPort c.named (fun x =>
          { x with holder := some (.ingress h) })
      else (s.ingressOff h).modIngress h (fun c => { c with eq := e, err := true })
    | _ => s)

/-- INGRESS_UNBIND. -/
def execIngressUnbind (s : State) : Out :=
  s.atReg (fun r v => match r with
    | .ingress h 0 => (s.ingressOff h).modIngress h (fun c => { c with eq := bits v.toNat 7 0 })
    | _ => s)

end Sys2Proof.Machine
end

