-- ==== Sys2Proof/Machine/EvRecover.lean ====
section
/-! DEFINITION. Fault counting, replacement of units and links (24_recovery R386 to R391, R394). -/

namespace Sys2Proof.Machine

/-! ## Links (R394) -/

/-- LANE_FAILURE: the change of lanes takes effect at a packet boundary; the packet in flight is replayed whole, so that nothing of
it is seen twice or out of order (R387, R394). -/
def execLaneFailure (s : State) : Out :=
  .next (match s.arg with
    | .n1 l => s.laneLost l
    | _ => s)

/-- LINK_CHECK_FAILURE: the flits not acknowledged are sent again in order; no replay is seen as a second effect (R386, R387). -/
def execLinkCheckFailure (s : State) : Out :=
  .next (match s.arg with
    | .n1 l => s.replayLink l
    | _ => s)

/-! ## Fault events (R388 to R391) -/

/-- The window of R389, in ns. -/
def faultWindow : Nat := 600000000000

/-- The last events of a unit, latest first. -/
def State.faultsOf (s : State) (u : HwUnit) : List Nat := ((s.io.faults.find? (fun e => e.1 == u)).map (·.2)).getD []

/-- The state with them replaced; a unit without events is not listed. -/
def State.setFaults (s : State) (u : HwUnit) (l : List Nat) : State :=
  s.modIo (fun io =>
    let r := io.faults.filter (fun e => e.1 != u)
    { io with faults := if l.isEmpty then r else (u, l) :: r })

/-- Whether an event at a time makes a fault lasting: two earlier ones lie in its window. -/
def lasting (t : Nat) (earlier : List Nat) : Bool := 2 ≤ (earlier.filter (fun r => t ≤ r + faultWindow)).length

/-- CODE, DIE and number of a unit in a repair event (R25). -/
def unitNaming : HwUnit → Nat × Nat × Nat
  | .core c => (1, dieOfCore c % 8, coreNum c)
  | .plank g => (2, dieOfGroup g % 8, g % 16)
  | .row ch row => (3, dieOfGroup ch % 8, ch % 16 * 2 ^ 32 + row)
  | .channel ch => (4, dieOfGroup ch % 8, ch % 16)
  | .lane l n => (5, 0, l * 32 + n)

/-- The repair event of a unit, with whether a spare was left. -/
def State.raiseRepair (s : State) (u : HwUnit) (spare : Bool) : State :=
  let n := unitNaming u
  s.raise [evHeader 4 1 (n.1 * 2 ^ 40 + n.2.1 * 2 ^ 37), n.2.2 % 2 ^ 63 + (if spare then 0 else 2 ^ 63)]

/-- A spare of a unit's kind taken (R390), or none left; a service core has none. -/
def State.takeSpare (s : State) (u : HwUnit) : Option State :=
  match u with
  | .core c =>
    if isService c || (s.cluster (clusterOf c)).spareUsed then none
    else some (s.modCluster (clusterOf c) (fun x => { x with spareUsed := true }))
  | .plank g => if (s.die (dieOfGroup g)).spareUsed then none else some (s.modDie (dieOfGroup g) (fun x => { x with spareUsed := true }))
  | .row ch r =>
    let n := (mget (s.group ch).spareRows (Config.bankOf r)).getD 16
    if n = 0 then none else some (s.modGroup ch (fun x => { x with spareRows := mput x.spareRows (Config.bankOf r) (n - 1) }))
  | .channel ch =>
    if (s.die (dieOfGroup ch)).spareChan then none else some (s.modDie (dieOfGroup ch) (fun x => { x with spareChan := true }))
  | .lane l _ => if (s.fabricLink l).spares = 0 then none else some s

/-- How long a replacement typically takes, in ns (R390). -/
def replaceNs : HwUnit → Nat
  | .core _ => 12000
  | .plank _ => 8000
  | .row _ _ => 2000
  | .channel _ => 20000000
  | .lane _ _ => 100

/-- A core made to stop as at a tick (R352, R390, R391). -/
def State.stopCore (s : State) (c : Key) : State :=
  (s.modCore c (fun x => { x with stopped := true })).abandonAll (fun k => coreOf k == c)

/-- A lasting fault (R390, R391): a replacement starts, or what R391 says of a unit without a spare. -/
def State.replaceUnit (s : State) (u : HwUnit) : State :=
  let later (s : State) : State :=
    (s.modIo (fun io => { io with replacing := u :: io.replacing })).atNs (s.rtime + replaceNs u)
      .unitReplacementDone (.unit u)
  match s.takeSpare u with
  | some s =>
    let s := s.raiseRepair u true
    match u with
    | .core c => later (s.stopCore c)
    | .lane l _ => later (s.laneLost l)
    | _ => later s
  | none =>
    let s := s.raiseRepair u false
    match u with
    | .core c =>
      if isService c then s
      else
        let s := s.stopCore c
        let s := (s.coreCtxs c).foldl (fun s x => x.th.ports.foldl (fun s p => s.withdraw p none false) s) s
        later (s.modIo (fun io => { io with retired := u :: io.retired }))
    | .plank g => (s.modPlank g (fun p => { p with retired := true })).modIo (fun io => { io with retired := u :: io.retired })
    | .lane l _ => s.laneLost l
    | _ => s

/-- FAULT_EVENT: the words that an uncorrectable error of the unit's storage leaves stay so (R388, R392); the unit's event is
recorded, unless it is being replaced; a third within ten minutes is lasting. -/
def execFaultEvent (s : State) : Out :=
  .next (match s.arg with
    | .fault u ws =>
      let s := s.modMem (fun m => m.strike ws)
      if s.io.replacing.contains u then s
      else
        let l := s.faultsOf u
        let s' := s.setFaults u ((s.rtime :: l).take 3)
        if lasting s.rtime (l.take 2) && !s.io.retired.contains u then s'.replaceUnit u else s'
    | _ => s)

/-- Whether a core that stops has finished: its stores have drained and no operation of its threads' ports is pending. -/
def State.coreQuiet (s : State) (c : Key) : Bool :=
  (s.core c).sbuf.isEmpty && (s.coreCtxs c).all (fun x => x.th.ports.all (fun p => ((s.port p).bind (·.op)).isNone)) &&
  !((s.core c).journal.any (fun j => j.2.st == .pending))

/-- UNIT_REPLACEMENT_DONE: the spare stands in the unit's place and the unit goes on; a retired core's contexts leave it. -/
def execUnitReplacementDone (s : State) : Out :=
  .next (match s.arg with
    | .unit u =>
      if !s.io.replacing.contains u then s
      else
        let fin (s : State) : State := (s.modIo (fun io => { io with replacing := io.replacing.filter (· != u) })).setFaults u []
        match u with
        | .core c =>
          if !s.coreQuiet c then s.retry .unitReplacementDone s.arg
          else if s.io.retired.contains u then fin (s.evacuate c)
          else ((fin s).modCore c (fun x => { x with stopped := false })).offerSlots (clusterOf c)
        | .plank g =>
          if ((s.group g).plank.queue.head?).any (fun p => p.started) then s.retry .unitReplacementDone s.arg
          else (fin s).plankStart g
        | .row ch _ => (fin s).pushOnce .writeQueueDrain (.n1 ch)
        | _ => fin s
    | _ => s)

end Sys2Proof.Machine
end

