-- ==== Sys2Proof/Machine/EvHost.lean ====
section
/-! DEFINITION. The service endpoint (25_host R397, R401, R402), boot (R400 to R402), power (05 R94) and cooling (R403). -/

namespace Sys2Proof.Machine

/-- The state with boot changed. -/
def State.modBoot (s : State) (f : Boot → Boot) : State := s.modIo (fun io => { io with boot := f io.boot })

/-! ## The service endpoint (R397) -/

/-- STATUS codes of a response. -/
def svcOK : Nat := 0
def svcNOTREADY : Nat := 1
def svcBADREQ : Nat := 2
def svcDENIED : Nat := 3
def svcBUSY : Nat := 4

/-- A response to a request: its TAG repeated, its STATUS, and a body. -/
def State.svcRespond (s : State) (r : SvcReq) (status : Nat) (body : List Byte) : State :=
  s.modIo (fun io => { io with
    resps := io.resps ++ [⟨r.port, r.conn, BitVec.ofNat 16 (bits r.hdr.toNat 63 48), BitVec.ofNat 8 status, body⟩] })

/-- The bytes of a number, little-endian. -/
def natBytes (n x : Nat) : List Byte := (List.range n).map (fun i => BitVec.ofNat 8 (x / 256 ^ i))

/-- Whether a request's first doubleword keeps R397: reserved bits zero, LEN the body's bytes and at most 1 MiB. -/
def svcReqOk (r : SvcReq) : Bool :=
  bits r.hdr.toNat 39 37 == 0 && bits r.hdr.toNat 31 0 == r.body.length && r.body.length ≤ 0x100000

/-- Every service core in HALT mode 0 resumes as a request arrives (R361). -/
def State.unhaltAll (s : State) : State := (List.range 8).foldl (fun s i => s.unhalt (serviceCore i)) s

/-- Where a request stands in the endpoint's rounds: ports in ascending number after the one served last, and of a port its connections
in ascending number after the one served last there. -/
def State.svcKey (s : State) (r : SvcReq) : Nat × Nat :=
  ((r.port + 7 - s.io.svcPort) % 8, (r.conn + 2 ^ 32 - 1 - (mget s.io.svcConns r.port).getD (2 ^ 32 - 1)) % 2 ^ 32)

/-- Whether an event is a request that the endpoint serves before another. -/
def State.svcBefore (s : State) (r : SvcReq) (e : Ev) : Bool :=
  match e.arg with
  | .svc x => (s.svcKey x).1 < (s.svcKey r).1 || ((s.svcKey x).1 == (s.svcKey r).1 && (s.svcKey x).2 < (s.svcKey r).2)
  | _ => false

/-- Whether a request that is due gives way to one due with it on another connection (R397). -/
def State.svcYields (s : State) (r : SvcReq) : Bool :=
  s.agenda.any (s.svcBefore r) || s.timers.any (fun t => t.1 ≤ s.cycle && s.svcBefore r t.2)

/-- Whether an earlier request of its connection is still being served: its flash write is under way (R397, R401). -/
def State.svcBusy (s : State) (r : SvcReq) : Bool :=
  s.timers.any (fun t => match t.2.arg with
    | .n3 port conn _ => t.2.i == .svcFirmwareUpdate && port == r.port && conn == r.conn
    | _ => false)

/-- The state with a request served. -/
def State.svcTaken (s : State) (r : SvcReq) : State :=
  s.modIo (fun io => { io with svcPort := r.port, svcConns := mput io.svcConns r.port r.conn })

/-- A request taken by the endpoint in its turn: only ROD connections are accepted; before READY every OP but status receives NOTREADY;
one that breaks R397 receives BADREQ. -/
def State.svc (s : State) (i : Instr) (f : State → SvcReq → State) : Out :=
  .next (match s.arg with
    | .svc r =>
      if !(((s.connOf r.port r.conn).map (·.rod)).getD false) then s.answer r.port r.conn .err []
      else if s.svcYields r then s.push i s.arg
      else if s.svcBusy r then s.retry i s.arg
      else
        let s := s.unhaltAll.svcTaken r
        if i != .svcStatus && !s.io.boot.ready then s.svcRespond r svcNOTREADY []
        else if !svcReqOk r then s.svcRespond r svcBADREQ []
        else f s r
    | _ => s)

/-- SVC_STATUS: the boot status (R82's layout), with STATUS 0 at every stage. -/
def execSvcStatus (s : State) : Out := s.svc .svcStatus (fun s r => s.svcRespond r svcOK (natBytes 8 (s.cfgRead .bootstat).toNat))

/-- A request put before Plynvas: it stands in the service buffer, at a place that no rule gives (log 9), and its event is raised
(R25). -/
def State.toPlynvas (s : State) (r : SvcReq) : State :=
  let (x, s) := s.freeVal
  let a := s.io.svcbuf.toNat % 2 ^ 39 + 8 * (x.toNat % 0x1DFFFF)
  let s := s.write a (8 + r.body.length) (r.hdr.toNat + 2 ^ 64 * bytesNat r.body)
  s.raise [evHeader 5 1 (r.conn % 65536 * 2 ^ 16 + r.port % 256), a]

/-- SVC_PARTITION_CONFIG. -/
def execSvcPartitionConfig (s : State) : Out := s.svc .svcPartitionConfig State.toPlynvas
/-- SVC_JOB_LOAD. -/
def execSvcJobLoad (s : State) : Out := s.svc .svcJobLoad State.toPlynvas
/-- SVC_JOB_START. -/
def execSvcJobStart (s : State) : Out := s.svc .svcJobStart State.toPlynvas
/-- SVC_JOB_CANCEL. -/
def execSvcJobCancel (s : State) : Out := s.svc .svcJobCancel State.toPlynvas
/-- SVC_FAULT_RECORDS. -/
def execSvcFaultRecords (s : State) : Out := s.svc .svcFaultRecords State.toPlynvas

/-- SVC_ATTEST (R402): nonce, M1, M3, package id and security version with their signatures; no LMS leaf is used twice. -/
def execSvcAttest (s : State) : Out :=
  s.svc .svcAttest (fun s r =>
    let b := s.io.boot
    if r.body.length != 32 then s.svcRespond r svcBADREQ []
    else if 1048576 ≤ b.leaf then s.svcRespond r svcDENIED []
    else
      let id := s.io.pkgid.toNat
      let sig := Config.attestSign r.body b.m1 b.m3 id b.minVersion b.leaf
      (s.modBoot (fun b => { b with leaf := b.leaf + 1 })).svcRespond r svcOK
        (r.body ++ natBytes 48 b.m1.toNat ++ natBytes 48 b.m3.toNat ++ natBytes 8 id ++ natBytes 8 b.minVersion ++ sig))

/-! ## Images (R401) -/

/-- Whether an image is accepted: both signatures and the version. -/
def FlashImg.accepted (x : FlashImg) (minVersion : Nat) : Bool := x.ecdsa && x.lms && minVersion ≤ x.version

/-- The failing signature of an image (R82): 1 ECDSA, 2 LMS, 3 both; an empty slot has neither. -/
def failingSig (x : Option FlashImg) : Nat :=
  match x with
  | none => 3
  | some x => (if x.ecdsa then 0 else 1) + (if x.lms then 0 else 2)

/-- The slot a stage boots from: A if it is accepted, else B. -/
def pickSlot (v : Vector (Option FlashImg) 2) (minVersion : Nat) : Option (Nat × FlashImg) :=
  [0, 1].findSome? (fun i => match v.toList.getD i none with
    | some x => if x.accepted minVersion then some (i, x) else none
    | none => none)

/-- The images of a kind in flash: the loader's or Plynvas's. -/
def Boot.slots (b : Boot) (loader : Bool) : Vector (Option FlashImg) 2 := if loader then b.loader else b.plynvas

/-- A slot of flash set. -/
def Boot.setSlot (b : Boot) (loader : Bool) (i : Nat) (x : Option FlashImg) : Boot :=
  if loader then { b with loader := b.loader.setIfInBounds i x } else { b with plynvas := b.plynvas.setIfInBounds i x }

/-- How long the flash write of an update takes, in cycles: any number would do, no rule gives one. -/
def flashWriteCycles : Nat := 1

/-- SVC_FIRMWARE_UPDATE: the image is verified, then written to the slot that did not boot, which holds nothing whole meanwhile; the
response follows the write. -/
def execSvcFirmwareUpdate (s : State) : Out :=
  match s.arg with
  | .n3 port conn tag =>
    .next (match s.io.boot.updating with
      | none => s
      | some (k, i, x) =>
        (s.modBoot (fun b => { b.setSlot (k == 0) i (some x) with updating := none })).svcRespond
          ⟨port, conn, dw (tag * 2 ^ 48), []⟩ svcOK [])
  | _ => s.svc .svcFirmwareUpdate (fun s r =>
      let b := s.io.boot
      let (loader, ecdsa, lms, version, digest) := Config.judge r.body
      let x : FlashImg := ⟨ecdsa, lms, version, digest⟩
      if b.updating.isSome then s.svcRespond r svcBUSY []
      else if !x.accepted b.minVersion then s.svcRespond r svcDENIED []
      else
        let i := 1 - (if loader then b.bootedL else b.bootedP)
        (s.modBoot (fun b => { b.setSlot loader i none with updating := some (if loader then 0 else 1, i, x) })).at
          (s.cycle + flashWriteCycles) .svcFirmwareUpdate (.n3 r.port r.conn (bits r.hdr.toNat 63 48)))

/-! ## Boot (R94, R400 to R402) -/

/-- A boot stage, run only after the one before it (R400). -/
def State.bootStage (s : State) (before : Nat) (f : Boot → Boot) : State :=
  if s.io.boot.stage = before ∧ !s.io.boot.stopped ∧ !s.io.boot.ready then s.modBoot f else s

/-- The state with every DRAM and vault word zero and empty, and no copy of one in a cache (R94). -/
def State.blank (s : State) : State :=
  { s with
    mem := Mem.reset
    cores := s.cores.map (fun c => (c.1, { c.2 with icache := [], dcache := [] }))
    clusters := s.clusters.map (fun c => (c.1, { c.2 with lines := [], wbuf := [] }))
    groups := s.groups.map (fun g => (g.1, { g.2 with wq := [] })) }

/-- POWER_UP: every DRAM and vault word is zero and empty, every frame CLEAN; the die clocks and counters start (R94, R105). -/
def execPowerUp (s : State) : Out :=
  let s := s.blank
  .next { s with
    groups := s.groups.map (fun g => (g.1, { g.2 with frames := [] }))
    dies := s.dies.map (fun d => (d.1, { d.2 with clk := List.replicate 8 0, known := List.replicate 8 0, start := s.cycle })) }

/-- ROOT_SELF_TEST: stage 0 ends. -/
def execRootSelfTest (s : State) : Out := .next (s.bootStage 0 (fun b => { b with tested := true }))

/-- A verifying stage (R401, R402): the accepted slot boots and is measured, or boot stops there and names the failing signature. -/
def Boot.verify (b : Boot) (k : Nat) (loader : Bool) : Boot :=
  match pickSlot (b.slots loader) b.minVersion with
  | some (i, x) =>
    if loader then { b with stage := k, bootedL := i, m1 := Config.sha384 b.m1 x.digest }
    else { b with stage := k, bootedP := i, m3 := Config.sha384 b.m3 x.digest }
  | none => { b with stage := k, stopped := true, failImage := k, failSig := failingSig ((b.slots loader).toList.getD 1 none) }

/-- LOADER_COPY: stage 1, once the self-test has ended. -/
def execLoaderCopy (s : State) : Out := .next (s.bootStage 0 (fun b => if b.tested then b.verify 1 true else b))

/-- LINK_TRAINING: stage 2: links trained, every word zero and empty, the package id set, the compute dies released from reset. -/
def execLinkTraining (s : State) : Out :=
  .next (match s.arg with
    | .n1 id =>
      if s.io.boot.stage = 1 ∧ !s.io.boot.stopped then
        let s := (s.bootStage 1 (fun b => { b with stage := 2 })).blank
        { s with
          io := { s.io with links := [], pkgid := keep (dw id) 11 0 }
          dies := (List.range 8).foldl (fun m d => mput m d { s.die d with start := s.cycle }) s.dies }
      else s
    | _ => s)

/-- PLYNVAS_LOAD: stage 3. -/
def execPlynvasLoad (s : State) : Out := .next (s.bootStage 2 (fun b => b.verify 3 false))

/-- READY_REPORT: stage 4 ends and boot is READY. -/
def execReadyReport (s : State) : Out := .next (s.bootStage 3 (fun b => { b with stage := 4, ready := true }))

/-- What outlives a loss of power: boot flash, fuses and the LMS leaf counter; a slot being written is lost (R401, R402). -/
def Boot.afterLoss (b : Boot) : Boot :=
  let b := match b.updating with
    | some (k, i, _) => b.setSlot (k == 0) i none
    | none => b
  { Boot.reset with loader := b.loader, plynvas := b.plynvas, minVersion := b.minVersion, leaf := b.leaf }

/-- POWER_LOSS: the machine as it is at its next power-up. -/
def execPowerLoss (s : State) : Out := .next { State.reset with io := { Io.reset with boot := s.io.boot.afterLoss } }

/-! ## Cooling (R403) -/

/-- The budget at rest, in watts (R18). -/
def fullBudget : Nat := 4200

/-- Five per cent of it. -/
def budgetStep : Nat := 210

/-- THERMAL_OVER_TEMP: one millisecond with the hottest sensor at a temperature: the budget falls by 5 % from above 100 degrees until
below 95, then returns in the same steps. -/
def execThermalOverTemp (s : State) : Out :=
  .next (match s.arg with
    | .n1 t =>
      let hot := decide (100 < t) || (s.io.cooling && decide (95 ≤ t))
      s.modIo (fun io => { io with
        cooling := hot
        budget := if hot then io.budget - budgetStep else min fullBudget (io.budget + budgetStep) })
    | _ => s)

/-- THERMAL_TRIP: every compute die is fenced as HALT mode 1 does, and the trip reported. -/
def execThermalTrip (s : State) : Out :=
  .next (match s.arg with
    | .n1 d =>
      let s := (List.range 8).foldl (fun s i => s.modDie i (fun x => { x with fenced := true })) s
      (s.abandonAll (fun k => !isService (coreOf k))).raise [evHeader 7 0 (d % 8 * 2 ^ 37)]
    | _ => s)

end Sys2Proof.Machine
end

