-- ==== Sys2Proof/Machine/Dispatch.lean ====
section
/-! DEFINITION. Which meaning each instruction and event has: one direct call per constructor. -/

namespace Sys2Proof.Machine

def exec (i : Instr) (s : State) : Host.Outcome State Fault Refusal :=
  match i with
  | .add o => Sys2Proof.Machine.execAdd o s
  | .sub o => Sys2Proof.Machine.execSub o s
  | .addi o => Sys2Proof.Machine.execAddi o s
  | .and o => Sys2Proof.Machine.execAnd o s
  | .or o => Sys2Proof.Machine.execOr o s
  | .xor o => Sys2Proof.Machine.execXor o s
  | .andn o => Sys2Proof.Machine.execAndn o s
  | .shl o => Sys2Proof.Machine.execShl o s
  | .shr o => Sys2Proof.Machine.execShr o s
  | .sar o => Sys2Proof.Machine.execSar o s
  | .shli o => Sys2Proof.Machine.execShli o s
  | .shri o => Sys2Proof.Machine.execShri o s
  | .sari o => Sys2Proof.Machine.execSari o s
  | .mov o => Sys2Proof.Machine.execMov o s
  | .li o => Sys2Proof.Machine.execLi o s
  | .lea o => Sys2Proof.Machine.execLea o s
  | .cmpeq o => Sys2Proof.Machine.execCmpeq o s
  | .cmpne o => Sys2Proof.Machine.execCmpne o s
  | .cmplt o => Sys2Proof.Machine.execCmplt o s
  | .cmpltu o => Sys2Proof.Machine.execCmpltu o s
  | .cmpge o => Sys2Proof.Machine.execCmpge o s
  | .cmpgeu o => Sys2Proof.Machine.execCmpgeu o s
  | .sel o => Sys2Proof.Machine.execSel o s
  | .ldb o => Sys2Proof.Machine.execLdb o s
  | .ldbu o => Sys2Proof.Machine.execLdbu o s
  | .ldh o => Sys2Proof.Machine.execLdh o s
  | .ldhu o => Sys2Proof.Machine.execLdhu o s
  | .ldw o => Sys2Proof.Machine.execLdw o s
  | .ldwu o => Sys2Proof.Machine.execLdwu o s
  | .ldd o => Sys2Proof.Machine.execLdd o s
  | .stb o => Sys2Proof.Machine.execStb o s
  | .sth o => Sys2Proof.Machine.execSth o s
  | .stw o => Sys2Proof.Machine.execStw o s
  | .std o => Sys2Proof.Machine.execStd o s
  | .br o => Sys2Proof.Machine.execBr o s
  | .brp o => Sys2Proof.Machine.execBrp o s
  | .brn o => Sys2Proof.Machine.execBrn o s
  | .jmp o => Sys2Proof.Machine.execJmp o s
  | .call o => Sys2Proof.Machine.execCall o s
  | .callr o => Sys2Proof.Machine.execCallr o s
  | .loop o => Sys2Proof.Machine.execLoop o s
  | .movs o => Sys2Proof.Machine.execMovs o s
  | .movsw o => Sys2Proof.Machine.execMovsw o s
  | .pand o => Sys2Proof.Machine.execPand o s
  | .por o => Sys2Proof.Machine.execPor o s
  | .pxor o => Sys2Proof.Machine.execPxor o s
  | .pnot o => Sys2Proof.Machine.execPnot o s
  | .pmovg o => Sys2Proof.Machine.execPmovg o s
  | .pmovp o => Sys2Proof.Machine.execPmovp o s
  | .mul o => Sys2Proof.Machine.execMul o s
  | .mulh o => Sys2Proof.Machine.execMulh o s
  | .mulhu o => Sys2Proof.Machine.execMulhu o s
  | .div o => Sys2Proof.Machine.execDiv o s
  | .divu o => Sys2Proof.Machine.execDivu o s
  | .rem o => Sys2Proof.Machine.execRem o s
  | .remu o => Sys2Proof.Machine.execRemu o s
  | .min o => Sys2Proof.Machine.execMin o s
  | .max o => Sys2Proof.Machine.execMax o s
  | .minu o => Sys2Proof.Machine.execMinu o s
  | .maxu o => Sys2Proof.Machine.execMaxu o s
  | .clz o => Sys2Proof.Machine.execClz o s
  | .ctz o => Sys2Proof.Machine.execCtz o s
  | .popc o => Sys2Proof.Machine.execPopc o s
  | .brev o => Sys2Proof.Machine.execBrev o s
  | .bswap o => Sys2Proof.Machine.execBswap o s
  | .rol o => Sys2Proof.Machine.execRol o s
  | .ror o => Sys2Proof.Machine.execRor o s
  | .ext o => Sys2Proof.Machine.execExt o s
  | .ins o => Sys2Proof.Machine.execIns o s
  | .sxb o => Sys2Proof.Machine.execSxb o s
  | .sxh o => Sys2Proof.Machine.execSxh o s
  | .sxw o => Sys2Proof.Machine.execSxw o s
  | .zxb o => Sys2Proof.Machine.execZxb o s
  | .zxh o => Sys2Proof.Machine.execZxh o s
  | .zxw o => Sys2Proof.Machine.execZxw o s
  | .fadd o => Sys2Proof.Machine.execFadd o s
  | .fsub o => Sys2Proof.Machine.execFsub o s
  | .fmul o => Sys2Proof.Machine.execFmul o s
  | .fma o => Sys2Proof.Machine.execFma o s
  | .fdiv o => Sys2Proof.Machine.execFdiv o s
  | .fsqrt o => Sys2Proof.Machine.execFsqrt o s
  | .fmin o => Sys2Proof.Machine.execFmin o s
  | .fmax o => Sys2Proof.Machine.execFmax o s
  | .fcmpeq o => Sys2Proof.Machine.execFcmpeq o s
  | .fcmplt o => Sys2Proof.Machine.execFcmplt o s
  | .fcmple o => Sys2Proof.Machine.execFcmple o s
  | .fcvt o => Sys2Proof.Machine.execFcvt o s
  | .fclass o => Sys2Proof.Machine.execFclass o s
  | .ldfe o => Sys2Proof.Machine.execLdfe o s
  | .ldff o => Sys2Proof.Machine.execLdff o s
  | .stef o => Sys2Proof.Machine.execStef o s
  | .stff o => Sys2Proof.Machine.execStff o s
  | .sete o => Sys2Proof.Machine.execSete o s
  | .probe o => Sys2Proof.Machine.execProbe o s
  | .lda o => Sys2Proof.Machine.execLda o s
  | .strl o => Sys2Proof.Machine.execStrl o s
  | .stp o => Sys2Proof.Machine.execStp o s
  | .ldm o => Sys2Proof.Machine.execLdm o s
  | .stm o => Sys2Proof.Machine.execStm o s
  | .aadd o => Sys2Proof.Machine.execAadd o s
  | .aand o => Sys2Proof.Machine.execAand o s
  | .aor o => Sys2Proof.Machine.execAor o s
  | .axor o => Sys2Proof.Machine.execAxor o s
  | .amin o => Sys2Proof.Machine.execAmin o s
  | .amax o => Sys2Proof.Machine.execAmax o s
  | .aminu o => Sys2Proof.Machine.execAminu o s
  | .amaxu o => Sys2Proof.Machine.execAmaxu o s
  | .aswap o => Sys2Proof.Machine.execAswap o s
  | .acas o => Sys2Proof.Machine.execAcas o s
  | .fence o => Sys2Proof.Machine.execFence o s
  | .watch o => Sys2Proof.Machine.execWatch o s
  | .wait o => Sys2Proof.Machine.execWait o s
  | .cpy o => Sys2Proof.Machine.execCpy o s
  | .cpyt o => Sys2Proof.Machine.execCpyt o s
  | .cpyw o => Sys2Proof.Machine.execCpyw o s
  | .cpyc o => Sys2Proof.Machine.execCpyc o s
  | .uien o => Sys2Proof.Machine.execUien o s
  | .vld o => Sys2Proof.Machine.execVld o s
  | .vst o => Sys2Proof.Machine.execVst o s
  | .vlds o => Sys2Proof.Machine.execVlds o s
  | .vsts o => Sys2Proof.Machine.execVsts o s
  | .vgath o => Sys2Proof.Machine.execVgath o s
  | .vscat o => Sys2Proof.Machine.execVscat o s
  | .vadd o => Sys2Proof.Machine.execVadd o s
  | .vsub o => Sys2Proof.Machine.execVsub o s
  | .vmul o => Sys2Proof.Machine.execVmul o s
  | .vfma o => Sys2Proof.Machine.execVfma o s
  | .vmin o => Sys2Proof.Machine.execVmin o s
  | .vmax o => Sys2Proof.Machine.execVmax o s
  | .vabs o => Sys2Proof.Machine.execVabs o s
  | .vneg o => Sys2Proof.Machine.execVneg o s
  | .vand o => Sys2Proof.Machine.execVand o s
  | .vor o => Sys2Proof.Machine.execVor o s
  | .vxor o => Sys2Proof.Machine.execVxor o s
  | .vshl o => Sys2Proof.Machine.execVshl o s
  | .vshr o => Sys2Proof.Machine.execVshr o s
  | .vcmp o => Sys2Proof.Machine.execVcmp o s
  | .vsel o => Sys2Proof.Machine.execVsel o s
  | .vrsum o => Sys2Proof.Machine.execVrsum o s
  | .vrmax o => Sys2Proof.Machine.execVrmax o s
  | .vrmin o => Sys2Proof.Machine.execVrmin o s
  | .vcvt o => Sys2Proof.Machine.execVcvt o s
  | .vbcast o => Sys2Proof.Machine.execVbcast o s
  | .vperm o => Sys2Proof.Machine.execVperm o s
  | .vext o => Sys2Proof.Machine.execVext o s
  | .vins o => Sys2Proof.Machine.execVins o s
  | .vdiv o => Sys2Proof.Machine.execVdiv o s
  | .vsqrt o => Sys2Proof.Machine.execVsqrt o s
  | .vdota o => Sys2Proof.Machine.execVdota o s
  | .mlease o => Sys2Proof.Machine.execMlease o s
  | .mldw o => Sys2Proof.Machine.execMldw o s
  | .mmul o => Sys2Proof.Machine.execMmul o s
  | .mmuls o => Sys2Proof.Machine.execMmuls o s
  | .mdrain o => Sys2Proof.Machine.execMdrain o s
  | .mstatStatus o => Sys2Proof.Machine.execMstatStatus o s
  | .mstatGovernor o => Sys2Proof.Machine.execMstatGovernor o s
  | .mstatCompleted o => Sys2Proof.Machine.execMstatCompleted o s
  | .mstatSegment o => Sys2Proof.Machine.execMstatSegment o s
  | .accw o => Sys2Proof.Machine.execAccw o s
  | .accr o => Sys2Proof.Machine.execAccr o s
  | .accz o => Sys2Proof.Machine.execAccz o s
  | .bfmt o => Sys2Proof.Machine.execBfmt o s
  | .bfmtr o => Sys2Proof.Machine.execBfmtr o s
  | .launch o => Sys2Proof.Machine.execLaunch o s
  | .spawn o => Sys2Proof.Machine.execSpawn o s
  | .yieldSlot o => Sys2Proof.Machine.execYieldSlot o s
  | .yieldTimed o => Sys2Proof.Machine.execYieldTimed o s
  | .migr o => Sys2Proof.Machine.execMigr o s
  | .tqpush o => Sys2Proof.Machine.execTqpush o s
  | .tqpop o => Sys2Proof.Machine.execTqpop o s
  | .tqsteal o => Sys2Proof.Machine.execTqsteal o s
  | .ccinitPhase o => Sys2Proof.Machine.execCcinitPhase o s
  | .ccinitJob o => Sys2Proof.Machine.execCcinitJob o s
  | .ccadd o => Sys2Proof.Machine.execCcadd o s
  | .ccwait o => Sys2Proof.Machine.execCcwait o s
  | .ccan o => Sys2Proof.Machine.execCcan o s
  | .bsetRead o => Sys2Proof.Machine.execBsetRead o s
  | .bsetWrite o => Sys2Proof.Machine.execBsetWrite o s
  | .bar o => Sys2Proof.Machine.execBar o s
  | .barw o => Sys2Proof.Machine.execBarw o s
  | .graph o => Sys2Proof.Machine.execGraph o s
  | .pbind o => Sys2Proof.Machine.execPbind o s
  | .punb o => Sys2Proof.Machine.execPunb o s
  | .pput o => Sys2Proof.Machine.execPput o s
  | .pget o => Sys2Proof.Machine.execPget o s
  | .pputv o => Sys2Proof.Machine.execPputv o s
  | .pgetv o => Sys2Proof.Machine.execPgetv o s
  | .ptry o => Sys2Proof.Machine.execPtry o s
  | .pwdr o => Sys2Proof.Machine.execPwdr o s
  | .cload o => Sys2Proof.Machine.execCload o s
  | .cstart o => Sys2Proof.Machine.execCstart o s
  | .cstopStop o => Sys2Proof.Machine.execCstopStop o s
  | .cstopFree o => Sys2Proof.Machine.execCstopFree o s
  | .cstatConnector o => Sys2Proof.Machine.execCstatConnector o s
  | .cstatRegion o => Sys2Proof.Machine.execCstatRegion o s
  | .cstatPort o => Sys2Proof.Machine.execCstatPort o s
  | .cstatBinding o => Sys2Proof.Machine.execCstatBinding o s
  | .wmark o => Sys2Proof.Machine.execWmark o s
  | .widle o => Sys2Proof.Machine.execWidle o s
  | .wbind o => Sys2Proof.Machine.execWbind o s
  | .wnext o => Sys2Proof.Machine.execWnext o s
  | .wpub o => Sys2Proof.Machine.execWpub o s
  | .wamend o => Sys2Proof.Machine.execWamend o s
  | .wcloseDrain o => Sys2Proof.Machine.execWcloseDrain o s
  | .wcloseDiscard o => Sys2Proof.Machine.execWcloseDiscard o s
  | .wcloseStatus o => Sys2Proof.Machine.execWcloseStatus o s
  | .wcloseWatermark o => Sys2Proof.Machine.execWcloseWatermark o s
  | .osend o => Sys2Proof.Machine.execOsend o s
  | .oqcfgRead o => Sys2Proof.Machine.execOqcfgRead o s
  | .oqcfgWrite o => Sys2Proof.Machine.execOqcfgWrite o s
  | .ostatQueue o => Sys2Proof.Machine.execOstatQueue o s
  | .ostatPort o => Sys2Proof.Machine.execOstatPort o s
  | .ostatRelay o => Sys2Proof.Machine.execOstatRelay o s
  | .ocalRead o => Sys2Proof.Machine.execOcalRead o s
  | .ocalWrite o => Sys2Proof.Machine.execOcalWrite o s
  | .owaitTime o => Sys2Proof.Machine.execOwaitTime o s
  | .owaitSlot o => Sys2Proof.Machine.execOwaitSlot o s
  | .trap o => Sys2Proof.Machine.execTrap o s
  | .tretReissue o => Sys2Proof.Machine.execTretReissue o s
  | .tretSkip o => Sys2Proof.Machine.execTretSkip o s
  | .jrnl o => Sys2Proof.Machine.execJrnl o s
  | .jrclFree o => Sys2Proof.Machine.execJrclFree o s
  | .jrclReplay o => Sys2Proof.Machine.execJrclReplay o s
  | .jrclRedirect o => Sys2Proof.Machine.execJrclRedirect o s
  | .plbiAddress o => Sys2Proof.Machine.execPlbiAddress o s
  | .plbiCore o => Sys2Proof.Machine.execPlbiCore o s
  | .plbiModule o => Sys2Proof.Machine.execPlbiModule o s
  | .ctxs o => Sys2Proof.Machine.execCtxs o s
  | .ctxl o => Sys2Proof.Machine.execCtxl o s
  | .haltSelf o => Sys2Proof.Machine.execHaltSelf o s
  | .haltFence o => Sys2Proof.Machine.execHaltFence o s
  | .haltUnfence o => Sys2Proof.Machine.execHaltUnfence o s
  | .domsw o => Sys2Proof.Machine.execDomsw o s
  | .waymRead o => Sys2Proof.Machine.execWaymRead o s
  | .waymRequest o => Sys2Proof.Machine.execWaymRequest o s
  | .scrub o => Sys2Proof.Machine.execScrub o s
  | .preemptReady o => Sys2Proof.Machine.execPreemptReady o s
  | .preemptHold o => Sys2Proof.Machine.execPreemptHold o s
  | .preemptRelease o => Sys2Proof.Machine.execPreemptRelease o s
  | .ret => Sys2Proof.Machine.execRet s
  | .nop => Sys2Proof.Machine.execNop s
  | .uiret => Sys2Proof.Machine.execUiret s
  | .mrels => Sys2Proof.Machine.execMrels s
  | .mzero => Sys2Proof.Machine.execMzero s
  | .exit => Sys2Proof.Machine.execExit s
  | .brk => Sys2Proof.Machine.execBrk s
  | .powerUp => Sys2Proof.Machine.execPowerUp s
  | .rootSelfTest => Sys2Proof.Machine.execRootSelfTest s
  | .loaderCopy => Sys2Proof.Machine.execLoaderCopy s
  | .linkTraining => Sys2Proof.Machine.execLinkTraining s
  | .plynvasLoad => Sys2Proof.Machine.execPlynvasLoad s
  | .readyReport => Sys2Proof.Machine.execReadyReport s
  | .instructionFill => Sys2Proof.Machine.execInstructionFill s
  | .owedResultWrite => Sys2Proof.Machine.execOwedResultWrite s
  | .loadReturn => Sys2Proof.Machine.execLoadReturn s
  | .storeDrain => Sys2Proof.Machine.execStoreDrain s
  | .storePerform => Sys2Proof.Machine.execStorePerform s
  | .atomicPerform => Sys2Proof.Machine.execAtomicPerform s
  | .clockPacketArrival => Sys2Proof.Machine.execClockPacketArrival s
  | .clockProbe => Sys2Proof.Machine.execClockProbe s
  | .syncAccessAtHome => Sys2Proof.Machine.execSyncAccessAtHome s
  | .syncTryFailReturn => Sys2Proof.Machine.execSyncTryFailReturn s
  | .syncResend => Sys2Proof.Machine.execSyncResend s
  | .withdrawalAtHome => Sys2Proof.Machine.execWithdrawalAtHome s
  | .waitlimExpiry => Sys2Proof.Machine.execWaitlimExpiry s
  | .burstWindowClose => Sys2Proof.Machine.execBurstWindowClose s
  | .burstFill => Sys2Proof.Machine.execBurstFill s
  | .controllerRequest => Sys2Proof.Machine.execControllerRequest s
  | .wayChangeover => Sys2Proof.Machine.execWayChangeover s
  | .plbFill => Sys2Proof.Machine.execPlbFill s
  | .copyAccept => Sys2Proof.Machine.execCopyAccept s
  | .copyUnitWrite => Sys2Proof.Machine.execCopyUnitWrite s
  | .copyComplete => Sys2Proof.Machine.execCopyComplete s
  | .copyUnitTimeout => Sys2Proof.Machine.execCopyUnitTimeout s
  | .watchArmAtHome => Sys2Proof.Machine.execWatchArmAtHome s
  | .watchWakeArrival => Sys2Proof.Machine.execWatchWakeArrival s
  | .uiEntry => Sys2Proof.Machine.execUiEntry s
  | .asyncTrapEntry => Sys2Proof.Machine.execAsyncTrapEntry s
  | .wakeDuty => Sys2Proof.Machine.execWakeDuty s
  | .cancelAtBoundary => Sys2Proof.Machine.execCancelAtBoundary s
  | .journalAck => Sys2Proof.Machine.execJournalAck s
  | .journalRefusal => Sys2Proof.Machine.execJournalRefusal s
  | .storeRefusal => Sys2Proof.Machine.execStoreRefusal s
  | .faultReportArrival => Sys2Proof.Machine.execFaultReportArrival s
  | .mapMessage => Sys2Proof.Machine.execMapMessage s
  | .declineMessage => Sys2Proof.Machine.execDeclineMessage s
  | .wakeMessage => Sys2Proof.Machine.execWakeMessage s
  | .serviceResponse => Sys2Proof.Machine.execServiceResponse s
  | .svcStatus => Sys2Proof.Machine.execSvcStatus s
  | .svcPartitionConfig => Sys2Proof.Machine.execSvcPartitionConfig s
  | .svcJobLoad => Sys2Proof.Machine.execSvcJobLoad s
  | .svcJobStart => Sys2Proof.Machine.execSvcJobStart s
  | .svcJobCancel => Sys2Proof.Machine.execSvcJobCancel s
  | .svcFaultRecords => Sys2Proof.Machine.execSvcFaultRecords s
  | .svcAttest => Sys2Proof.Machine.execSvcAttest s
  | .svcFirmwareUpdate => Sys2Proof.Machine.execSvcFirmwareUpdate s
  | .launchStart => Sys2Proof.Machine.execLaunchStart s
  | .releaseFlushDone => Sys2Proof.Machine.execReleaseFlushDone s
  | .slotAssign => Sys2Proof.Machine.execSlotAssign s
  | .threadStart => Sys2Proof.Machine.execThreadStart s
  | .contextSwapOut => Sys2Proof.Machine.execContextSwapOut s
  | .contextRestore => Sys2Proof.Machine.execContextRestore s
  | .migrationReservation => Sys2Proof.Machine.execMigrationReservation s
  | .migrationArrival => Sys2Proof.Machine.execMigrationArrival s
  | .barrierRowCompletion => Sys2Proof.Machine.execBarrierRowCompletion s
  | .barrierColumnCompletion => Sys2Proof.Machine.execBarrierColumnCompletion s
  | .barrierRelease => Sys2Proof.Machine.execBarrierRelease s
  | .yieldDeadline => Sys2Proof.Machine.execYieldDeadline s
  | .yieldReadyTimeout => Sys2Proof.Machine.execYieldReadyTimeout s
  | .leaseGrant => Sys2Proof.Machine.execLeaseGrant s
  | .leaseCycleLimit => Sys2Proof.Machine.execLeaseCycleLimit s
  | .plankAccept => Sys2Proof.Machine.execPlankAccept s
  | .governorStart => Sys2Proof.Machine.execGovernorStart s
  | .plankCommandEnd => Sys2Proof.Machine.execPlankCommandEnd s
  | .portRequestArrival => Sys2Proof.Machine.execPortRequestArrival s
  | .carderStep => Sys2Proof.Machine.execCarderStep s
  | .idleTimeout => Sys2Proof.Machine.execIdleTimeout s
  | .portCompletionArrival => Sys2Proof.Machine.execPortCompletionArrival s
  | .carderCompletionTimeout => Sys2Proof.Machine.execCarderCompletionTimeout s
  | .bufferItemArrival => Sys2Proof.Machine.execBufferItemArrival s
  | .creditArrival => Sys2Proof.Machine.execCreditArrival s
  | .watermarkTokenArrival => Sys2Proof.Machine.execWatermarkTokenArrival s
  | .brimRecord => Sys2Proof.Machine.execBrimRecord s
  | .brimWatermarkMessage => Sys2Proof.Machine.execBrimWatermarkMessage s
  | .frameMarker => Sys2Proof.Machine.execFrameMarker s
  | .frameSend => Sys2Proof.Machine.execFrameSend s
  | .frameReceive => Sys2Proof.Machine.execFrameReceive s
  | .ackFrameReceive => Sys2Proof.Machine.execAckFrameReceive s
  | .completionAckArrival => Sys2Proof.Machine.execCompletionAckArrival s
  | .frameResendDue => Sys2Proof.Machine.execFrameResendDue s
  | .relayDiscard => Sys2Proof.Machine.execRelayDiscard s
  | .queueResetArrival => Sys2Proof.Machine.execQueueResetArrival s
  | .osendBytesHeld => Sys2Proof.Machine.execOsendBytesHeld s
  | .gangTick => Sys2Proof.Machine.execGangTick s
  | .bandboxExchangeDone => Sys2Proof.Machine.execBandboxExchangeDone s
  | .saveDeadline => Sys2Proof.Machine.execSaveDeadline s
  | .gangLateTimeout => Sys2Proof.Machine.execGangLateTimeout s
  | .gschedTakeEffect => Sys2Proof.Machine.execGschedTakeEffect s
  | .faultEvent => Sys2Proof.Machine.execFaultEvent s
  | .unitReplacementDone => Sys2Proof.Machine.execUnitReplacementDone s
  | .linkCheckFailure => Sys2Proof.Machine.execLinkCheckFailure s
  | .laneFailure => Sys2Proof.Machine.execLaneFailure s
  | .plankStateError => Sys2Proof.Machine.execPlankStateError s
  | .ethIncomingWrite => Sys2Proof.Machine.execEthIncomingWrite s
  | .ethIncomingSend => Sys2Proof.Machine.execEthIncomingSend s
  | .ethTailNotify => Sys2Proof.Machine.execEthTailNotify s
  | .ethOperationEnd => Sys2Proof.Machine.execEthOperationEnd s
  | .ingressSend => Sys2Proof.Machine.execIngressSend s
  | .ingressOpComplete => Sys2Proof.Machine.execIngressOpComplete s
  | .ingressBind => Sys2Proof.Machine.execIngressBind s
  | .ingressUnbind => Sys2Proof.Machine.execIngressUnbind s
  | .thermalOverTemp => Sys2Proof.Machine.execThermalOverTemp s
  | .thermalTrip => Sys2Proof.Machine.execThermalTrip s
  | .pcfgWrite => Sys2Proof.Machine.execPcfgWrite s
  | .pgrpWrite => Sys2Proof.Machine.execPgrpWrite s
  | .pnextWrite => Sys2Proof.Machine.execPnextWrite s
  | .gschedWrite => Sys2Proof.Machine.execGschedWrite s
  | .wshareWrite => Sys2Proof.Machine.execWshareWrite s
  | .frelWrite => Sys2Proof.Machine.execFrelWrite s
  | .configWrite => Sys2Proof.Machine.execConfigWrite s
  | .kSourceTake => Sys2Proof.Machine.execKSourceTake s
  | .kDestinationOffer => Sys2Proof.Machine.execKDestinationOffer s
  | .qPop => Sys2Proof.Machine.execQPop s
  | .qEnginePush => Sys2Proof.Machine.execQEnginePush s
  | .evqPop => Sys2Proof.Machine.execEvqPop s
  | .msgWrite => Sys2Proof.Machine.execMsgWrite s
  | .missingMarker => Sys2Proof.Machine.execMissingMarker s
  | .rotorEvent => Sys2Proof.Machine.execRotorEvent s
  | .ccwaitResend => Sys2Proof.Machine.execCcwaitResend s
  | .writeQueueDrain => Sys2Proof.Machine.execWriteQueueDrain s
  | .writeAcknowledgement => Sys2Proof.Machine.execWriteAcknowledgement s
  | .waiterWakeArrival => Sys2Proof.Machine.execWaiterWakeArrival s
  | .powerLoss => Sys2Proof.Machine.execPowerLoss s
  | .connectionSetup => Sys2Proof.Machine.execConnectionSetup s
  | .ethIncomingRead => Sys2Proof.Machine.execEthIncomingRead s
  | .remoteAtomicOperation => Sys2Proof.Machine.execRemoteAtomicOperation s

end Sys2Proof.Machine
end

