-- ==== Sys2Proof/Machine/Step.lean ====
section
/-! DEFINITION. One step of the machine, and the placing of an instruction where the next step fetches it (log 7). -/

namespace Sys2Proof.Machine

/-- One step: the next instruction or event is executed, or the state moves on without one. -/
def step (s : State) : Host.Outcome State Fault Refusal :=
  match s.turn with
  | .run i s' => exec i s'
  | .done s' => .next s'

/-- The halfwords of an instruction as a table word gives them, padded with zeros to the longest instruction, as one
little-endian number (log 13). -/
def placedBytes (nbits w : Nat) : Nat :=
  (tableHalves ((nbits + 15) / 16) w).foldr (fun h acc => h.toNat + 65536 * acc) 0

/-- A machine in which partition 0 stands on group 0 of die 0, with one identity-mapped page and one thread in slot 0 of core
0, about to fetch the instruction of a table word (log 7). -/
def State.withFetchWord (s : State) (nbits w : Nat) : State :=
  let x := placedBytes nbits w
  let pc := 0x10000
  let pages : List (Nat × Nat) := [(0x1000, 0x1D), (0x1008, 0xFFFF000), (0x2000, 2 ^ 62 + 0x2800), (0x2800, 2 ^ 62 + 0x3000),
    (0x3000, 2 ^ 62 + 0x3800), (0x3800, 2 ^ 63 + 8 * 2 ^ 58)]
  let mem := (pages.foldl (fun m e => m.writeN e.1 8 e.2) s.mem).writeN pc 26 x
  let t : Thread := { Thread.start with tid := s.nextId, pc := addr pc }
  { s with
    mem := mem
    threads := mput s.threads 0 t
    cores := mput s.cores 0 { s.core 0 with
      plb := [⟨0, 0, 0xFFFF, 0, 0, false, true, true, true⟩]
      icache := [⟨0, pc / 32, BitVec.ofNat 256 x⟩, ⟨0, pc / 32 + 1, 0⟩] }
    groups := mput s.groups 0 { s.group 0 with ptroot := 0x2000 }
    parts := mput s.parts 0 { s.partn 0 with pcfg := 0x8000000000000000, pgrp := #v[1, 0] }
    io := { s.io with doms := mput s.io.doms 0 (0x1000, 1) }
    cursor := 0
    nextId := s.nextId + 1 }

end Sys2Proof.Machine
end

