-- ==== Sys2Proof/Safety.lean ====
section
/-! DEFINITION. What counts as a safe run: the machine goes on, with no fault and no refusal; and what an instruction needs of
the state to execute, in the terms that the statements use (03_encoding R51, 02_machine_state R23, R24, R26). -/

namespace Sys2Proof.Safety

open Machine

/-- The state after n steps, if every one of them gave a next state. -/
def stateAfter : Nat → State → Option State
  | 0, s => some s
  | n + 1, s =>
    match step s with
    | .next s' => stateAfter n s'
    | _ => none

/-- A run of n steps that meets no fault and no refusal. -/
def safeFor (n : Nat) (s : State) : Prop := (stateAfter n s).isSome

/-- A state whose next step gives a next state. -/
def goesOn (s : State) : Prop := ∃ s', step s = .next s'

end Sys2Proof.Safety

namespace Sys2Proof.Machine

/-- A source can be read (R23, R24): a g, v or p register is full, a k register is bound for input and holds a delivered item, a
queue holds a doubleword for every read of it up to this one (`before` are the sources read earlier). -/
def Src.readable (s : State) (t : Thread) (before : List Src) : Src → Bool
  | .x n _ _ =>
    if n < 24 then t.isFull (.g n)
    else if isK n then
      (match t.kb (kIndex n) with
      | some b => b.isIn && !b.isV && b.item.isSome
      | none => false)
    else if isQsrc n then readsOf n before < (t.queue (n - 28)).length
    else readsOf n before < (s.core (coreOf s.cur)).evq.length
  | .v n _ _ => t.isFull (.v n)
  | .p n _ _ => t.isFull (.p n)
  | .sub n => t.isFull (.g n)

/-- Every source of a list can be read. -/
def srcsReadable (s : State) (t : Thread) : List Src → List Src → Bool
  | _, [] => true
  | before, x :: l => x.readable s t before && srcsReadable s t (before ++ [x]) l

/-- A destination accepts a result (R23, R33, R276): nothing is owed to a g, v or p register, a k register is bound for output to a
port without an operation and PMETA is usable, a q register is mapped and its FIFO has room, no message is on its way. -/
def Dst.accepts (s : State) (t : Thread) : Dst → Bool
  | .x n =>
    if n < 24 then !t.isOwed (.g n)
    else if isK n then
      (match t.kb (kIndex n) with
      | some b => !b.isIn && !b.isV && t.pmeta != noMeta && ((s.port b.port).bind (·.op)).isNone
      | none => false)
    else if isQdst n then t.qcode n != 0 && (t.fifo.toList.getD (t.qcode n - 1) []).length < 8
    else !(s.core (coreOf s.cur)).msgBusy
  | .v n => !t.isOwed (.v n)
  | .p n => !t.isOwed (.p n)

/-- What an instruction needs to issue without a stop (R51, steps 1, 3 and 4): thread t stands in the current slot, its core may
run the instruction (`svc`: one of service cores only), the predicate it names is full, its sources can be read and its
destinations accept. -/
structure Issues (s : State) (t : Thread) (svc : Bool) (srcs : List Src) (dsts : List Dst) : Prop where
  slot : s.thread s.cur = some t
  core : isService (coreOf s.cur) = true ∨ (svc || srcs.any Src.special || dsts.any Dst.special) = false
  pred : t.isFull (.p s.q.pred.toNat) = true
  reads : srcsReadable s t [] srcs = true
  writes : dsts.all (Dst.accepts s t) = true

/-- What an instruction needs to execute (R51): it can issue, and its predicate lets it execute. -/
structure Executes (s : State) (t : Thread) (svc : Bool) (srcs : List Src) (dsts : List Dst) : Prop extends
    Issues s t svc srcs dsts where
  on : (t.pv s.q.pred.toNat != s.q.inv) = true

/-- What the meaning of an instruction sees as it issues from the current slot. -/
def State.cx (s : State) (t : Thread) : Cx := ⟨s.cur, t, s.q, s⟩

/-- The state as the instruction has taken its sources and moved its thread to the next instruction. -/
def State.taken (s : State) (t : Thread) (srcs : List Src) : State := s.issued s.cur t srcs

/-- The same with its thread changed by f: the state after an instruction whose effect is on its thread alone. -/
def State.after (s : State) (t : Thread) (srcs : List Src) (f : Thread → Thread) : State := (s.taken t srcs).modT s.cur f

/-- What the machine answers for what a meaning gave: its state, or the state after its stop. -/
def State.answers (s : State) (t : Thread) : Res State → Host.Outcome State Fault Refusal
  | .ok s' => .next s'
  | .error h => .next (s.stopped s.cur t h)

end Sys2Proof.Machine
end

