-- ==== Sys2Proof/Claims.lean ====
section
/-! DEFINITION. The shapes of the statements about single instructions: what `exec` answers when an instruction executes, for each
kind of destination, and the values that the spec's instruction tables give, written from the tables. -/

namespace Sys2Proof.Claims

open Machine

/-! ## Values -/

/-- The doubleword whose bit i is f i. -/
def ofBits (f : Nat → Bool) : DW := dw (bitsOf f (List.range 64))

/-- A count of 0 to 63 in bits 5:0. -/
def low6 (t : DW) : Nat := bits t.toNat 5 0

/-- The number of zero bits above the highest bit that is 1, or 64 (CLZ, R64). -/
def zerosAbove (a : DW) : Nat := ((List.range 64).find? (fun i => a.getLsbD (63 - i))).getD 64

/-- The number of zero bits below the lowest bit that is 1, or 64 (CTZ, R64). -/
def zerosBelow (a : DW) : Nat := ((List.range 64).find? (fun i => a.getLsbD i)).getD 64

/-- The number of bits that are 1 (POPC, R64). -/
def ones (a : DW) : Nat := ((List.range 64).filter (fun i => a.getLsbD i)).length

/-- The mask M of an EXT or INS whose T is t (R64). -/
def fieldMask (t : DW) : DW := dw (2 ^ min (bits t.toNat 12 6) (64 - low6 t) - 1) <<< low6 t

/-- The quotient q of R63. -/
def quotient (signed : Bool) (a t : DW) : DW :=
  if t = 0 then 0xFFFFFFFFFFFFFFFF
  else if signed && a == 0x8000000000000000 && t == 0xFFFFFFFFFFFFFFFF then a
  else if signed then BitVec.ofInt 64 (a.toInt.tdiv t.toInt)
  else dw (a.toNat / t.toNat)

/-- The remainder r of R63. -/
def remainder (signed : Bool) (a t : DW) : DW :=
  if t = 0 then a
  else if signed && a == 0x8000000000000000 && t == 0xFFFFFFFFFFFFFFFF then 0
  else a - quotient signed a t * t

/-! ## Shapes of scalar instructions -/

/-- gd := f(gs, T) (R62, R64): whenever the instruction executes, the value is delivered to its destination (R22: a k destination
offers it, a q destination pushes it, msg appends it); where that is a g register it goes on to the state in which its thread stands
at the next instruction, its sources are taken, and gd holds the value, full. -/
def Gives2 (i : Instr) (o : Op) (f : DW → DW → DW) : Prop :=
  ∀ (s : State) (t : Thread), Executes s t false (o.sx s.q ++ o.tx s.q) [.x o.dn] →
    let v := f ((s.cx t).sval o) ((s.cx t).tval o)
    exec i s = s.answers t ((s.taken t (o.sx s.q ++ o.tx s.q)).putX (s.cx t) o.dn v) ∧
    (o.dn < 24 → exec i s = .next (s.after t (o.sx s.q ++ o.tx s.q) (fun x => x.setG o.dn v)))

/-- gd := f(gs), delivered likewise. -/
def Gives1 (i : Instr) (o : Op) (f : DW → DW) : Prop :=
  ∀ (s : State) (t : Thread), Executes s t false (o.sx s.q) [.x o.dn] →
    let v := f ((s.cx t).sval o)
    exec i s = s.answers t ((s.taken t (o.sx s.q)).putX (s.cx t) o.dn v) ∧
    (o.dn < 24 → exec i s = .next (s.after t (o.sx s.q) (fun x => x.setG o.dn v)))

/-- gd := f(gd, imm) of an FI instruction, imm sign-extended. -/
def GivesImm (i : Instr) (o : OpI) (f : DW → DW → DW) : Prop :=
  ∀ (s : State) (t : Thread), Executes s t false [.x o.d.toNat 2 s.q.td] [.x o.d.toNat] → o.d.toNat < 24 →
    exec i s = .next (s.after t [.x o.d.toNat 2 s.q.td]
      (fun x => x.setG o.d.toNat (f (t.gv o.d.toNat) (o.imm.signExtend 64))))

/-- gd := f(gs, T), owed to its destination from issue on (R23, R63), with no flags. -/
def Owes2 (i : Instr) (o : Op) (f : DW → DW → DW) : Prop :=
  ∀ (s : State) (t : Thread), Executes s t false (o.sx s.q ++ o.tx s.q) [.x o.dn] →
    let v := f ((s.cx t).sval o) ((s.cx t).tval o)
    exec i s = s.answers t ((s.taken t (o.sx s.q ++ o.tx s.q)).oweX (s.cx t) o.dn v 0 false false) ∧
    (o.dn < 24 → exec i s = .next ((s.taken t (o.sx s.q ++ o.tx s.q)).owe s.cur [(.g o.dn, v.setWidth 512)] none 0 false false))

/-- pd := f(gs, T) (R65); p0 keeps its value (R23). -/
def Compares (i : Instr) (o : Op) (f : DW → DW → Bool) : Prop :=
  ∀ (s : State) (t : Thread), Executes s t false (o.sx s.q ++ o.tx s.q) [.p o.dn] →
    exec i s = .next (s.after t (o.sx s.q ++ o.tx s.q) (fun x => x.setP o.dn (f ((s.cx t).sval o) ((s.cx t).tval o))))

/-- pd := f(ps, pt), pt reading as 0 without a REG halfword (R67). -/
def Predicates (i : Instr) (o : Op) (f : Bool → Bool → Bool) : Prop :=
  ∀ (s : State) (t : Thread), Executes s t false (.p o.sn 0 s.q.ts :: o.tp s.q) [.p o.dn] →
    exec i s = .next (s.after t (.p o.sn 0 s.q.ts :: o.tp s.q)
      (fun x => x.setP o.dn (f (t.pv o.sn) (match o.t with
        | .reg r => t.pv r.toNat
        | .imm _ => false))))

/-! ## Shapes of scalar floating-point instructions (R72 to R75) -/

/-- The operand in the low bits of a register, as an exact value of the instruction's format (R72). -/
def fpVal (o : Op) (x : DW) : Exact := (opFmt o).decode x.toNat

/-- gd := ROUND(f(gs, T, gd)), owed, zero-extended, with the flags of the operation and of its one rounding to be ORed into FMODE
as it is written (R71, R73). The mode is the static rounding code, or FMODE.RM for code 0 (R55). -/
def OwesRounded (i : Instr) (o : Op) (srcs : Quals → List Src) (f : RMode → Exact → Exact → Exact → Exact × Flags) : Prop :=
  ∀ (s : State) (t : Thread), Executes s t false (srcs s.q) [.x o.dn] → o.dn < 24 →
    let md := t.mode o.rnd.toNat
    let e := f md (fpVal o ((s.cx t).sval o)) (fpVal o ((s.cx t).tval o)) (fpVal o (t.gv o.dn))
    let r := roundTo (opFmt o) md false e.1
    exec i s = .next ((s.taken t (srcs s.q)).owe s.cur [(.g o.dn, (dw r.1).setWidth 512)] none (e.2 ||| r.2) true false)

/-- pd := f(gs, T) with a flag ORed into FMODE (R74). -/
def ComparesFp (i : Instr) (o : Op) (f : Exact → Exact → Bool × Bool) : Prop :=
  ∀ (s : State) (t : Thread), Executes s t false (o.sx s.q ++ o.tx s.q) [.p o.dn] →
    let r := f (fpVal o ((s.cx t).sval o)) (fpVal o ((s.cx t).tval o))
    exec i s = .next (s.after t (o.sx s.q ++ o.tx s.q) (fun x => (x.orFlags (if r.2 then flagNV else 0)).setP o.dn r.1))

/-! ## Control flow (R40, R68) -/

/-- The state with the thread at another instruction, and a change of the thread besides. -/
def leadsTo (s : State) (t : Thread) (srcs : List Src) (pc : Addr) (f : Thread → Thread) : State :=
  s.after t srcs (fun x => { f x with pc := pc })

/-- A PC-relative target: PC + 2 imm (R40, R68). -/
def ahead (t : Thread) (o : OpI) : Addr := t.pc + 2 * o.imm.signExtend 56

/-- A register target: bits 55:1 of the sum and a zero bit (R68). -/
def target (x : DW) : Addr := x.setWidth 56 &&& 0xFFFFFFFFFFFFFE

/-! ## Special registers (R28) -/

/-- The value of special register n, zero-extended (R28, R70). -/
def specialValue (s : State) (t : Thread) (n : Nat) : DW :=
  match n with
  | 0 => t.ths
  | 1 => dw (coordOf s.cur)
  | 2 => t.part.setWidth 64
  | 3 => t.domain.setWidth 64
  | 4 => t.fmode.setWidth 64
  | 5 => t.waitlim.setWidth 64
  | 6 => t.retrylim.setWidth 64
  | 7 => dw (s.cycle - (s.die (dieOfCore (coreOf s.cur))).start)
  | 8 => dw s.rtime
  | 9 => t.launchid.setWidth 64
  | 10 => t.graphid.setWidth 64
  | 11 => t.trapcause.setWidth 64
  | 12 => t.trappc.setWidth 64
  | 13 => t.trapaddr.setWidth 64
  | 14 => t.uivec.setWidth 64
  | 15 => t.qmap.setWidth 64
  | 16 => t.pmeta
  | 17 => (s.core (coreOf s.cur)).tvec.setWidth 64
  | _ => (s.core (coreOf s.cur)).tframe.setWidth 64

/-- Whether a result is owed by an instruction that can OR flags into FMODE (R71). -/
def flagsOwed (s : State) : Bool := s.owed.any (fun o => o.k == s.cur && o.fp)

/-- What a MOVSW of v makes of its thread, register by register (R28 to R32): THS keeps its read-only fields, and 0 in VLIVE clears
the v registers; reserved bits of FMODE read 0 and a reserved rounding mode stores RNE; addresses of instructions are even; a code of
QMAP above 4 stores 0; the read-only registers do not change. -/
def writesThread (n : Nat) (v : DW) (x x' : Thread) : Prop :=
  match n with
  | 0 => x'.ths = (x.ths &&& ~~~0x1F00002800) ||| (v &&& 0x1F00002800) ∧
      x' = { x with ths := x'.ths, v := if v.getLsbD 11 then x.v else Vector.replicate 8 ⟨0, true, false, false⟩ }
  | 3 => x' = { x with domain := v.setWidth 12 }
  | 4 => x' = { x with fmode := x'.fmode } ∧ bits x'.fmode.toNat 31 9 = 0 ∧ x'.fmode.getLsbD 8 = v.getLsbD 8 ∧
      bits x'.fmode.toNat 4 0 = bits v.toNat 4 0 ∧
      bits x'.fmode.toNat 7 5 = (if 1 ≤ bits v.toNat 7 5 ∧ bits v.toNat 7 5 ≤ 5 then bits v.toNat 7 5 else 1)
  | 5 => x' = { x with waitlim := v.setWidth 40 }
  | 6 => x' = { x with retrylim := v.setWidth 16 }
  | 11 => x' = { x with trapcause := v.setWidth 16 }
  | 12 => x' = { x with trappc := v.setWidth 56 }
  | 13 => x' = { x with trapaddr := v.setWidth 56 }
  | 14 => x' = { x with uivec := v.setWidth 56 &&& 0xFFFFFFFFFFFFFE }
  | 15 => x' = { x with qmap := x'.qmap } ∧ ∀ i < 12, bits x'.qmap.toNat (4 * i + 3) (4 * i) =
      (if bits v.toNat (4 * i + 3) (4 * i) ≤ 4 then bits v.toNat (4 * i + 3) (4 * i) else 0)
  | 16 => x' = { x with pmeta := v }
  | _ => x' = x

/-- What it makes of its core. -/
def writesCore (n : Nat) (v : DW) (x : Core) : Core :=
  match n with
  | 17 => { x with tvec := v.setWidth 56 &&& 0xFFFFFFFFFFFFFE }
  | 18 => { x with tframe := v.setWidth 56 &&& 0xFFFFFFFFFFFE00 }
  | _ => x

/-! ## Memory instructions (R99 to R132) -/

/-- a = (gs + T)[55:0] (R114). -/
def sumAddr (s : State) (t : Thread) (o : Op) : Nat := ((s.cx t).sval o + (s.cx t).tval o).toNat % 2 ^ 56

/-- a = gs[55:0] (R114). -/
def baseAddr (s : State) (t : Thread) (o : Op) : Nat := ((s.cx t).sval o).toNat % 2 ^ 56

/-- An access of the current thread reaches a place (R102, R115): it passes the checks of address, alignment, protection and
translation, no acquire of the thread is outstanding, and it does not move the thread (R248). -/
structure Reaches (s : State) (t : Thread) (va n al : Nat) (rt : Right) (late : Bool) (p : Place) : Prop where
  place : s.access s.cur t va n al rt late = .ok p
  ready : s.acquiring s.cur t = false
  stays : (s.cx t).movesTo p.loc = .ok ()

/-- A read of n bytes can be sent to its place: no posted write or accumulation of the thread to them is under way (R124, R206), and
no word of them holds an uncorrectable error (R392). -/
structure Clean (s : State) (t : Thread) (va n loc : Nat) : Prop where
  posted : (s.cx t).posting va n = false
  whole : s.mem.badWord loc n = none

/-- A request stands at its home, next at its words (R97, R99, R106, R111, R128): it has left its core and arrived, the home knows its
clock, no access to its words comes before it, no engine owns its bytes, and it waits neither in the waiter table (R121) nor for a
burst (R88). -/
structure Stands (s : State) (id : Nat) (r : Req) : Prop where
  named : s.arg = .n1 id
  found : s.req id = some r
  undone : r.fin = none
  left : r.left = true
  here : r.here = true
  heard : s.gates r = []
  first : s.precededBy r = false
  free : r.pieces.any (fun p => s.ownedBusy r.dom p.va p.n .anyone) = false
  served : r.waiting = false
  asked : r.miss ≠ some false

/-- It may be performed now: its lines are in its home vault (R81, R88), its way grants it (R95), its scratch words are there (R84), and
none of its words holds an uncorrectable error (R392). -/
structure Performs (s : State) (id : Nat) (r : Req) : Prop extends Stands s id r where
  lines : s.missing r = []
  turn : s.yields r = false
  stays : ∀ p ∈ r.pieces, s.gonePiece r p = false
  whole : ∀ p ∈ r.pieces, s.mem.badWord p.loc p.n = none

/-- Its answer is on its way back (R97): it is fixed, and nothing of its thread has changed yet. -/
def Answered (s s' : State) (id : Nat) (x : Ret) : Prop :=
  (∃ r', s'.req id = some r' ∧ r'.fin = some x) ∧ s'.threads = s.threads ∧
  (∃ e : Ev, e = ⟨.loadReturn, .n1 id⟩ ∧ ((∃ p ∈ s'.fabric, p.ev = e) ∨ (s.cycle + 1, e) ∈ s'.timers))

/-- A request's answer has reached its core (R97). -/
structure Arrives (s : State) (id : Nat) (r : Req) (x : Ret) : Prop where
  named : s.arg = .n1 id
  found : s.req id = some r
  done : r.fin = some x

/-- An event is due, in this cycle or a later one. -/
def isDue (s : State) (e : Ev) : Prop := e ∈ s.agenda ∨ ∃ c, (c, e) ∈ s.timers

/-- An event is due in the machine or on its way through the fabric. -/
def onItsWay (s : State) (e : Ev) : Prop := e ∈ s.agenda ∨ ∃ p ∈ s.fabric, p.ev = e

/-- Memory but for n bytes from a place that now hold the low bytes of a value, lowest first; full/empty bits as they were (R93). The
written bytes are those of a memory in canonical form, which every step keeps. -/
def Stored (m m' : Mem) (loc n v : Nat) : Prop :=
  (m.wf = true → ∀ a, loc ≤ a → a < loc + n → m'.byte a = BitVec.ofNat 8 (v / 256 ^ (a - loc))) ∧
  (∀ a, ¬ (loc ≤ a ∧ a < loc + n) → m'.byte a = m.byte a) ∧ m'.full = m.full ∧ m'.poison = m.poison

/-- A load of n bytes (R114, R116): gd is owed the value, which comes from the youngest store of the core's buffer that covers them
(R100), from the core's data cache (R97), or from its home, where a later access of the thread to the place is under way (R99) or the
core holds none of them. -/
def Loads (i : Instr) (o : Op) (n : Nat) (signed : Bool) : Prop :=
  ∀ (s : State) (t : Thread) (p : Place), Executes s t false (o.sx s.q ++ o.tx s.q) [.x o.dn] →
    let va := sumAddr s t o
    let s1 := (s.taken t (o.sx s.q ++ o.tx s.q)).claimFor (s.cx t) p
    let kind : ReqKind := .load o.dn n signed false
    let ps : List Piece := [⟨va, p.loc, n, 0⟩]
    let asks := exec i s = .next (s1.request (s.cx t) kind ps none (some (.g o.dn)))
    let m := s1.lastOwn t ps
    (isService (coreOf s.cur) = true → regionOf va ≠ 0xF1) → Reaches s t va n n .rd false p → Clean s t va n p.loc →
    (s.forward s.cur p.loc n = .none → (m = 0 → s1.cacheHit (s.cx t) va p.loc n = none) → asks) ∧
    (∀ v, s.forward s.cur p.loc n = .none → m = 0 → s1.cacheHit (s.cx t) va p.loc n = some v →
      exec i s = .next ((s1.answered (s.cx t) kind ps (.g o.dn) v).dUse (coreOf s.cur) t.domN va)) ∧
    (∀ e w v, s.forward s.cur p.loc n = .hit e w v → m < e →
      exec i s = .next ((s1.answered (s.cx t) kind ps (.g o.dn) v).seenBy (coreOf s.cur) e t.tid)) ∧
    (∀ e w v, s.forward s.cur p.loc n = .hit e w v → e ≤ m → asks)

/-- A store of the low n bytes of gd (R117): it enters its core's store buffer, where there is room. -/
def Stores (i : Instr) (o : Op) (n : Nat) : Prop :=
  ∀ (s : State) (t : Thread) (p : Place), Executes s t false (o.sx s.q ++ o.tx s.q ++ o.dx s.q) [] →
    let va := sumAddr s t o
    (isService (coreOf s.cur) = true → regionOf va ≠ 0xF1) → s.access s.cur t va n n .wr true = .ok p →
    s.acquiring s.cur t = false → (s.core (coreOf s.cur)).sbuf.length < 16 →
    exec i s = .next (((s.taken t (o.sx s.q ++ o.tx s.q ++ o.dx s.q)).claimFor (s.cx t) p).buffer s.cur t
      [⟨va, p.loc, n, ((s.cx t).dval o).setWidth 512⟩] p.refuse)

/-- The scope of a release suffix (R47, R103): etype 1 to 6, or the instruction's default. -/
def scope (o : Op) (dflt : Scope) : Scope :=
  match o.et.toNat with
  | 1 => .thread
  | 2 => .core
  | 3 => .cluster
  | 4 => .die
  | 5 => .package
  | 6 => .system
  | _ => dflt

/-- An atomic on the doubleword at gs (R127): the request carries T (and gd for ACAS) and the scope whose release conditions it
waits for, and gd is owed the old value. -/
def Atomic (i : Instr) (o : Op) (op : Aop) : Prop :=
  ∀ (s : State) (t : Thread) (p : Place),
    let srcs := o.sx s.q ++ o.tx s.q ++ (if op = .cas then o.dx s.q else [])
    let va := baseAddr s t o
    Executes s t false srcs [.x o.dn] → Reaches s t va 8 8 .rw false p → s.mem.badWord p.loc 8 = none →
    exec i s = .next (((s.taken t srcs).claimFor (s.cx t) p).request (s.cx t)
      (.atomic op o.dn ((s.cx t).tval o) (if op = .cas then (s.cx t).dval o else 0)) [⟨va, p.loc, 8, 0⟩]
      (some (scope o .cluster)) (some (.g o.dn)))

/-- A synchronising access (R119): the request is on its way, gd is owed for LDFE and LDFF, and the thread stands at the instruction
until the access is performed; from the home's own cluster with RETRYLIM 0 the first try is the last (R120). -/
def Synchronises (i : Instr) (o : Op) (op : Sop) : Prop :=
  ∀ (s : State) (t : Thread) (p : Place),
    let loads : Bool := op = .ldfe ∨ op = .ldff
    let srcs := o.sx s.q ++ o.tx s.q ++ (if loads then [] else o.dx s.q)
    let va := sumAddr s t o
    let rt := match op with
      | .ldfe => Right.rw
      | .ldff => Right.rd
      | _ => Right.wr
    Executes s t false srcs (if loads then [.x o.dn] else []) → s.access s.cur t va 8 8 rt false = .ok p →
    s.acquiring s.cur t = false → (loads = true → (s.cx t).movesTo p.loc = .ok ()) →
    ∃ s' t' r, exec i s = .next s' ∧ s'.reqs = s.reqs ++ [r] ∧ s'.thread s.cur = some t' ∧ s'.mem = s.mem ∧
      r.kind = .sync op o.dn (if loads then 0 else (s.cx t).dval o)
        (homeCluster p.loc == clusterOf (coreOf s.cur) && !isService (coreOf s.cur) && t.retrylim == 0) ∧
      r.pieces = [⟨va, p.loc, 8, (if loads then 0 else (s.cx t).dval o).setWidth 512⟩] ∧
      r.rel = (if loads then none else some (scope o .cluster)) ∧ r.k = s.cur ∧ r.tid = t.tid ∧ r.npc = s.npc t ∧
      t'.pc = t.pc ∧ t'.run = .parked (.sync r.id) ∧ t'.tries = 0 ∧
      (loads = true → t'.isOwed (.g o.dn) = true ∧ ∀ m, m ≠ o.dn → t'.gcell m = t.gcell m) ∧ (loads = false → t'.g = t.g)

/-- The thread named in a slot. -/
structure InSlot (s : State) (k : Key) (t : Thread) (tid : Nat) : Prop where
  slot : s.thread k = some t
  name : t.tid = tid

/-- No remote waiter stands at a home (R121). -/
def NoneWaits (s : State) : Prop := ∀ r ∈ s.reqs, r.waiting = false

/-- No swapped waiter of a word waits for a full/empty state (R120). -/
def NoneSwapped (s : State) (loc : Nat) : Prop := ∀ w ∈ (s.cluster (homeCluster loc)).swapped, w.loc ≠ loc / 8 * 8

/-! ## Vector instructions (R188 to R204) -/

/-- Lane i of a register at a width. -/
def lane (w : Nat) (v : VReg) (i : Nat) : Nat := v.toNat / 2 ^ (w * i) % 2 ^ w

/-- The flags of n lanes, ORed together. -/
def laneFlags (n : Nat) (f : Nat → Nat × Flags) : Flags := ((List.range n).map (fun i => (f i).2)).foldl (· ||| ·) 0

/-- A register holds, lane by lane, what a function gives. -/
def HasLanes (w : Nat) (r : VReg) (f : Nat → Nat × Flags) : Prop := ∀ i < 512 / w, lane w r i = (f i).1 % 2 ^ w

/-- vd := lanes at four cycles, the lanes' flags ORed into FMODE at once. -/
def VecNow (i : Instr) (o : Op) (srcs : Quals → List Src) (f : State → Thread → Nat → Nat × Flags) : Prop :=
  ∀ (s : State) (t : Thread), Executes s t false (srcs s.q) [.v o.dn] → o.dn < 8 → o.et.toNat < 8 →
    ∃ r, HasLanes (etW o.et.toNat) r (f s t) ∧
      exec i s = .next (s.after t (srcs s.q) (fun x => (x.orFlags (laneFlags (512 / etW o.et.toNat) (f s t))).setV o.dn r))

/-- vd := lanes, owed with the lanes' flags. -/
def VecOwed (i : Instr) (o : Op) (srcs : Quals → List Src) (fp : Bool) (f : State → Thread → Nat → Nat × Flags) : Prop :=
  ∀ (s : State) (t : Thread), Executes s t false (srcs s.q) [.v o.dn] → o.dn < 8 → o.et.toNat < 8 →
    ∃ r, HasLanes (etW o.et.toNat) r (f s t) ∧
      exec i s = .next ((s.taken t (srcs s.q)).owe s.cur [(.v o.dn, r)] none
        (laneFlags (512 / etW o.et.toNat) (f s t)) fp false)

/-- The vector sources vs and vt. -/
def vsAndVt (o : Op) (q : Quals) : List Src := .v o.sn 0 q.ts :: o.tv q

/-- A lane operation on two lanes: INT lanes as signed integers modulo 2^w, FP lanes exactly and rounded once (R196). -/
def arith (o : Op) (fi : Int → Int → Int) (ff : RMode → Exact → Exact → Exact × Flags) (_ : State) (t : Thread) (i : Nat) : Nat × Flags :=
  let et := o.et.toNat
  let w := etW et
  let a := lane w (t.vv o.sn) i
  let b := lane w (t.vv o.tn) i
  if etFp et then
    let e := ff (t.mode o.rnd.toNat) ((fmtOfEt et).decode a) ((fmtOfEt et).decode b)
    let r := roundTo (fmtOfEt et) (t.mode o.rnd.toNat) false e.1
    (r.1, e.2 ||| r.2)
  else ((BitVec.ofInt w (fi (BitVec.ofNat w a).toInt (BitVec.ofNat w b).toInt)).toNat, 0)

/-- The value of a lane moved or computed without flags. -/
def plainLane (f : State → Thread → Nat → Nat) (s : State) (t : Thread) (i : Nat) : Nat × Flags := (f s t i, 0)

/-! ## Accesses of vector and ACC instructions (R193, R194, R205) -/

/-- The lanes of a vector access reach their places: ascending lanes of n bytes, each address with its place. -/
def LanesReach (s : State) (t : Thread) (n : Nat) (rt : Right) (late : Bool) (ls : List (Nat × Place)) : Prop :=
  s.acquiring s.cur t = false ∧ ∀ x ∈ ls, s.access s.cur t x.1 n n rt late = .ok x.2 ∧ x.2.refuse = none

/-- The frames of places claimed (R349). -/
def claimAll (s : State) (c : Cx) (ls : List (Nat × Place)) : State := ls.foldl (fun s x => s.claimFor c x.2) s

/-- A vector load whose lanes need not wait owes vd (R194). Where the core holds every lane, in its store buffer (R100) or its data cache
(R97), the value is fixed at once, lane by lane; else one request asks for the lanes that the store buffer does not hold. -/
def VecLoads (i : Instr) (o : Op) (n : Nat) (srcs : Quals → List Src) (addrs : State → Thread → List Nat) : Prop :=
  ∀ (s : State) (t : Thread) (ls : List (Nat × Place)), Executes s t false (srcs s.q) [.v o.dn] → ls.map (·.1) = addrs s t → ls ≠ [] →
    LanesReach s t n .rd false ls → (∀ x ∈ ls, (s.cx t).laneWaits n x = false ∧ s.mem.badWord x.2.loc n = none) →
    ∃ s' t' r, exec i s = .next s' ∧ s'.mem = s.mem ∧ s'.thread s.cur = some t' ∧ t'.pc = s.npc t ∧ t'.isOwed (.v o.dn) = true ∧
      s'.reqs = s.reqs ++ [r] ∧ r.kind = .vload o.dn n ∧ r.k = s.cur ∧ r.tid = t.tid ∧ r.rel = none ∧
      ((∀ x ∈ ls, s.laneNear (s.cx t) n x ≠ none) → ∃ v, r.fin = some (.ok v 0) ∧
        ∀ j < ls.length, ls[j]?.bind (s.laneNear (s.cx t) n) = some (v.toNat / 2 ^ (8 * n * j) % 2 ^ (8 * n))) ∧
      ((∃ x ∈ ls, s.laneNear (s.cx t) n x = none) → r.fin = none ∧ r.pieces.length = ls.length ∧
        ∀ j < ls.length, ∀ x, ls[j]? = some x →
          (s.laneHit (s.cx t) n x = none → r.pieces[j]? = some ⟨x.1, x.2.loc, n, 0⟩) ∧
          (∀ e v, s.laneHit (s.cx t) n x = some (e, v) → ∃ l, r.pieces[j]? = some ⟨x.1, l, 0, BitVec.ofNat 512 v⟩))

/-- A vector store enters the store buffer as one store of its lanes, lane 0 first. -/
def VecStores (i : Instr) (_ : Op) (n : Nat) (srcs : Quals → List Src) (addrs : State → Thread → List Nat)
    (data : Thread → List Nat) : Prop :=
  ∀ (s : State) (t : Thread) (ls : List (Nat × Place)), Executes s t false (srcs s.q) [] → ls.map (·.1) = addrs s t → ls ≠ [] →
    LanesReach s t n .wr true ls → (s.core (coreOf s.cur)).sbuf.length < 16 → (data t).length = ls.length →
    ∃ s' e, exec i s = .next s' ∧ s'.mem = s.mem ∧ s'.reqs = s.reqs ∧
      (s'.core (coreOf s.cur)).sbuf = (s.core (coreOf s.cur)).sbuf ++ [e] ∧ e.bad = none ∧
      e.pieces = (ls.zip (data t)).map (fun x => ⟨x.1.1, x.1.2.loc, n, BitVec.ofNat 512 x.2⟩)

/-- An accumulation, or the zeroing, of the ACC object at gd sends one request for its 96 bytes (R205, R231). -/
def Accumulates (i : Instr) (o : Op) (srcs : Quals → List Src) (kind : State → Thread → ReqKind) : Prop :=
  ∀ (s : State) (t : Thread) (p : Place), let a := ((s.cx t).dval o).toNat % 2 ^ 56
    Executes s t false (srcs s.q) [] → accMisplaced a = false → s.access s.cur t a 96 1 .rw true = .ok p →
    s.acquiring s.cur t = false → p.refuse = none →
    exec i s = .next (((s.taken t (srcs s.q)).claimFor (s.cx t) p).request (s.cx t) (kind s t) [⟨a, p.loc, 96, 0⟩] none none)

/-! ## The Plank (R217 to R229) -/

/-- A key's place after the last holder's in the cyclic order of R217. -/
def afterLast (last key : Nat) : Nat := (key + 1023 - last) % 512

/-- A Plank command may be held for its acceptance (R220, R391, R102): its slot has asked for the lease of a Plank that is in use, and
no acquire of its thread is outstanding. -/
structure PlankReady (s : State) (t : Thread) : Prop where
  asked : t.lease ≠ .none
  kept : (s.group (groupOf (coreOf s.cur))).plank.retired = false
  ready : s.acquiring s.cur t = false

/-- A Plank command issued with the registers it read (R114): its thread stands at it until the Plank accepts it (R220). -/
def holdsPlank (s : State) (t : Thread) (s1 : State) (op : PlankOp) (fifo : Bool) : Host.Outcome State Fault Refusal :=
  .next (s1.holdPend s.cur t.pc (.plank ⟨s.cur, t.tid, t.plankSeq, t.partN, t.domN, t.launchid, op, 0, 0, false, 0, 0,
    none, [], none⟩ fifo) .plankAccept .plankAccept)

/-- Whether a command is a multiply command. -/
def isMultiply : PlankOp → Bool
  | .mul .. => true
  | _ => false

/-- A multiply command at the head of a Plank is due to start. -/
def MultiplyDue (s : State) (g : Key) : Prop :=
  ∃ p l, (s.group g).plank.queue = p :: l ∧ isMultiply p.op = true ∧ p.started = false

/-- The command p at the head of a Plank's queue runs now (R221). -/
structure PlankRuns (s : State) (g : Key) (p : PlankCmd) (l : List PlankCmd) : Prop where
  named : s.arg = .n1 g
  queued : (s.group g).plank.queue = p :: l
  started : p.started = true
  free : p.stalled = none
  running : p.ended = none
  still : s.switching g = false

/-- It ended with a status and flags (R221): it has left the queue, is counted, and its record is the newest of its slot's q1. -/
def PlankEnds (s s' : State) (g : Key) (p : PlankCmd) (l : List PlankCmd) (status : Nat) (fl : Flags) : Prop :=
  (s'.group g).plank.queue.map (·.seq) = l.map (·.seq) ∧ (s'.group g).plank.completed = (s.group g).plank.completed + 1 ∧
  ∀ k t, InSlot s k t p.tid → s'.thread k = some { t with q1 := t.q1 ++ [dw (p.seq.toNat * 2 ^ 32 + recordFlags fl + status)] }

/-- Row i of A as a multiply command reads it, and column j of B (R209, R215). -/
def rowOf (s : State) (g : Key) (p : PlankCmd) (a apitch k i : Nat) : Line :=
  lineChunks (fun off n => match s.plankPlaces g p .rd (a + i * apitch + off) n with
    | .error e => .error e
    | .ok ps => .ok (s.mem.gatherAt ps)) p.fa.toNat k

/-- Column j. -/
def columnOf (s : State) (g : Key) (p : PlankCmd) (bpitch k woff j : Nat) : Line :=
  lineChunks (fun off n => .ok (wbufRead (s.group g).plank.wbuf (32 * woff + j * bpitch + off) n)) p.fb.toNat k

/-! ## Work (R237 to R270) -/

/-- The instruction owes v to gd (R23): its result is the newest one owed, and its thread stands at the next instruction with gd empty. -/
def OwesTo (s s' : State) (t : Thread) (d : Nat) (v : DW) : Prop :=
  (∃ e, s'.owed = s.owed ++ [e] ∧ e.k = s.cur ∧ e.writes = [(.g d, v.setWidth 512)] ∧ e.out = none ∧ e.acq = false) ∧
  ∃ t', s'.thread s.cur = some t' ∧ t'.pc = s.npc t ∧ t'.isOwed (.g d) = true ∧ ∀ m, m ≠ d → t'.gcell m = t.gcell m

/-- A task, or none, is owed to g[d] to g[d + 3] and the predicate p (R264); its return is an acquire. -/
def OwesTask (s s' : State) (d p : Nat) (task : Option (List DW)) : Prop :=
  ∃ e, s'.owed = s.owed ++ [e] ∧ e.k = s.cur ∧ e.acq = true ∧ e.out = none ∧
    e.writes = [(.g d, ((task.getD []).getD 0 0).setWidth 512), (.g (d + 1), ((task.getD []).getD 1 0).setWidth 512),
      (.g (d + 2), ((task.getD []).getD 2 0).setWidth 512), (.g (d + 3), ((task.getD []).getD 3 0).setWidth 512),
      (.p p, if task.isSome then 1 else 0)]

/-- The counter of a new level (R238, R254): in use for its partition, with a count, and the generation of its record. -/
def newCounter (gen : BitVec 17) (part n : Nat) : Counter := ⟨gen, true, part, n, false, false, false, 0, 0, []⟩

/-- The fields of a barrier register that BSET writes (R249): STEP, NARR, X0, Y0, W and H. -/
def barFields : DW := 0xFF00FFFFFC00

/-! ## Ports and windows (R273 to R336) -/

/-- The offer of one item at the out port that k register number n is bound to can start (R275, R276, R301): the binding b is for such
items, the meta is not the reserved one, and nothing is pending at the port. -/
structure OfferFits (s : State) (t : Thread) (n : Nat) (isV : Bool) (x : Item) (b : Binding) : Prop where
  bound : t.kb (kIndex n) = some b
  way : b.isIn = false
  kind : b.isV = isV
  tag : x.tag ≠ 0xFFFFFFFFFFFFFFFF
  free : (s.port b.port).bind (·.op) = none

/-- A take at the in port that k register number n is bound to can start (R302). -/
structure TakeFits (s : State) (t : Thread) (n : Nat) (isV : Bool) (b : Binding) : Prop where
  bound : t.kb (kIndex n) = some b
  way : b.isIn = true
  kind : b.isV = isV
  free : (s.port b.port).bind (·.op) = none

/-- The state in which an offer reports in a predicate pair, p0 meaning no report (R301). -/
def owesPair (s : State) (t : Thread) (srcs : List Src) (p : Nat) : State :=
  if p = 0 then s.taken t srcs else s.after t srcs (fun x => (x.oweReg (.p p)).oweReg (.p (p + 1)))

/-- Where an offer reports. -/
def pairOf (p : Nat) : PDest := if p = 0 then .none else .preds p

/-- A live connector of a partition that a handle names (R298). -/
def LiveCon (s : State) (part h d r : Nat) (con : Conn) : Prop := s.checkCon part h = .ok (d, r, con)

/-- A binding at which nothing is under way (R324, R336): no held record, none that waits, no awaited offer. -/
structure Quiet (b : BrimB) : Prop where
  hold : b.hold = none
  waiting : b.waiting = []
  offer : b.tlWait = false
  alive : b.dead = false

/-! ## Frames -/

/-- Nothing of the machine moved but the current slot's thread, what events are due, and an event taken from its core's queue (R25):
no byte and no full/empty bit of memory, no other thread, no request, engine, launch, partition or port. -/
structure OnlyThread (s s' : State) : Prop where
  bytes : ∀ a, s'.mem.byte a = s.mem.byte a
  fulls : ∀ a, s'.mem.fe a = s.mem.fe a
  others : ∀ k, k ≠ s.cur → s'.thread k = s.thread k
  cores : ∀ c, s'.core c = { s.core c with evq := (s'.core c).evq }
  reqs : s'.reqs = s.reqs
  clusters : s'.clusters = s.clusters
  groups : s'.groups = s.groups
  dies : s'.dies = s.dies
  parts : s'.parts = s.parts
  io : s'.io = s.io

/-- Reading a register source takes something away: a delivered item, a record, an event (R24, R25). -/
def takesAway : Src → Bool
  | .x n _ _ => 24 ≤ n
  | _ => false

/-- A thread as it was, but for its pc, the g and p registers that two predicates name, and what its sources took away. Its other
registers, FMODE, THS, the trap registers and every special register stand as they stood. -/
structure ThreadKept (t t' : Thread) (srcs : List Src) (g p : Nat → Prop) : Prop where
  rest : t' = { t with
    pc := t'.pc, g := t'.g, p := t'.p, k := t'.k, q0 := t'.q0, q1 := t'.q1, q2 := t'.q2, q2pos := t'.q2pos, q3 := t'.q3 }
  gs : ∀ m, ¬ g m → t'.gcell m = t.gcell m
  ps : ∀ m, ¬ p m → t'.pcell m = t.pcell m
  took : srcs.any takesAway = false → t' = { t with pc := t'.pc, g := t'.g, p := t'.p }

/-- Whenever the instruction executes and goes on, its frame holds; at most one result is newly owed. -/
def Frame (i : Instr) (srcs : Quals → List Src) (dst : Dst) (g p : Nat → Prop) : Prop :=
  ∀ (s s' : State) (t : Thread), Executes s t false (srcs s.q) [dst] → exec i s = .next s' →
    OnlyThread s s' ∧ (s'.owed = s.owed ∨ ∃ e, s'.owed = s.owed ++ [e] ∧ e.k = s.cur) ∧
    ∃ t', s'.thread s.cur = some t' ∧ ThreadKept t t' (srcs s.q) g p

/-- The frame of a plain load or store with its checks passed and its address a: memory as it was, every register but a load's
destination as it was, every other thread as it was; a load sends at most one request, for the n bytes at a and its place, and a
store enters at most one piece, for the n bytes at a and its place, in its core's store buffer (R99, R100). -/
def AccessFrame (i : Instr) (o : Op) (n : Nat) (loads : Bool) : Prop :=
  ∀ (s s' : State) (t : Thread) (p : Place),
    let srcs := o.sx s.q ++ o.tx s.q ++ (if loads then [] else o.dx s.q)
    let a := sumAddr s t o
    Executes s t false srcs (if loads then [.x o.dn] else []) → (loads = true → o.dn < 24) →
    (isService (coreOf s.cur) = true → regionOf a ≠ 0xF1) → s.access s.cur t a n n (if loads then .rd else .wr) (!loads) = .ok p →
    s.acquiring s.cur t = false → (loads = true → (s.cx t).movesTo p.loc = .ok () ∧ Clean s t a n p.loc ∧
      s.forward s.cur p.loc n ≠ .wait) → (loads = false → (s.core (coreOf s.cur)).sbuf.length < 16) → exec i s = .next s' →
    (∀ x, s'.mem.byte x = s.mem.byte x ∧ s'.mem.fe x = s.mem.fe x) ∧ (∀ k, k ≠ s.cur → s'.thread k = s.thread k) ∧
    (∃ t', s'.thread s.cur = some t' ∧ ThreadKept t t' srcs (fun m => loads = true ∧ m = o.dn) (fun _ => False)) ∧
    (loads = true → (s'.core (coreOf s.cur)).sbuf = (s.core (coreOf s.cur)).sbuf ∧
      (s'.reqs = s.reqs ∨ ∃ r, s'.reqs = s.reqs ++ [r] ∧ r.pieces = [⟨a, p.loc, n, 0⟩])) ∧
    (loads = false → s'.reqs = s.reqs ∧ ∃ e, (s'.core (coreOf s.cur)).sbuf = (s.core (coreOf s.cur)).sbuf ++ [e] ∧
      ∃ v, e.pieces = [⟨a, p.loc, n, v⟩])

end Sys2Proof.Claims
end

