-- ==== Sys2Proof/WellFormed.lean ====
section
/-! DEFINITION. Which instructions are well-formed: those that some encoding stands for (03_encoding R50). -/

namespace Sys2Proof

/-- An instruction is well-formed if its operands are legal for its major form (R50) and its row is the one its selector
names. An event has no encoding and is not well-formed as an instruction. -/
def Instr.wf (i : Instr) : Bool :=
  match i.body with
  | some (m, b) => legal m b && build m b == some i
  | none => false

/-- An instruction and what SRC gives it are well-formed together if the trap-if-empty bits are legal (R48) and the
canonical encoding exists: at most four halfwords before the opcode (R44, R58). -/
def wfWith (q : Quals) (i : Instr) : Bool :=
  i.wf && (match i.body with
    | some (m, b) => legalQ q b && encodable q m.row b
    | none => false)

end Sys2Proof
end

