-- ==== Sys2Proof/Certificates/Slice0/Obligations.lean ====
section
/-! DEFINITION. The statements for the provers. -/

open Sys2Proof Sys2Proof.Machine Sys2Proof.Claims

/-- R62: the page-0 arithmetic, logic, shift and move instructions write gd with the table's value, which wraps modulo 2^64;
an LEA with an immediate and a scale is no instruction. -/
def Obligations.ArithmeticWritesTableValue : Prop :=
  (∀ o : Op, Gives2 (.add o) o (fun a t => a + t) ∧ Gives2 (.sub o) o (fun a t => a - t) ∧
    Gives2 (.and o) o (fun a t => a &&& t) ∧ Gives2 (.or o) o (fun a t => a ||| t) ∧ Gives2 (.xor o) o (fun a t => a ^^^ t) ∧
    Gives2 (.andn o) o (fun a t => a &&& ~~~t) ∧ Gives2 (.shl o) o (fun a t => a <<< low6 t) ∧
    Gives2 (.shr o) o (fun a t => a >>> low6 t) ∧ Gives2 (.sar o) o (fun a t => a.sshiftRight (low6 t)) ∧
    Gives1 (.mov o) o (fun a => a) ∧ Gives2 (.lea o) o (fun a t => a + t <<< o.scale.toNat)) ∧
  (∀ o : OpI, GivesImm (.addi o) o (fun a t => a + t) ∧ GivesImm (.shli o) o (fun a t => a <<< low6 t) ∧
    GivesImm (.shri o) o (fun a t => a >>> low6 t) ∧ GivesImm (.sari o) o (fun a t => a.sshiftRight (low6 t)) ∧
    (∀ (s : State) (t : Thread), Executes s t false [] [.x o.d.toNat] →
      exec (.li o) s = s.answers t ((s.taken t []).putX (s.cx t) o.d.toNat (o.imm.signExtend 64)) ∧
      (o.d.toNat < 24 → exec (.li o) s = .next (s.after t [] (fun x => x.setG o.d.toNat (o.imm.signExtend 64)))))) ∧
  (∀ (o : Op) (v : BitVec 20), o.t = .imm v → o.scale ≠ 0 → (Instr.lea o).wf = false)

/-- R64: minimum, maximum, bit counts and reversals, rotations, field extract and insert, and the extensions.
R63: products, quotients and remainders are owed to gd; no case traps, a division by 0 and the overflowing one included. -/
def Obligations.BitMultiplyAndDivideGiveTableValue : Prop :=
  (∀ o : Op,
    Gives2 (.min o) o (fun a t => if a.toInt ≤ t.toInt then a else t) ∧
    Gives2 (.max o) o (fun a t => if t.toInt ≤ a.toInt then a else t) ∧
    Gives2 (.minu o) o (fun a t => dw (min a.toNat t.toNat)) ∧ Gives2 (.maxu o) o (fun a t => dw (max a.toNat t.toNat)) ∧
    Gives1 (.clz o) o (fun a => dw (zerosAbove a)) ∧ Gives1 (.ctz o) o (fun a => dw (zerosBelow a)) ∧
    Gives1 (.popc o) o (fun a => dw (ones a)) ∧ Gives1 (.brev o) o (fun a => ofBits (fun i => a.getLsbD (63 - i))) ∧
    Gives1 (.bswap o) o (fun a => ofBits (fun i => a.getLsbD (8 * (7 - i / 8) + i % 8))) ∧
    Gives2 (.rol o) o (fun a t => a.rotateLeft (low6 t)) ∧ Gives2 (.ror o) o (fun a t => a.rotateRight (low6 t)) ∧
    Gives2 (.ext o) o (fun a t => (a &&& fieldMask t) >>> low6 t) ∧
    (∀ (s : State) (t : Thread), Executes s t false (o.sx s.q ++ o.tx s.q ++ o.dx s.q) [.x o.dn] → o.dn < 24 →
      exec (.ins o) s = .next (s.after t (o.sx s.q ++ o.tx s.q ++ o.dx s.q) (fun x => x.setG o.dn
        ((t.gv o.dn &&& ~~~(fieldMask ((s.cx t).tval o))) |||
          (((s.cx t).sval o <<< low6 ((s.cx t).tval o)) &&& fieldMask ((s.cx t).tval o)))))) ∧
    Gives1 (.sxb o) o (fun a => (a.setWidth 8).signExtend 64) ∧ Gives1 (.sxh o) o (fun a => (a.setWidth 16).signExtend 64) ∧
    Gives1 (.sxw o) o (fun a => (a.setWidth 32).signExtend 64) ∧ Gives1 (.zxb o) o (fun a => (a.setWidth 8).setWidth 64) ∧
    Gives1 (.zxh o) o (fun a => (a.setWidth 16).setWidth 64) ∧ Gives1 (.zxw o) o (fun a => (a.setWidth 32).setWidth 64)) ∧
  (∀ o : Op, Owes2 (.mul o) o (fun a t => a * t) ∧ Owes2 (.mulh o) o (fun a t => BitVec.ofInt 64 (a.toInt * t.toInt / 2 ^ 64)) ∧
    Owes2 (.mulhu o) o (fun a t => dw (a.toNat * t.toNat / 2 ^ 64)) ∧ Owes2 (.div o) o (quotient true) ∧
    Owes2 (.divu o) o (quotient false) ∧ Owes2 (.rem o) o (remainder true) ∧ Owes2 (.remu o) o (remainder false))

/-- R65, R67: compares write pd with the relation, signed for CMPLT and CMPGE; the predicate instructions write pd; the whole-word
forms move p1 to p31 and read bit 0 as 1.
R66: SEL is never predicated off: its SRC predicate selects between gs and T, both of which are read. -/
def Obligations.ComparesPredicatesAndSelect : Prop :=
  ((∀ o : Op, Compares (.cmpeq o) o (fun a t => a == t) ∧ Compares (.cmpne o) o (fun a t => a != t) ∧
    Compares (.cmplt o) o (fun a t => a.toInt < t.toInt) ∧ Compares (.cmpltu o) o (fun a t => a.toNat < t.toNat) ∧
    Compares (.cmpge o) o (fun a t => t.toInt ≤ a.toInt) ∧ Compares (.cmpgeu o) o (fun a t => t.toNat ≤ a.toNat) ∧
    Predicates (.pand o) o (fun a b => a && b) ∧ Predicates (.por o) o (fun a b => a || b) ∧
    Predicates (.pxor o) o (fun a b => xor a b) ∧ Predicates (.pnot o) o (fun a _ => !a)) ∧
  (∀ (o : Op) (s : State) (t : Thread),
    let srcs := if o.sn = 0 then (List.range' 1 31).map (fun i => .p i 0 s.q.ts) else [.p o.sn 0 s.q.ts]
    let v := if o.sn = 0 then ofBits (fun i => i < 32 && t.pv i) else if t.pv o.sn then 1 else 0
    Executes s t false srcs [.x o.dn] →
    exec (.pmovg o) s = s.answers t ((s.taken t srcs).putX (s.cx t) o.dn v) ∧
    (o.dn < 24 → exec (.pmovg o) s = .next (s.after t srcs (fun x => x.setG o.dn v)))) ∧
  (∀ (o : Op) (s : State) (t : Thread), o.dn ≠ 0 → Executes s t false (o.sx s.q) [.p o.dn] →
    exec (.pmovp o) s = .next (s.after t (o.sx s.q) (fun x => x.setP o.dn ((s.cx t).sval o != 0)))) ∧
  (∀ (o : Op) (s : State) (t : Thread), o.dn = 0 → Executes s t false (o.sx s.q) ((List.range' 1 31).map .p) →
    ∃ s' t', exec (.pmovp o) s = .next s' ∧ s'.thread s.cur = some t' ∧ t'.pc = s.npc t ∧ t'.g = t.g ∧
      ∀ n, n < 32 → t'.pv n = (n == 0 || ((s.cx t).sval o).getLsbD n) ∧ t'.isFull (.p n) = true)) ∧
  (∀ (x : Thread) (b : Bool), x.setP 0 b = x) ∧
  (∀ (o : Op) (s : State) (t : Thread), Issues s t false (o.sx s.q ++ o.tx s.q) [.x o.dn] →
    let v := if xor (t.pv s.q.pred.toNat) s.q.inv then (s.cx t).sval o else (s.cx t).tval o
    exec (.sel o) s = s.answers t ((s.taken t (o.sx s.q ++ o.tx s.q)).putX (s.cx t) o.dn v) ∧
    (o.dn < 24 → exec (.sel o) s = .next (s.after t (o.sx s.q ++ o.tx s.q) (fun x => x.setG o.dn v))))

/-- R23 to R25, R33, R276: what delivering a value to a destination does, kind by kind: a g register holds it, full; a k register
offers it with PMETA at its port, where the operation stands from issue and the offer leaves four cycles on; a q register appends it to its engine's operand FIFO, and completes no command before its last
doubleword; msg appends it, and the message leaves once it is whole.
R23, R71, R276: an owed result is written to its register, which is full and owed nothing from then on, and its flags are ORed
into FMODE; nothing else of the thread or of memory changes; an owed offer leaves with its value, the clock of that cycle, and the meta it was given at issue (log 118). -/
def Obligations.ResultsReachTheirDestinations : Prop :=
  (∀ (s s1 : State) (t : Thread) (n : Nat) (v : DW), s1.thread s.cur = some t →
    (n < 24 → s1.putX (s.cx t) n v = .ok (s1.modT s.cur (fun x => x.setG n v))) ∧
    (isK n = true → ∀ b y, t.kb (kIndex n) = some b → s1.port b.port = some y →
      ∃ s2 o, s1.putX (s.cx t) n v = .ok s2 ∧ s2.port b.port = some { y with op := some o } ∧ o.id = s1.nextId ∧
        o.act = .offer ⟨v.setWidth 512, t.pmeta⟩ false ∧ o.dest = .none ∧ o.sent = false ∧ o.fin = none ∧ s2.agenda = s1.agenda ∧
        s2.owed = s1.owed ++ [⟨o.id + 1, s.cur, [], some (.kreg (kIndex n), v), 0, false, false, none⟩] ∧
        (s1.cycle + 4, ⟨.owedResultWrite, .n1 (o.id + 1)⟩) ∈ s2.timers ∧ s2.threads = s1.threads) ∧
    (isQdst n = true → ∀ code, t.qcode n = code → 1 ≤ code → code ≤ 4 →
      let l := t.fifo.toList.getD (code - 1) []
      (code = 1 ∨ code = 3 → l.length ≠ 2) → (code = 4 → l.length ≠ 1) →
      ∃ s2 t2, s1.putX (s.cx t) n v = .ok s2 ∧ s2.thread s.cur = some t2 ∧ t2 = { t with fifo := t2.fifo } ∧
        t2.fifo.toList.getD (code - 1) [] = l ++ [v] ∧
        ∀ c, c ≠ code - 1 → t2.fifo.toList.getD c [] = t.fifo.toList.getD c []) ∧
    (24 ≤ n → isK n = false → isQdst n = false →
      let core := s1.core (coreOf s.cur)
      let l := core.msgOut ++ [v]
      ∃ s2, s1.putX (s.cx t) n v = .ok s2 ∧ s2.threads = s1.threads ∧
        (l.length < 1 + bits (l.headD 0).toNat 51 48 → s2.agenda = s1.agenda ∧ s2.core (coreOf s.cur) =
          { core with msgOut := l, msgBusy := false }) ∧
        (1 + bits (l.headD 0).toNat 51 48 ≤ l.length → ∀ e ∈ [(1, Instr.mapMessage), (2, .declineMessage), (3, .wakeMessage),
            (4, .serviceResponse)], bits (l.headD 0).toNat 63 56 = e.1 →
          s2.agenda = s1.agenda ++ [⟨e.2, .n1 (coreOf s.cur)⟩] ∧ s2.core (coreOf s.cur) =
            { core with msgOut := l, msgBusy := true }))) ∧
  (∀ (s : State) (o : Owed) (t : Thread), s.arg = .n1 o.id → s.owed.find? (fun x => x.id == o.id) = some o →
    s.thread o.k = some t → o.adj = none →
    (∀ d v, o.writes = [(.g d, v)] → o.out = none → d < 24 →
      ∃ s', exec .owedResultWrite s = .next s' ∧ s'.mem = s.mem ∧ (∀ x ∈ s'.owed, x.id ≠ o.id) ∧
        s'.thread o.k = some ((t.orFlags o.flags).setG d (v.setWidth 64))) ∧
    (∀ d v, o.writes = [(.v d, v)] → o.out = none → d < 8 →
      ∃ s', exec .owedResultWrite s = .next s' ∧ s'.mem = s.mem ∧ (∀ x ∈ s'.owed, x.id ≠ o.id) ∧
        s'.thread o.k = some ((t.orFlags o.flags).setV d v)) ∧
    (∀ n v b y op x once, o.writes = [] → o.out = some (.kreg n, v) → t.kb n = some b → s.port b.port = some y → y.op = some op →
      op.id + 1 = o.id → op.fin = none → op.act = .offer x once →
      ∃ s' c, exec .owedResultWrite s = .next s' ∧ s'.mem = s.mem ∧ s'.thread o.k = some (t.orFlags o.flags) ∧
        s.conn b.port.die b.port.con = some c ∧ s'.port b.port = some { y with op := some { op with
          act := .offer ⟨v.setWidth 512, x.tag⟩ once, sent := c.running, clk := s.clockOf (dieOfCore (coreOf o.k)) } } ∧
        (c.running = true → ⟨.portRequestArrival, .port b.port⟩ ∈ s'.agenda)))

/-- R73: FADD, FSUB, FMUL, FDIV, FSQRT and FMA owe gd the exact result rounded once.
R74, R75, R76: compares with NV for a NaN (FCMPEQ for a signalling one only), minimum and maximum with the operand that is a
number, conversions by code, and the class bit. -/
def Obligations.ScalarFloatInstructions : Prop :=
  (∀ o : Op,
    OwesRounded (.fadd o) o (fun q => o.sx q ++ o.tx q) (fun md a b _ => a.add md b) ∧
    OwesRounded (.fsub o) o (fun q => o.sx q ++ o.tx q) (fun md a b _ => a.add md b.neg) ∧
    OwesRounded (.fmul o) o (fun q => o.sx q ++ o.tx q) (fun _ a b _ => a.mul b) ∧
    OwesRounded (.fdiv o) o (fun q => o.sx q ++ o.tx q) (fun _ a b _ => a.div b) ∧
    OwesRounded (.fsqrt o) o (fun q => o.sx q ++ o.tx q) (fun _ a _ _ => a.sqrt) ∧
    OwesRounded (.fma o) o (fun q => o.sx q ++ o.tx q ++ o.dx q)
      (fun md a b d => (((a.mul b).1.add md d).1, (a.mul b).2 ||| ((a.mul b).1.add md d).2))) ∧
  ((∀ o : Op,
    ComparesFp (.fcmpeq o) o (fun a b => (a.eq b, a.isSnan || b.isSnan)) ∧
    ComparesFp (.fcmplt o) o (fun a b => (a.lt b, a.isNan || b.isNan)) ∧
    ComparesFp (.fcmple o) o (fun a b => (a.lt b || a.eq b, a.isNan || b.isNan))) ∧
  (∀ (o : Op) (s : State) (t : Thread), Executes s t false (o.sx s.q ++ o.tx s.q) [.x o.dn] → o.dn < 24 →
    let a := (s.cx t).sval o
    let b := (s.cx t).tval o
    let x := fpVal o a
    let y := fpVal o b
    let w (z : DW) : DW := dw (z.toNat % 2 ^ (opFmt o).w)
    let fl := if x.isSnan || y.isSnan then flagNV else 0
    let pick (less : Bool) : DW :=
      if x.isNan && y.isNan then dw (opFmt o).nanBits else if x.isNan then w b else if y.isNan then w a
      else if less then w a else w b
    let below := x.lt y || (x.eq y && x.signBit && !y.signBit)
    exec (.fmin o) s = .next (s.after t (o.sx s.q ++ o.tx s.q) (fun z => (z.orFlags fl).setG o.dn (pick below))) ∧
    exec (.fmax o) s = .next (s.after t (o.sx s.q ++ o.tx s.q) (fun z => (z.orFlags fl).setG o.dn (pick (!below))))) ∧
  (∀ (o : Op) (s : State) (t : Thread), Executes s t false (o.sx s.q) [.x o.dn] → o.dn < 24 →
    let code := ((s.cx t).tvalZ o).toNat
    let ty := numTy (bits code 7 4)
    let r := ty.encode (t.mode o.rnd.toNat) (t.satF8 && ty.narrow) ((numTy (bits code 3 0)).decode ((s.cx t).sval o).toNat)
    exec (.fcvt o) s = .next ((s.taken t (o.sx s.q)).owe s.cur [(.g o.dn, (ty.widen r.1).setWidth 512)] none r.2 true false)) ∧
  (∀ (o : Op), Gives1 (.fclass o) o (fun a => dw (2 ^ fclassBit (opFmt o) a.toNat))))

/-- R55, R173: a magnitude m / 2^sh rounded in each mode: toward zero it is the integer part; up, down and to nearest it is one of
the two neighbours, the nearest one, and a tie goes to the even neighbour or away from zero; it is inexact just when a bit is lost.
R171, R172: a value that a format holds is not changed by rounding to that format, in any mode, and sets no flag. -/
def Obligations.RoundingPicksTheNeighbourOfItsMode : Prop :=
  (∀ (neg : Bool) (m sh : Nat),
    let r (md : RMode) := (roundShift md neg m sh).1
    (∀ md, (roundShift md neg m sh).2 = true ↔ m % 2 ^ sh ≠ 0) ∧
    (∀ md, m % 2 ^ sh = 0 → r md * 2 ^ sh = m) ∧
    (∀ md, r md = m / 2 ^ sh ∨ r md = m / 2 ^ sh + 1) ∧
    r .rtz = m / 2 ^ sh ∧
    (m % 2 ^ sh ≠ 0 → r .rup = m / 2 ^ sh + (if neg then 0 else 1) ∧ r .rdn = m / 2 ^ sh + (if neg then 1 else 0)) ∧
    (2 * (m % 2 ^ sh) < 2 ^ sh → r .rne = m / 2 ^ sh ∧ r .rna = m / 2 ^ sh) ∧
    (2 ^ sh < 2 * (m % 2 ^ sh) → r .rne = m / 2 ^ sh + 1 ∧ r .rna = m / 2 ^ sh + 1) ∧
    (2 * (m % 2 ^ sh) = 2 ^ sh → r .rne % 2 = 0 ∧ r .rna = m / 2 ^ sh + 1)) ∧
  (∀ f ∈ [fmt16, fmtB16, fmt32, fmt64, fmtE4M3, fmtE5M2], ∀ (md : RMode) (sat : Bool) (x : Nat), x < 2 ^ f.w →
    (∃ neg m e, f.decode x = .fin neg m e) → roundTo f md sat (f.decode x) = (x, 0))

/-- R68, R69: where each branch, jump and call leads, and the link register g23. -/
def Obligations.BranchesJumpsAndCallsSetThePc : Prop :=
  (∀ (o : OpI) (s : State) (t : Thread), Executes s t false [] [] →
    exec (.br o) s = .next (leadsTo s t [] (ahead t o) id)) ∧
  (∀ (o : OpI) (s : State) (t : Thread), Executes s t false [.p o.d.toNat 2 s.q.td] [] →
    exec (.brp o) s = .next (leadsTo s t [.p o.d.toNat 2 s.q.td] (if t.pv o.d.toNat then ahead t o else s.npc t) id) ∧
    exec (.brn o) s = .next (leadsTo s t [.p o.d.toNat 2 s.q.td] (if t.pv o.d.toNat then s.npc t else ahead t o) id)) ∧
  (∀ (o : Op) (s : State) (t : Thread), Executes s t false (o.sx s.q ++ o.tx s.q) [] →
    exec (.jmp o) s = .next (leadsTo s t (o.sx s.q ++ o.tx s.q) (target ((s.cx t).sval o + (s.cx t).tval o)) id)) ∧
  (∀ (o : OpI) (s : State) (t : Thread), Executes s t false [] [.x 23] →
    exec (.call o) s = .next (leadsTo s t [] (ahead t o) (fun x => x.setG 23 ((s.npc t).setWidth 64)))) ∧
  (∀ (o : Op) (s : State) (t : Thread), Executes s t false (o.sx s.q ++ o.tx s.q) [.x 23] →
    exec (.callr o) s = .next (leadsTo s t (o.sx s.q ++ o.tx s.q) (target ((s.cx t).sval o + (s.cx t).tval o))
      (fun x => x.setG 23 ((s.npc t).setWidth 64)))) ∧
  (∀ (s : State) (t : Thread), Executes s t false [.x 23 0 s.q.ts] [] →
    exec .ret s = .next (leadsTo s t [.x 23 0 s.q.ts] (target (t.gv 23)) id)) ∧
  (∀ (s : State) (t : Thread), Executes s t false [] [] → exec .nop s = .next (leadsTo s t [] (s.npc t) id)) ∧
  (∀ (o : OpI) (s : State) (t : Thread), Executes s t false [.x o.d.toNat 2 s.q.td] [.x o.d.toNat] → o.d.toNat < 24 →
    exec (.loop o) s = .next (leadsTo s t [.x o.d.toNat 2 s.q.td] (if t.gv o.d.toNat = 1 then s.npc t else ahead t o)
      (fun x => x.setG o.d.toNat (t.gv o.d.toNat - 1))))

/-- R70, R71: MOVS of every special register writes gd with its value; an FMODE read while a result that can set flags is owed
parks, and a number that no rule assigns traps.
R70, R2, R28 to R32: MOVSW writes the named register's writable fields; DOMAIN is written from service cores only; a clear of
VLIVE waits for results owed to v registers (R207). -/
def Obligations.SpecialRegistersAreReadAndWritten : Prop :=
  (∀ (o : OpI) (s : State) (t : Thread), Executes s t false [] [.x o.d.toNat] → o.d.toNat < 24 →
    (o.imm.toNat ≤ 18 → (o.imm.toNat = 4 → flagsOwed s = false) →
      exec (.movs o) s = .next (s.after t [] (fun x => x.setG o.d.toNat (specialValue s t o.imm.toNat)))) ∧
    (o.imm.toNat = 4 → flagsOwed s = true → exec (.movs o) s = .next (s.parkThread s.cur .owedFlags false)) ∧
    (18 < o.imm.toNat → exec (.movs o) s = .next (s.takeTrap s.cur causeILLEGAL 0 0))) ∧
  (∀ (o : OpI) (s : State) (t : Thread), Executes s t false [.x o.d.toNat 2 s.q.td] [] → o.d.toNat < 24 →
    let v := t.gv o.d.toNat
    (o.imm.toNat ≤ 18 → (o.imm.toNat = 3 → isService (coreOf s.cur) = true) → (o.imm.toNat = 4 → flagsOwed s = false) →
      (o.imm.toNat = 0 → v.getLsbD 11 = false → t.owesV = false) →
      ∃ s' t', exec (.movsw o) s = .next s' ∧ s'.thread s.cur = some t' ∧
        writesThread o.imm.toNat v { t with pc := s.npc t } t' ∧
        s'.core (coreOf s.cur) = writesCore o.imm.toNat v (s.core (coreOf s.cur)) ∧
        s'.mem = s.mem ∧ s'.owed = s.owed ∧ s'.reqs = s.reqs ∧ (∀ k, k ≠ s.cur → s'.thread k = s.thread k)) ∧
    (18 < o.imm.toNat ∨ (o.imm.toNat = 3 ∧ isService (coreOf s.cur) = false) →
      exec (.movsw o) s = .next (s.takeTrap s.cur causeILLEGAL 0 0)))

/-- R114, R116, R100, R102, R115: the plain loads.
R117, R100: the plain stores.
R127: the atomics; FENCE's scopes serve them.
R119, R120: the synchronising accesses as they issue.
R122 to R124: SETE, PROBE, LDA, STRL and STP as they issue: each sends one request, PROBE and LDA owe their destination, and STP
fills the lowest FREE journal entry.
R97, R103 to R105: what sending a request does: it is the newest request, carries the issuing slot, thread, launch, partition,
domain, die clock and addresses, owes its register, and is due at its home's event in the next cycle. -/
def Obligations.MemoryInstructionsIssue : Prop :=
  ((∀ o : Op, o.dn < 24 → Loads (.ldb o) o 1 true ∧ Loads (.ldbu o) o 1 false ∧ Loads (.ldh o) o 2 true ∧ Loads (.ldhu o) o 2 false ∧
    Loads (.ldw o) o 4 true ∧ Loads (.ldwu o) o 4 false ∧ Loads (.ldd o) o 8 false) ∧
  (∀ o : Op, Stores (.stb o) o 1 ∧ Stores (.sth o) o 2 ∧ Stores (.stw o) o 4 ∧ Stores (.std o) o 8) ∧
  (∀ o : Op, o.dn < 24 → Atomic (.aadd o) o .add ∧ Atomic (.aand o) o .and ∧ Atomic (.aor o) o .or ∧ Atomic (.axor o) o .xor ∧
    Atomic (.amin o) o .min ∧ Atomic (.amax o) o .max ∧ Atomic (.aminu o) o .minu ∧ Atomic (.amaxu o) o .maxu ∧
    Atomic (.aswap o) o .swap ∧ Atomic (.acas o) o .cas) ∧
  (∀ o : Op, o.dn < 24 → Synchronises (.ldfe o) o .ldfe ∧ Synchronises (.ldff o) o .ldff ∧ Synchronises (.stef o) o .stef ∧
    Synchronises (.stff o) o .stff) ∧
  (∀ (o : Op) (s : State) (t : Thread) (p : Place),
    let va := sumAddr s t o
    let two := o.sx s.q ++ o.tx s.q
    let three := two ++ o.dx s.q
    let gd := (s.cx t).dval o
    (Executes s t false two [] → s.access s.cur t va 8 8 .wr false = .ok p → s.acquiring s.cur t = false →
      exec (.sete o) s = .next (((s.taken t two).claimFor (s.cx t) p).request (s.cx t) .sete [⟨va, p.loc, 8, 0⟩]
        (some (scope o .cluster)) none)) ∧
    (Executes s t false two [.p o.dn] → s.access s.cur t va 8 8 .rd false = .ok p → s.acquiring s.cur t = false →
      exec (.probe o) s = .next (((s.taken t two).claimFor (s.cx t) p).request (s.cx t) (.probe o.dn) [⟨va, p.loc, 8, 0⟩]
        none (some (.p o.dn)))) ∧
    (Executes s t false two [.x o.dn] → o.dn < 24 → Reaches s t va 8 8 .rd false p → Clean s t va 8 p.loc →
      let s1 := (s.taken t two).claimFor (s.cx t) p
      let kind : ReqKind := .load o.dn 8 false true
      let ps : List Piece := [⟨va, p.loc, 8, 0⟩]
      (s.forward s.cur p.loc 8 ≠ .none ∨ s1.lastOwn t ps ≠ 0 ∨ s1.cacheHit (s.cx t) va p.loc 8 = none →
        exec (.lda o) s = .next (s1.request (s.cx t) kind ps none (some (.g o.dn)))) ∧
      (∀ v, s.forward s.cur p.loc 8 = .none → s1.lastOwn t ps = 0 → s1.cacheHit (s.cx t) va p.loc 8 = some v →
        exec (.lda o) s = .next ((s1.answered (s.cx t) kind ps (.g o.dn) v).dUse (coreOf s.cur) t.domN va))) ∧
    (Executes s t false three [] → s.access s.cur t va 8 8 .wr true = .ok p → s.acquiring s.cur t = false →
      (p.refuse = none → exec (.strl o) s = .next (((s.taken t three).claimFor (s.cx t) p).request (s.cx t) .strl
        [⟨va, p.loc, 8, gd.setWidth 512⟩] (some (scope o .die)) none)) ∧
      (∀ cause, p.refuse = some cause → exec (.strl o) s = .next (((s.taken t three).claimFor (s.cx t) p).push .storeRefusal
        (.val t.tid cause (dw va)))) ∧
      (∀ j < 64, (∀ i < 64, (mget (s.core (coreOf s.cur)).journal i).isNone = true → j ≤ i) →
        mget (s.core (coreOf s.cur)).journal j = none →
        ∃ s' e, exec (.stp o) s = .next s' ∧ mget (s'.core (coreOf s.cur)).journal j = some e ∧
          e.st = .pending ∧ e.tid = t.tid ∧ e.part = t.partN ∧ e.launch = t.launchid ∧ e.a = addr va ∧ e.data = gd ∧
          s'.mem = s.mem ∧ s'.thread s.cur = (s.taken t three).thread s.cur ∧
          (p.refuse = none → ∃ r, s'.reqs = s.reqs ++ [r] ∧ r.kind = .stp j ∧ r.pieces = [⟨va, p.loc, 8, gd.setWidth 512⟩]) ∧
          (∀ cause, p.refuse = some cause → s'.reqs = s.reqs ∧
            s'.agenda = s.agenda ++ [⟨.journalRefusal, .n3 (coreOf s.cur) j cause⟩]))))) ∧
  (∀ (s s1 : State) (t : Thread) (kind : ReqKind) (ps : List Piece) (rel : Option Scope) (dest : Option RegRef),
    s1.thread s.cur = some t →
    ∃ s2 r t2, s1.request (s.cx t) kind ps rel dest = s2 ∧ s2.reqs = s1.reqs ++ [r] ∧ s2.thread s.cur = some t2 ∧
      r.id = s1.nextId ∧ s2.nextId = s1.nextId + 1 ∧ r.k = s.cur ∧ r.tid = t.tid ∧ r.launch = t.launchid ∧ r.part = t.partN ∧
      r.dom = t.domN ∧ r.kind = kind ∧ r.pieces = ps ∧ r.rel = rel ∧ r.clk = s1.clockOf (dieOfCore (coreOf s.cur)) ∧
      r.ipc = t.pc ∧ r.npc = s.npc t ∧ r.left = false ∧ r.out = false ∧ r.here = false ∧ r.waiting = false ∧ r.miss = none ∧
      r.fin = none ∧
      (s1.cycle + 1, ⟨kind.event, .n1 r.id⟩) ∈ s2.timers ∧ s2.mem = s1.mem ∧
      (dest = none → t2 = t) ∧
      (∀ d, dest = some (.g d) → d < 24 → t2.isOwed (.g d) = true ∧ t2.isFull (.g d) = false ∧ ∀ m, m ≠ d → t2.gcell m = t.gcell m))

/-- R125: LDM and STM that reach every word: LDM sends or forwards one load for each register, ascending; STM enters one store for
each; PROG ends at 0. -/
def Obligations.MultiRegisterTransfersMoveEveryWord : Prop :=
  ∀ (o : Op) (s : State) (t : Thread) (locs : List Nat),
    let two := o.sx s.q ++ o.tx s.q
    let a := baseAddr s t o
    let n := ((s.cx t).tval o).toNat
    let va (i : Nat) := (a + 8 * i) % 2 ^ 56
    Executes s t false two [] → t.prog = 0 → 0 < n → o.dn + n ≤ 24 → locs.length = n → s.acquiring s.cur t = false →
    (∀ i (h : i < locs.length), s.mem.badWord locs[i] 8 = none) →
    ((∀ i (h : i < locs.length), s.access s.cur t (va i) 8 8 .rd false = .ok ⟨va i, locs[i], none⟩ ∧
        s.access s.cur t (va i) 8 1 .rd false = .ok ⟨va i, locs[i], none⟩ ∧ (s.cx t).posting (va i) 8 = false ∧
        s.forward s.cur locs[i] 8 = .none) →
      (∀ i < n, t.isOwed (.g (o.dn + i)) = false) → ¬ (o.dn ≤ o.sn ∧ o.sn < o.dn + n) →
      ∃ s' t' rs, exec (.ldm o) s = .next s' ∧ s'.thread s.cur = some t' ∧ s'.reqs = s.reqs ++ rs ∧ rs.length = n ∧
        (∀ i (h : i < rs.length), rs[i].kind = .ldm (o.dn + i) i n ∧ rs[i].pieces.map (fun p => (p.va, p.loc, p.n)) = [(va i, locs[i]!, 8)]) ∧
        (∀ i < n, t'.isOwed (.g (o.dn + i)) = true) ∧ (∀ m, ¬ (o.dn ≤ m ∧ m < o.dn + n) → t'.gcell m = t.gcell m) ∧
        t'.prog = 0 ∧ t'.pc = s.npc t ∧ s'.mem = s.mem) ∧
    ((∀ i (h : i < locs.length), s.access s.cur t (va i) 8 8 .wr true = .ok ⟨va i, locs[i], none⟩ ∧
        s.access s.cur t (va i) 8 1 .wr true = .ok ⟨va i, locs[i], none⟩) →
      (∀ i < n, t.isFull (.g (o.dn + i)) = true) → (s.core (coreOf s.cur)).sbuf.length + n ≤ 16 →
      ∃ s' t' es, exec (.stm o) s = .next s' ∧ s'.thread s.cur = some t' ∧ t'.g = t.g ∧ t'.prog = 0 ∧ t'.pc = s.npc t ∧
        (s'.core (coreOf s.cur)).sbuf = (s.core (coreOf s.cur)).sbuf ++ es ∧ es.length = n ∧ s'.mem = s.mem ∧
        ∀ i (h : i < es.length), es[i].pieces = [⟨va i, locs[i]!, 8, (t.gv (o.dn + i)).setWidth 512⟩] ∧ es[i].bad = none)

/-- R129 to R132, R138 to R140: FENCE completes once its conditions hold, else parks; WATCH arms the slot's one watch in place of an
earlier one; WAIT takes the wake; UIEN sets THS.UIE; UIRET restores the shadow set. -/
def Obligations.FencesWatchesAndUserHandlerReturn : Prop :=
  (∀ (o : Op) (s : State) (t : Thread), Executes s t false [] [] →
    let sc := scope o .die
    (s.releasedNow s.cur t sc = true → s.acquiring s.cur t = false →
      ∃ s', exec (.fence o) s = .next s' ∧ s'.thread s.cur = (s.taken t []).thread s.cur ∧ s'.mem = s.mem ∧ s'.reqs = s.reqs ∧
        (sc ≠ .thread → (s'.core (coreOf s.cur)).icache = [])) ∧
    (s.releasedNow s.cur t sc = false ∨ s.acquiring s.cur t = true → exec (.fence o) s = .next (s.parkThread s.cur (.release sc) false))) ∧
  (∀ (o : Op) (s : State) (t : Thread) (p : Place),
    let srcs := o.sx s.q ++ o.tx s.q ++ o.dx s.q
    let va := baseAddr s t o
    let rel := ((s.cx t).tval o).toNat
    Executes s t false srcs [] → s.access s.cur t va 8 8 .rd false = .ok p → s.acquiring s.cur t = false →
    (6 < rel → exec (.watch o) s = .next (s.takeTrap s.cur causeBADOPND 0 0)) ∧
    (rel ≤ 6 → ∃ s' t' r, exec (.watch o) s = .next s' ∧ s'.thread s.cur = some t' ∧ t'.watch = .armed r.id (addr va) ∧
      r ∈ s'.reqs ∧ r.kind = .watch rel ((s.cx t).dval o) ∧ r.pieces = [⟨va, p.loc, 8, 0⟩] ∧ r.tid = t.tid ∧ t'.g = t.g ∧
      s'.mem = s.mem ∧ (∀ q ∈ s'.reqs, q.tid = t.tid → (∃ a b, q.kind = .watch a b) → q = r) ∧
      (∀ c, ∀ w ∈ (s'.cluster c).watches, w.tid ≠ t.tid))) ∧
  (∀ (o : Op) (s : State) (t : Thread), Executes s t false [] [.x o.dn] → o.dn < 24 →
    (∀ v, t.watch = .wake v → exec (.wait o) s = .next (s.after t [] (fun x => { x.setG o.dn v with watch := .none }))) ∧
    (∀ i a, t.watch = .armed i a → exec (.wait o) s = .next (s.parkThread s.cur .watch true)) ∧
    (t.watch = .none → exec (.wait o) s = .next (s.takeTrap s.cur causeNOWATCH 0 0)) ∧
    (∀ a, t.watch = .refused a →
      exec (.wait o) s = .next ((s.modT s.cur (fun x => { x with watch := .none })).takeTrap s.cur causeWATCHFULL a.toNat 0))) ∧
  (∀ (o : Op) (s : State) (t : Thread), Executes s t false (o.sx s.q) [] →
    let on := ((s.cx t).sval o).getLsbD 0
    (on = true → t.uivec ≠ 0) →
      exec (.uien o) s = .next (s.after t (o.sx s.q) (fun x => x.setThs 13 on))) ∧
  (∀ (s : State) (t : Thread), Executes s t false [] [] →
    (t.thsBit 14 = false → exec .uiret s = .next (s.takeTrap s.cur causeILLEGAL 0 0)) ∧
    (t.thsBit 14 = true → t.owesFrame = false →
      ∃ s' t', exec .uiret s = .next s' ∧ s'.thread s.cur = some t' ∧ t'.pc = t.shadow.pc ∧ t'.thsBit 14 = false ∧
        (∀ n, 0 < n → n < 32 → t'.pv n = ((t.shadow.p.toList.getD n (RegCell.zero 1)).val == 1) ∧
          (t'.pcell n).full = (t.shadow.p.toList.getD n (RegCell.zero 1)).full) ∧
        (∀ i < 4, (t'.gcell (20 + i)).val = (t.shadow.g.toList.getD i (RegCell.zero 64)).val ∧
          (t'.gcell (20 + i)).full = (t.shadow.g.toList.getD i (RegCell.zero 64)).full) ∧
        (∀ n < 20, t'.gcell n = t.gcell n) ∧ t'.v = t.v ∧ t'.fmode = t.fmode ∧ s'.mem = s.mem))

/-- R41, R344: a line that a fetch asked for is read at its home as memory holds it, and put into the core's instruction cache with
the answer; a PLB fill puts the covering entry first in the core's PLB, in place of the one used least recently.
R105, R106: a packet that leaves its die carries the die's clock, a write's packet with the die's own count moved on; one that comes out
of the package switch raises the receiving die's clock to the larger of the two, counter by counter, and what it knows of the
sender; a probe is answered at once with a packet.
R130, R131, R91, R92: arming a watch fires it at once where the relation holds, else enters it in the home's table of 256, else
refuses it; the wake it sends is held for WAIT; a way change-over, once no copy writes there and the dirty lines of ways leaving the
cache are written back, gives every changed way its new role, zero and empty. -/
def Obligations.FillsClocksWatchesAndWays : Prop :=
  ((∀ (s : State) (r : Req) (p : Piece) (va : Addr), Performs s r.id r → r.pieces = [p] → p.n = 32 → r.kind = .fetch va →
    ∃ s', exec .instructionFill s = .next s' ∧ s'.mem = s.mem ∧
      Answered s s' r.id (.ok (BitVec.ofNat 512 (s.mem.readN p.loc 32)) 0)) ∧
  (∀ (s : State) (k : Key) (t : Thread) (r : Req) (va : Addr) (x : Ret), Arrives s r.id r x → x.trap = none → r.kind = .fetch va →
    InSlot s k t r.tid →
    ∃ s' t', exec .loadReturn s = .next s' ∧ s'.iLine (coreOf r.k) r.dom va.toNat = some (x.v.setWidth 256) ∧ s'.mem = s.mem ∧
      (∀ q ∈ s'.reqs, q.id ≠ r.id) ∧ s'.thread k = some t' ∧
      t' = { t with run := t'.run, readyAt := t'.readyAt } ∧ (t.run = .parked (.fill (va.toNat / 32)) → t'.run = .ready)) ∧
  (∀ (s : State) (k dom n : Nat) (va : DW) (r : Range), dom < 4096 → s.arg = .val (k * 4096 + dom) n va → s.rangeOf dom va.toNat n = some r →
    ∃ s', exec .plbFill s = .next s' ∧ s'.mem = s.mem ∧ s'.threads = s.threads ∧
      (s'.core (coreOf k)).plb = r :: ((s.core (coreOf k)).plb.filter (· != r)).take (Config.plbEntries - 1))) ∧
  ((∀ (s : State) (d j : Nat) (c : List Nat), d < 8 → j < 8 →
    (∀ i, i < (s.die d).clk.length → i < c.length →
      ((s.heard d j c).die d).clk.getD i 0 = max ((s.die d).clk.getD i 0) (c.getD i 0)) ∧
    (j < (s.die d).known.length → ((s.heard d j c).die d).known.getD j 0 = max ((s.die d).known.getD j 0) (c.getD j 0)) ∧
    (∀ x, x ≠ d → (s.heard d j c).die x = s.die x)) ∧
  (∀ (s : State) (o : Nat) (p : Packet) (h : Hop) (l : List Hop), s.canSend o = true →
    s.fabric.filter (fun x => x.waitsAt o s.cycle) = [p] → p.hops = h :: l → packageOut o = true → p.leaves = none →
    (s.moveOut o).dies = (s.heard (o / 2) (h.inp % 32) p.clk).dies ∧ (s.moveOut o).mem = s.mem ∧
    ∃ x ∈ (s.moveOut o).fabric, x.ev = p.ev ∧ x.hops = l ∧ x.came = s.cycle + p.flits * 16 / (s.fabricLink (o / 2)).width) ∧
  (∀ (s : State) (p : Packet) (d : Nat), p.leaves = some d → d < 8 →
    (p.writes = true → (s.depart p).1.clk = ((s.depart p).2.die d).clk ∧
      ((s.depart p).2.die d).clk = (s.die d).clk.set d ((s.die d).clk.getD d 0 + 1)) ∧
    (p.writes = false → (s.depart p).1.clk = (s.die d).clk ∧ (s.depart p).2.dies = s.dies)) ∧
  (∀ s : State, exec .clockPacketArrival s = .next s) ∧
  (∀ (s : State) (h j : Nat), s.arg = .n2 h j →
    ∃ s' x, exec .clockProbe s = .next s' ∧ s'.fabric = s.fabric ++ [x] ∧ x.ev = ⟨.clockPacketArrival, .n2 h j⟩ ∧
      x.hops = s.avoid (route 0 (diePath j) (diePath h)) ∧ x.flits = 1 ∧ s'.mem = s.mem ∧ s'.dies = s.dies)) ∧
  ((∀ (s : State) (r : Req) (p : Piece) (rel : Nat) (cmp : DW), Performs s r.id r → r.pieces = [p] → r.kind = .watch rel cmp → rel ≤ 6 →
    let x := s.mem.word p.loc
    let holds : Bool := match rel with
      | 0 => x == cmp
      | 1 => x != cmp
      | 2 => x.toInt < cmp.toInt
      | 3 => cmp.toInt ≤ x.toInt
      | 4 => x.toNat < cmp.toNat
      | 5 => cmp.toNat ≤ x.toNat
      | _ => false
    ∃ s', exec .watchArmAtHome s = .next s' ∧ s'.mem = s.mem ∧ (∀ q ∈ s'.reqs, q.id ≠ r.id) ∧
      (256 ≤ (s.cluster (homeCluster p.loc)).watches.length → onItsWay s' ⟨.watchWakeArrival, .wake r.tid r.id none⟩) ∧
      ((s.cluster (homeCluster p.loc)).watches.length < 256 →
        (holds = true → onItsWay s' ⟨.watchWakeArrival, .wake r.tid r.id (some x)⟩) ∧
        (holds = false → s'.agenda = s.agenda ∧ s'.fabric = s.fabric ∧ (s'.cluster (homeCluster p.loc)).watches =
          (s.cluster (homeCluster p.loc)).watches ++ [⟨r.id, r.tid, p.loc, rel, cmp⟩]))) ∧
  (∀ (s : State) (k : Key) (t : Thread) (tid id : Nat) (a : Addr) (v : Option DW), s.arg = .wake tid id v → InSlot s k t tid →
    t.watch = .armed id a → ∃ s', exec .watchWakeArrival s = .next s' ∧ s'.mem = s.mem ∧
      s'.thread k = some { t with watch := match v with
        | some x => .wake x
        | none => .refused a }) ∧
  (∀ (s : State) (cl : Key), s.arg = .n1 cl → (s.cluster cl).wmask.getLsbD 32 = true →
    let s1 := s.cleanLeaving cl
    (∀ l ∈ (s.cluster cl).leavingLines, l.dirty = true → ∃ e ∈ (s1.group (l.loc / 2 ^ 32)).wq, e.loc = l.loc ∧ e.dom = l.dom) ∧
    (s1.copyIntoLeaving cl = true ∨ s1.cleaning cl = true → exec .wayChangeover s = .next (s1.retry .wayChangeover (.n1 cl))) ∧
    (s1.copyIntoLeaving cl = false → s1.cleaning cl = false →
      ∃ s', exec .wayChangeover s = .next s' ∧ s'.threads = s.threads ∧ (s'.cluster cl).wmask.getLsbD 32 = false ∧
        (∀ i < 16, (s'.cluster cl).wmask.getLsbD i = (s.cluster cl).wmask.getLsbD (16 + i) ∧
          (s'.cluster cl).wmask.getLsbD (16 + i) = (s.cluster cl).wmask.getLsbD (16 + i)) ∧
        (∀ i < 16, (s.cluster cl).wmask.getLsbD i ≠ (s.cluster cl).wmask.getLsbD (16 + i) → ∀ off < 524288,
          s'.mem.byte (scratchLoc cl i off) = 0 ∧ s'.mem.fe (scratchLoc cl i off) = false) ∧
        (∀ a, a < scratchLoc cl 0 0 ∨ scratchLoc cl 15 524287 < a → s'.mem.byte a = s.mem.byte a))))

/-- R97, R116, R125, R127, R193: a read performed at its home takes the bytes that memory holds there, which come back to its core and
are put, sign- or zero-extended, into its register; a plain one with its home on the core's die brings its line into the core's data
cache (R87); where a line is missing in the home vault it first joins its block's window (R88), whose burst fills the lines and takes on
every request that waits for it. -/
def Obligations.LoadsReturnTheBytesAtTheirHome : Prop :=
  (∀ (s : State) (r : Req) (p : Piece), Performs s r.id r → r.pieces = [p] → 0 < p.n →
    (∃ d n signed acq, r.kind = .load d n signed acq) ∨ (∃ d i n, r.kind = .ldm d i n) ∨ (∃ d w, r.kind = .vload d w) →
    ∃ s', exec .loadReturn s = .next s' ∧ s'.mem = s.mem ∧
      Answered s s' r.id (.ok (BitVec.ofNat 512 (s.mem.readN p.loc p.n)) 0) ∧
      ((∀ d n signed, r.kind ≠ .load d n signed true) → homeDie p.loc = dieOfCore (coreOf r.k) →
        ∃ l, (s'.core (coreOf r.k)).dcache.head? = some l ∧ l.dom = r.dom ∧ l.tag = p.va / 32 ∧ l.loc = p.loc / 32 * 32 ∧
          l.data = BitVec.ofNat 256 (s.mem.readN (p.loc / 32 * 32) 32))) ∧
  (∀ (s : State) (k : Key) (t : Thread) (r : Req) (x : Ret), Arrives s r.id r x → x.trap = none → InSlot s k t r.tid →
    let gives (f : Thread → Thread) : Prop :=
      ∃ s', exec .loadReturn s = .next s' ∧ s'.mem = s.mem ∧ (∀ q ∈ s'.reqs, q.id ≠ r.id) ∧ s'.thread k = some (f t)
    (∀ d n signed acq, r.kind = .load d n signed acq → d < 24 →
      gives (fun t => t.setG d (if signed then (BitVec.ofNat (8 * n) x.v.toNat).signExtend 64 else dw (x.v.toNat % 256 ^ n)))) ∧
    (∀ d i n, r.kind = .ldm d i n → d < 24 → gives (fun t => t.setG d (x.v.setWidth 64))) ∧
    (∀ d w, r.kind = .vload d w → d < 8 → gives (fun t => t.setV d x.v)) ∧
    (∀ op d v cmp, r.kind = .atomic op d v cmp → d < 24 → gives (fun t => t.setG d (x.v.setWidth 64))) ∧
    (∀ d, r.kind = .probe d → gives (fun t => t.setP d (x.v.getLsbD 0))) ∧
    (∀ op d v final, r.kind = .sync op d v final → d < 24 → t.run = .parked (.sync r.id) →
      gives (fun t => { (if op = .ldfe ∨ op = .ldff then t.setG d (x.v.setWidth 64) else t) with
        pc := r.npc, run := .ready, readyAt := s.cycle + 2 }))) ∧
  (∀ (s : State) (r : Req), Stands s r.id r → s.missing r ≠ [] →
    exec r.kind.event s = .next ((s.modReq r.id (fun q => { q with miss := some false })).push .controllerRequest (.n1 r.id))) ∧
  (∀ (s : State) (r : Req) (p : Piece), s.arg = .n1 r.id → s.req r.id = some r → s.missing r = [p] →
    let g := p.loc / 2 ^ 32
    let b := p.loc % 2 ^ 32 / 256
    let a : Ask := ⟨.req r.id, r.dom, p.va⟩
    ∃ s', exec .controllerRequest s = .next s' ∧ s'.mem = s.mem ∧ s'.reqs = s.reqs ∧
      (a ∉ (mget (s.group g).windows b).getD [] →
        mget (s'.group g).windows b = some ((mget (s.group g).windows b).getD [] ++ [a]) ∧
        (mget (s.group g).windows b = none → mget (s.group g).bursts b = none →
          (s.cycle + 16, ⟨.burstWindowClose, .n2 g b⟩) ∈ s'.timers))) ∧
  (∀ (s : State) (g b : Nat) (l : List Ask), s.arg = .n2 g b → mget (s.group g).windows b = some l → mget (s.group g).bursts b = none →
    ∃ s', exec .burstWindowClose s = .next s' ∧ mget (s'.group g).bursts b = some s.cycle ∧ s'.mem = s.mem ∧
      (⟨.writeQueueDrain, .n1 g⟩ ∈ s'.agenda ∨ ∃ t, (t, ⟨.writeQueueDrain, .n1 g⟩) ∈ s'.timers)) ∧
  (∀ (s : State) (g b c : Nat), s.arg = .n1 g → s.nextBurst g = some (b, c) →
    (∀ e, s.nextWrite g = some e → (s.group g).wqFirst = false ∧ c ≤ e.ready.getD s.cycle) →
    ∃ s', exec .writeQueueDrain s = .next s' ∧ (s.cycle + 1, ⟨.burstFill, .n2 g b⟩) ∈ s'.timers ∧ s'.mem = s.mem ∧
      s'.groups = s.groups) ∧
  (∀ (s : State) (g b c va dom : Nat) (r : Req), s.arg = .n2 g b → mget (s.group g).bursts b = some c →
    mget (s.group g).windows b = some [⟨.req r.id, dom, va⟩] → s.req r.id = some r →
    ∃ s', exec .burstFill s = .next s' ∧ mget (s'.group g).bursts b = none ∧ mget (s'.group g).windows b = none ∧ s'.mem = s.mem ∧
      s'.threads = s.threads ∧ (s'.inWindow r.id = false →
        s'.req r.id = some { r with miss := some true } ∧ ⟨r.kind.event, .n1 r.id⟩ ∈ s'.agenda)) ∧
  (∀ (s : State) (dom va loc : Nat), loc < 2 ^ 40 → (s.cluster (homeCluster loc)).cacheWays ≠ [] →
    (s.vaultFillLine dom va loc).vaultMiss dom va loc = false ∧ (s.vaultFillLine dom va loc).mem = s.mem ∧
    (s.vaultFillLine dom va loc).threads = s.threads)

/-- R97, R100, R103, R113, R117: the oldest store of a buffer leaves for its home once what its core sent there before has left;
performed, it writes exactly its bytes; of the entries of a write queue or vault write buffer that are ready the one ready first drains,
and of those ready together that of the first domain after the one last served; the acknowledgement then goes to the core and ends
the wait of .package. -/
def Obligations.StoresDrainAndWriteTheirBytes : Prop :=
  (∀ (s : State) (c : Key) (e : StoreEnt), s.arg = .n1 c → (s.core c).sbuf.find? (fun x => !x.sent) = some e → e.bad = none →
    (s.storeWaits c e = true → exec .storeDrain s = .next (s.retry .storeDrain (.n1 c))) ∧
    (s.storeWaits c e = false →
      ∃ s' r, exec .storeDrain s = .next s' ∧ s'.reqs = s.reqs ++ [r] ∧ s'.mem = s.mem ∧ r.id = e.id ∧ r.tid = e.tid ∧
        r.kind = .store false ∧ r.pieces = e.pieces ∧ r.dom = e.dom ∧ (s.cycle + 1, ⟨.storePerform, .n1 e.id⟩) ∈ s'.timers ∧
        (∀ x ∈ (s'.core c).sbuf, x.id = e.id → x.sent = true))) ∧
  (∀ (s : State) (c : Key) (e : StoreEnt) (cause : Byte), s.arg = .n1 c → (s.core c).sbuf.find? (fun x => !x.sent) = some e →
    e.bad = some cause → s.takesTraps e.tid = true →
    ∃ s', exec .storeDrain s = .next s' ∧ s'.mem = s.mem ∧ s'.reqs = s.reqs ∧ (∀ x ∈ (s'.core c).sbuf, x.id ≠ e.id) ∧
      s'.agenda = s.agenda ++ [⟨.storeRefusal, .val e.tid cause.toNat (dw ((e.pieces.headD ⟨0, 0, 0, 0⟩).va))⟩]) ∧
  (∀ (s : State) (r : Req) (rel : Bool), Performs s r.id r → r.kind = .store rel ∨ r.kind = .strl → r.pieces ≠ [] →
    ∃ s', exec .storePerform s = .next s' ∧ s'.threads = s.threads ∧
      (∀ p, r.pieces = [p] → Stored s.mem s'.mem p.loc p.n p.data.toNat) ∧
      (∀ a, (∀ p ∈ r.pieces, ¬ (p.loc ≤ a ∧ a < p.loc + p.n)) → s'.mem.byte a = s.mem.byte a) ∧ s'.mem.full = s.mem.full ∧
      (∀ q ∈ s'.reqs, q.id ≠ r.id) ∧ (∀ x ∈ (s'.core (coreOf r.k)).sbuf, x.id ≠ r.id) ∧
      ⟨r.id, coreOf r.k, none, r.tid, r.dom, r.part, r.launch⟩ ∈ s'.acks) ∧
  (∀ (s : State) (g : Nat) (e : WEnt), s.arg = .n1 g → s.nextBurst g = none → s.nextWrite g = some e →
    ∃ s', exec .writeQueueDrain s = .next s' ∧ (s'.group g).wqLast = e.dom ∧ s'.mem = s.mem ∧
      (s'.group g).wq.map (fun x => (x.dom, x.loc, x.id)) = ((s.group g).wq.erase e).map (fun x => (x.dom, x.loc, x.id)) ∧
      ∀ d ∈ e.due, d ∈ s'.agenda) ∧
  (∀ (s : State) (x cl : Nat) (e : WEnt), s.arg = .n2 x cl → nextEnt (s.cluster cl).wbufLast (s.cluster cl).wbuf = some e →
    ∃ s', exec .writeQueueDrain s = .next s' ∧ (s'.cluster cl).wbufLast = e.dom ∧ s'.mem = s.mem ∧
      (s'.cluster cl).wbuf.map (fun x => (x.dom, x.loc, x.id)) = ((s.cluster cl).wbuf.erase e).map (fun x => (x.dom, x.loc, x.id)) ∧
      ∀ d ∈ e.due, d ∈ s'.agenda) ∧
  (∀ (last : Nat) (l : List WEnt) (e : WEnt), nextEnt last l = some e → e ∈ l ∧ ∃ t, e.ready = some t ∧
    ∀ x ∈ l, ∀ u, x.ready = some u → t < u ∨ (t = u ∧ (e.dom + 4095 - last) % 4096 ≤ (x.dom + 4095 - last) % 4096)) ∧
  (∀ (s : State) (id cl : Nat) (a : AckDue), s.arg = .n2 id cl → s.acks.find? (fun x => x.id == id) = some a →
    ∃ s', exec .writeAcknowledgement s = .next s' ∧ onItsWay s' ⟨.writeAcknowledgement, .n1 id⟩ ∧ s'.acks = s.acks ∧
      s'.mem = s.mem ∧ s'.threads = s.threads) ∧
  (∀ (s : State) (id : Nat) (a : AckDue), s.arg = .n1 id → s.acks.find? (fun x => x.id == id) = some a →
    ∃ s', exec .writeAcknowledgement s = .next s' ∧ s'.acks = s.acks.filter (fun x => x.id != id) ∧ s'.mem = s.mem ∧
      s'.threads = s.threads ∧ (∀ j, a.jent = some j → s.residentOn a.part (groupOf a.core) = true →
        ⟨.journalAck, .n2 a.core j⟩ ∈ s'.agenda))

/-- R374, R375, R376, R382: an acknowledged posted write frees its journal entry; a refused one keeps the entry REFUSED with the cause
and raises JOURNAL at its thread; a refused plain store raises ASTORE with its address, and at a thread that is ending a report instead; a report enters the fault in its launch's counter. -/
def Obligations.JournalAndRefusals : Prop :=
  (∀ (s : State) (c : Key) (j : Nat) (e : JEnt), s.arg = .n2 c j → mget (s.core c).journal j = some e → e.st = .pending →
    e.replay = none →
    ∃ s', exec .journalAck s = .next s' ∧ mget (s'.core c).journal j = none ∧ s'.mem = s.mem ∧ s'.threads = s.threads ∧
      ∀ i, i ≠ j → mget (s'.core c).journal i = mget (s.core c).journal i) ∧
  (∀ (s : State) (c : Key) (j cause : Nat) (e : JEnt) (k : Key) (t : Thread), s.arg = .n3 c j cause →
    mget (s.core c).journal j = some e → e.st = .pending → e.replay = none → InSlot s k t e.tid → coreOf e.k = c →
    ∃ s' t', exec .journalRefusal s = .next s' ∧
      mget (s'.core c).journal j = some { e with st := .refused (BitVec.ofNat 8 cause), replay := none } ∧
      s'.thread k = some t' ∧ t' = { t with asyncTraps := t.asyncTraps ++ [(BitVec.ofNat 8 causeJOURNAL, addr j)] } ∧ s'.mem = s.mem) ∧
  (∀ (s : State) (tid cause : Nat) (va : DW) (k : Key) (t : Thread), s.arg = .val tid cause va → InSlot s k t tid →
    s.threadOf tid = some t →
    ∃ s', exec .storeRefusal s = .next s' ∧ s'.mem = s.mem ∧
      (t.run ≠ .ending → s'.thread k = some { t with asyncTraps := t.asyncTraps ++ [(BitVec.ofNat 8 causeASTORE, addr va.toNat)] }) ∧
      (t.run = .ending → s'.thread k = some t ∧
        s'.agenda = s.agenda ++ [⟨.faultReportArrival, .report ⟨t.partN, t.launchid, BitVec.ofNat 8 cause⟩⟩])) ∧
  (∀ (s : State) (r : Report) (l : LevelRef), s.arg = .report r → checkHandle s r.part r.handle.toNat = .live l →
    (s.counter l).done = false →
    ∃ s', exec .faultReportArrival s = .next s' ∧ s'.mem = s.mem ∧ s'.threads = s.threads ∧
      (s'.counter l).fault = true ∧ (s'.counter l).fcause = (if (s.counter l).fault then (s.counter l).fcause else r.cause) ∧
      (s'.counter l).fcnt = min ((s.counter l).fcnt + 1) 4294967295 ∧ (s'.counter l).count = (s.counter l).count)

/-- R127, R185: an atomic performed at its home answers the old doubleword, for gd, and writes the new one: sums wrap, minima and
maxima are signed or unsigned, ACAS writes only where the old value equals gd; ACCZ zeroes the 96 bytes of an ACC object. -/
def Obligations.AtomicsReadModifyWriteOneDoubleword : Prop :=
  (∀ (s : State) (r : Req) (p : Piece) (op : Aop) (d : Nat) (t cmp : DW), Performs s r.id r →
    r.pieces = [p] → p.n = 8 → p.loc % 8 = 0 → r.kind = .atomic op d t cmp →
    let old := s.mem.word p.loc
    let new := match op with
      | .add => old + t
      | .and => old &&& t
      | .or => old ||| t
      | .xor => old ^^^ t
      | .min => if old.toInt ≤ t.toInt then old else t
      | .max => if old.toInt ≤ t.toInt then t else old
      | .minu => if old.toNat ≤ t.toNat then old else t
      | .maxu => if old.toNat ≤ t.toNat then t else old
      | .swap => t
      | .cas => if old = cmp then t else old
    ∃ s', exec .atomicPerform s = .next s' ∧ Stored s.mem s'.mem p.loc 8 new.toNat ∧ Answered s s' r.id (.ok (old.setWidth 512) 0) ∧
      ((op = .cas → old = cmp) → ⟨r.id, coreOf r.k, none, r.tid, r.dom, r.part, r.launch⟩ ∈ s'.acks) ∧
      (op = .cas → old ≠ cmp → s'.acks = s.acks ∧ s'.mem = s.mem)) ∧
  (∀ (s : State) (r : Req) (p : Piece), Performs s r.id r → r.pieces = [p] → p.n = 96 → r.kind = .accz →
    ∃ s', exec .atomicPerform s = .next s' ∧ Stored s.mem s'.mem p.loc 96 0 ∧ (∀ q ∈ s'.reqs, q.id ≠ r.id))

/-- R119 to R122: at the home, LDFE takes the word of a full one and leaves it empty, LDFF reads it and leaves it full, STEF fills an
empty word, STFF writes and leaves a full one full, each answering the old word; SETE empties the word and PROBE answers its bit. The
data of the word changes only by STEF and STFF, and no other word changes. -/
def Obligations.FullEmptyAccessesAtTheirHome : Prop :=
  (∀ (s : State) (r : Req) (p : Piece) (op : Sop) (d : Nat) (data : DW) (final : Bool),
    Performs s r.id r → r.pieces = [p] → p.n = 8 → p.loc % 8 = 0 → r.kind = .sync op d data final →
    NoneWaits s → NoneSwapped s p.loc →
    s.mem.fe p.loc = (match op with
      | .stef => false
      | _ => true) →
    ∃ s', exec .syncAccessAtHome s = .next s' ∧ Answered s s' r.id (.ok ((s.mem.word p.loc).setWidth 512) 0) ∧
      s'.mem.fe p.loc = (match op with
        | .ldfe => false
        | _ => true) ∧
      (∀ a, a / 8 ≠ p.loc / 8 → s'.mem.fe a = s.mem.fe a) ∧
      (s.mem.wf = true → ∀ a, s'.mem.byte a = if (op = .stef ∨ op = .stff) ∧ p.loc ≤ a ∧ a < p.loc + 8
        then BitVec.ofNat 8 (data.toNat / 256 ^ (a - p.loc)) else s.mem.byte a)) ∧
  (∀ (s : State) (r : Req) (p : Piece), Performs s r.id r → r.pieces = [p] → r.kind = .sete → NoneWaits s → NoneSwapped s p.loc →
    ∃ s', exec .syncAccessAtHome s = .next s' ∧ s'.mem.fe p.loc = false ∧ s'.threads = s.threads ∧ (∀ q ∈ s'.reqs, q.id ≠ r.id) ∧
      (∀ a, s'.mem.byte a = s.mem.byte a) ∧ (∀ a, a / 8 ≠ p.loc / 8 → s'.mem.fe a = s.mem.fe a)) ∧
  (∀ (s : State) (r : Req) (p : Piece) (d : Nat), Performs s r.id r → r.pieces = [p] →
    r.kind = .probe d → ∃ s', exec .syncAccessAtHome s = .next s' ∧ s'.mem = s.mem ∧
      Answered s s' r.id (.ok (if s.mem.fe p.loc then 1 else 0) 0))

/-- R120, R121, R373, R385: a try that fails from the home's own cluster is tried again, RETRYLIM tries in all, the last as the final
one; the final one leaves the thread a swapped waiter; a request from elsewhere waits in the home's table, and one that finds the
table full comes again 64 cycles on; a withdrawal takes effect after everything else of its cycle, and its instruction traps with
WAITLIM and its address unless it was performed; the wake of a swapped waiter makes it ready. -/
def Obligations.FailedSynchronisingTriesWaitOrRetry : Prop :=
  (∀ (s : State) (k : Key) (t : Thread) (r : Req) (op : Sop) (d : Nat) (data : DW) (final : Bool), s.arg = .n1 r.id →
    s.req r.id = some r → r.k = k → s.thread k = some t → r.kind = .sync op d data final →
    ∃ s' r', exec .syncTryFailReturn s = .next s' ∧ s'.req r.id = some r' ∧ s'.mem = s.mem ∧
      s'.thread k = some { t with tries := t.tries + 1 } ∧ (s.cycle + 1, ⟨.syncAccessAtHome, .n1 r.id⟩) ∈ s'.timers ∧
      r'.kind = .sync op d data (final || decide (t.retrylim.toNat ≤ t.tries + 1))) ∧
  (∀ (s : State) (r : Req) (p : Piece) (op : Sop) (d : Nat) (data : DW) (final : Bool), Performs s r.id r → r.pieces = [p] → 0 < p.n →
    r.kind = .sync op d data final → s.mem.fe p.loc ≠ (match op with
      | .stef => false
      | _ => true) →
    ∃ s', exec .syncAccessAtHome s = .next s' ∧ s'.mem = s.mem ∧
      (r.near = true → final = false → ⟨.syncTryFailReturn, .n1 r.id⟩ ∈ s'.agenda ∧ s'.threads = s.threads ∧
        s'.req r.id = some { r with here := false, out := false, arr := none }) ∧
      (r.near = false → s.waiters (homeCluster p.loc) < 128 → s'.threads = s.threads ∧ s'.req r.id = some { r with waiting := true }) ∧
      (r.near = false ∨ final = true → 128 ≤ s.waiters (homeCluster p.loc) → s'.threads = s.threads ∧
        (s.cycle + 64, ⟨.syncResend, .n1 r.id⟩) ∈ s'.timers ∧
        s'.req r.id = some { r with left := r.near, here := false, out := false, arr := none }) ∧
      (r.near = true → final = true → s.waiters (homeCluster p.loc) < 128 → ∀ t, s.thread r.k = some t → t.tid = r.tid →
        ∃ t', s'.thread r.k = some t' ∧ t'.leaving = some false ∧
          t'.run = .parked (.word (addr p.va) (op != .stef)) ∧
          (∃ w ∈ (s'.cluster (homeCluster p.loc)).swapped, w.tid = r.tid ∧ w.loc = p.loc ∧ w.want = (op != .stef)) ∧
          r ∉ s'.reqs)) ∧
  (∀ (s : State) (r : Req), s.arg = .n1 r.id → s.req r.id = some r →
    exec .syncResend s = .next (s.push .syncAccessAtHome (.n1 r.id))) ∧
  (∀ (s : State) (k : Key) (r : Req) (t : Thread), s.arg = .n2 k r.id → s.req r.id = some r → s.thread k = some t →
    t.run = .parked (.sync r.id) →
    (∀ x, r.fin = some x → exec .withdrawalAtHome s = .next s) ∧
    (r.fin = none → (∃ e ∈ s.agenda, e.i ≠ .withdrawalAtHome) →
      exec .withdrawalAtHome s = .next (s.push .withdrawalAtHome (.n2 k r.id))) ∧
    (r.fin = none → (∀ e ∈ s.agenda, e.i = .withdrawalAtHome) →
      exec .withdrawalAtHome s = .next (((s.dropSync k).wakeThread k).takeTrap k causeWAITLIM
        ((r.pieces.headD ⟨0, 0, 0, 0⟩).va) 0))) ∧
  (∀ (s : State) (c : Key) (k : Key) (t : Thread) (tid : Nat) (va : Addr) (want : Bool), s.arg = .n2 c tid → InSlot s k t tid →
    t.run = .parked (.word va want) → ∃ s', exec .waiterWakeArrival s = .next s' ∧ s'.mem = s.mem ∧
      s'.thread k = some { t with run := .ready, leaving := none, readyAt := s.cycle + 2 })

/-- R133 to R136: a copy instruction reads its operands and holds its thread at the instruction until the engine accepts the command;
what it read from k and q registers stands there until then, and a count out of range traps with BADOPND; CPY moves T elements, CPYT rows of COLS elements, CPYW and CPYC write T words, full or empty. -/
def Obligations.CopiesHoldForAcceptance : Prop :=
  (∀ (o : Op) (s : State) (t : Thread),
    let srcs := o.sx s.q ++ o.tx s.q ++ o.dx s.q
    let cnt := ((s.cx t).tval o).toNat
    let dst := ((s.cx t).dval o).toNat % 2 ^ 56
    let gs := (s.cx t).sval o
    let fmt := dw (plainFmt o.et.toNat o.rnd.toNat)
    let holds (fill : Option (DW × Bool)) (src : Nat) (f : DW) : Host.Outcome State Fault Refusal :=
      .next (((s.cx t).putBack (s.taken t srcs)).holdPend s.cur t.pc (.copy ⟨s.cur, t.tid, t.copySeq, t.partN, t.domN, t.launchid,
        fill, dst, src, cnt, 1, 0, 0, f, f, 0, 0, 0, 0, 0, none, []⟩) .copyAccept .copyAccept)
    Executes s t false srcs [] → s.acquiring s.cur t = false →
      (0 < cnt → cnt < 2 ^ 32 →
        exec (.cpy o) s = holds none (gs.toNat % 2 ^ 56) fmt ∧
        exec (.cpyw o) s = holds (some (gs, true)) 0 (dw (plainFmt 0 0)) ∧
        exec (.cpyc o) s = holds (some (gs, false)) 0 (dw (plainFmt 0 0))) ∧
      (cnt = 0 ∨ 2 ^ 32 ≤ cnt → ∀ i ∈ [Instr.cpy o, .cpyw o, .cpyc o], exec i s = .next (s.takeTrap s.cur causeBADOPND 0 0))) ∧
  (∀ (o : OpP) (s : State) (t : Thread),
    let srcs := blockSrcs .cpyt o
    let f := (s.cx t).field .cpyt o
    let fmt := dw (plainFmt o.o.et.toNat o.o.rnd.toNat)
    Executes s t false srcs [] → s.acquiring s.cur t = false →
      (0 < f 2 → f 2 < 2 ^ 32 → 0 < f 3 →
        exec (.cpyt o) s = .next (((s.cx t).putBack (s.taken t srcs)).holdPend s.cur t.pc (.copy ⟨s.cur, t.tid, t.copySeq, t.partN, t.domN,
          t.launchid, none, f 0 % 2 ^ 56, f 1 % 2 ^ 56, f 2, f 3, 8 * f 5, 8 * f 4, fmt, fmt, 0, 0, 0, 0, 0, none, []⟩)
          .copyAccept .copyAccept)) ∧
      (f 2 = 0 ∨ 2 ^ 32 ≤ f 2 ∨ f 3 = 0 → exec (.cpyt o) s = .next (s.takeTrap s.cur causeBADOPND 0 0))) ∧
  (∀ (s : State) (t : Thread) (s1 : State) (t1 : Thread), s.thread s.cur = some t → s1.thread s.cur = some t1 →
    ∃ t2, ((s.cx t).putBack s1).thread s.cur = some t2 ∧ t2.k = t.k ∧ t2.q0 = t.q0 ∧ t2.q1 = t.q1 ∧ t2.q2 = t.q2 ∧ t2.q3 = t.q3 ∧
      t2.g = t1.g ∧ t2.took = (s.cx t).taken s1)

/-- R133 to R137, R386: of the commands of a cluster that are ready that of the first core after the one last accepted is accepted;
acceptance enters the command in its engine's queue, takes the items and records that it used, and lets its thread go on, numbered; a unit
of a copy between two sides of one format moves its bytes as they are; a unit of CPYW or CPYC writes its words and their full/empty
bits; the end pushes (SEQ, status) to q0 once the command's writes have drained; a timed-out unit changes nothing. -/
def Obligations.CopyCommandsAreAcceptedPerformedAndReported : Prop :=
  (∀ (s : State) (k : Key) (t : Thread) (c c' : CopyCmd), s.arg = .n1 k → s.thread k = some t → t.run = .parked .copyAccept →
    t.pend = some (.copy c) → isService (coreOf k) = false → (s.cluster (clusterOf (coreOf k))).copyq.length < 32 →
    s.releasedNow k t .die = true → s.acceptCopy false c = .ok c' → s.ownedElsewhere c'.own (.copy (clusterOf (coreOf k))) = false →
    s.copyWinner (clusterOf (coreOf k)) = some k →
    ∃ s', exec .copyAccept s = .next s' ∧ s'.mem = s.mem ∧
      (s'.cluster (clusterOf (coreOf k))).copyq = (s.cluster (clusterOf (coreOf k))).copyq ++ [c'] ∧
      (s'.cluster (clusterOf (coreOf k))).copyRR = coreIndex (coreOf k) ∧
      (t.took = [] → s'.thread k = some { t with pc := t.npc, run := .ready, readyAt := s.cycle + 2, pend := none, copySeq := t.copySeq + 1 }) ∧
      (∀ n b, isK n = true → t.took = [n] → t.kb (kIndex n) = some b →
        ∃ t', s'.thread k = some t' ∧ t'.pc = t.npc ∧ t'.took = [] ∧ t'.kb (kIndex n) = some { b with item := none })) ∧
  (∀ (s : State) (cl k : Key), s.copyWinner cl = some k →
    let turn (j : Key) : Nat := (coreIndex (coreOf j) + 15 - (s.cluster cl).copyRR) % 16 * 8 + slotOf j
    let ready (e : Key × Thread) : Prop := isService (coreOf e.1) = false ∧ clusterOf (coreOf e.1) = cl ∧ (s.copyReady e.1 e.2).isSome = true
    (∃ t, (k, t) ∈ s.threads ∧ ready (k, t)) ∧ ∀ e ∈ s.threads, ready e → turn k ≤ turn e.1) ∧
  (∀ (s : State) (cl : Key) (c : CopyCmd) (l : List CopyCmd) (src dst : Nat), s.arg = .n1 cl → (s.cluster cl).copyq = c :: l →
    c.stalled = none → c.status = 0 → c.row < c.rows → s.switching (groupOfCluster cl) = false → c.fill = none →
    bfFmt c.dfmt.toNat ≠ 11 → bfFmt c.sfmt.toNat ≠ 11 → bfSparse c.dfmt.toNat = false → bfSparse c.sfmt.toNat = false →
    sameElems c.dfmt.toNat c.sfmt.toNat = true →
    let e := min 32 (c.cnt - c.done)
    let n := fmtLen c.sfmt.toNat e
    let sva := c.src + c.row * c.spitch + c.spos
    let dva := c.dst + c.row * c.dpitch + c.dpos
    let acc : EngAcc := ⟨false, dieOfCluster cl, c.part, c.dom, .copy cl, c.got⟩
    s.engPlaces acc .rd (pageParts sva n) = .ok [⟨sva, src, n, 0⟩] → s.engPlaces acc .wr (pageParts dva n) = .ok [⟨dva, dst, n, 0⟩] →
    ∃ s', exec .copyUnitWrite s = .next s' ∧ Stored s.mem s'.mem dst n (s.mem.readN src n) ∧ s'.threads = s.threads ∧
      (s'.cluster cl).copyq = c.advance e n n :: l) ∧
  (∀ (s : State) (cl : Key) (c : CopyCmd) (l : List CopyCmd) (v : DW) (full : Bool) (dst : Nat), s.arg = .n1 cl →
    (s.cluster cl).copyq = c :: l → c.stalled = none → c.status = 0 → c.row < c.rows → s.switching (groupOfCluster cl) = false →
    c.fill = some (v, full) → c.cnt = c.done + 1 → dst % 8 = 0 → NoneWaits s → NoneSwapped s dst →
    let dva := c.dst + c.row * c.dpitch + c.dpos
    s.engPlaces ⟨true, dieOfCluster cl, c.part, c.dom, .copy cl, c.got⟩ .wr (pageParts dva 8) = .ok [⟨dva, dst, 8, 0⟩] →
    ∃ s', exec .copyUnitWrite s = .next s' ∧
      (s.mem.wf = true → ∀ i < 8, s'.mem.byte (dst + i) = BitVec.ofNat 8 (v.toNat / 256 ^ i)) ∧
      s'.mem.fe dst = full ∧ (∀ a, a < dst ∨ dst + 8 ≤ a → s'.mem.byte a = s.mem.byte a ∧ s'.mem.fe a = s.mem.fe a) ∧
      s'.mem.badWord dst 8 = none ∧ s'.threads = s.threads) ∧
  (∀ (s : State) (cl : Key) (c : CopyCmd) (l : List CopyCmd) (k : Key) (t : Thread), s.arg = .n1 cl → (s.cluster cl).copyq = c :: l →
    (c.status ≠ 0 ∨ c.rows ≤ c.row) → InSlot s k t c.tid →
    (s.draining cl = true → exec .copyComplete s = .next (s.retryOnce .copyComplete (.n1 cl))) ∧
    (s.draining cl = false → ∃ s', exec .copyComplete s = .next s' ∧ (s'.cluster cl).copyq = l ∧ s'.mem = s.mem ∧
      s'.thread k = some { t with q0 := t.q0 ++ [dw (c.seq.toNat * 2 ^ 32 + c.status.toNat)] })) ∧
  (∀ s : State, exec .copyUnitTimeout s = .next s)

/-- R196, R197: lane arithmetic. Integer sums, differences, minima and maxima are visible at four cycles; floating-point results and
every product, quotient, fused product and root are owed.
R197 to R200: bitwise operations, lane shifts by the low bits of a count, the compare mask in g0 to g7, and VSEL. -/
def Obligations.VectorLaneInstructions : Prop :=
  ((∀ o : Op, etFp o.et.toNat = false →
    VecNow (.vadd o) o (vsAndVt o) (arith o (· + ·) (fun md a b => a.add md b)) ∧
    VecNow (.vsub o) o (vsAndVt o) (arith o (· - ·) (fun md a b => a.add md b.neg))) ∧
  (∀ o : Op, etFp o.et.toNat = true →
    VecOwed (.vadd o) o (vsAndVt o) true (arith o (· + ·) (fun md a b => a.add md b)) ∧
    VecOwed (.vsub o) o (vsAndVt o) true (arith o (· - ·) (fun md a b => a.add md b.neg)) ∧
    VecOwed (.vsqrt o) o (fun q => [.v o.sn 0 q.ts]) true (arith o (· + ·) (fun _ a _ => a.sqrt))) ∧
  (∀ o : Op,
    VecOwed (.vmul o) o (vsAndVt o) (etFp o.et.toNat) (arith o (· * ·) (fun _ a b => a.mul b)) ∧
    VecOwed (.vdiv o) o (vsAndVt o) (etFp o.et.toNat)
      (arith o (fun a b => if b = 0 then -1 else if a = -(2 ^ (etW o.et.toNat - 1)) ∧ b = -1 then a else a.tdiv b)
        (fun _ a b => a.div b)) ∧
    VecOwed (.vfma o) o (fun q => vsAndVt o q ++ [.v o.dn 2 q.td]) (etFp o.et.toNat) (fun s t i =>
      let d := lane (etW o.et.toNat) (t.vv o.dn) i
      arith o (fun a b => a * b + (BitVec.ofNat (etW o.et.toNat) d).toInt)
        (fun md a b => (((a.mul b).1.add md ((fmtOfEt o.et.toNat).decode d)).1,
          (a.mul b).2 ||| ((a.mul b).1.add md ((fmtOfEt o.et.toNat).decode d)).2)) s t i) ∧
    VecNow (.vmin o) o (vsAndVt o) (fun _ t i =>
      let w := etW o.et.toNat
      let a := lane w (t.vv o.sn) i
      let b := lane w (t.vv o.tn) i
      if etFp o.et.toNat then minMaxNum (fmtOfEt o.et.toNat) false a b
      else (if (BitVec.ofNat w a).toInt ≤ (BitVec.ofNat w b).toInt then a else b, 0)) ∧
    VecNow (.vmax o) o (vsAndVt o) (fun _ t i =>
      let w := etW o.et.toNat
      let a := lane w (t.vv o.sn) i
      let b := lane w (t.vv o.tn) i
      if etFp o.et.toNat then minMaxNum (fmtOfEt o.et.toNat) true a b
      else (if (BitVec.ofNat w a).toInt ≤ (BitVec.ofNat w b).toInt then b else a, 0)) ∧
    VecNow (.vabs o) o (fun q => [.v o.sn 0 q.ts]) (plainLane (fun _ t i =>
      let w := etW o.et.toNat
      let a := lane w (t.vv o.sn) i
      if etFp o.et.toNat then a % 2 ^ (w - 1) else (BitVec.ofNat w a).toInt.natAbs)) ∧
    VecNow (.vneg o) o (fun q => [.v o.sn 0 q.ts]) (plainLane (fun _ t i =>
      let w := etW o.et.toNat
      let a := lane w (t.vv o.sn) i
      if etFp o.et.toNat then a + 2 ^ (w - 1) else 2 ^ w - a)))) ∧
  (∀ o : Op,
    (∀ (s : State) (t : Thread), Executes s t false (vsAndVt o s.q) [.v o.dn] →
      exec (.vand o) s = .next (s.after t (vsAndVt o s.q) (fun x => x.setV o.dn (t.vv o.sn &&& t.vv o.tn))) ∧
      exec (.vor o) s = .next (s.after t (vsAndVt o s.q) (fun x => x.setV o.dn (t.vv o.sn ||| t.vv o.tn))) ∧
      exec (.vxor o) s = .next (s.after t (vsAndVt o s.q) (fun x => x.setV o.dn (t.vv o.sn ^^^ t.vv o.tn)))) ∧
    VecNow (.vshl o) o (vsAndVt o) (plainLane (fun _ t i =>
      let w := etW o.et.toNat
      let n := match o.t with
        | .reg r => lane w (t.vv r.toNat) i
        | .imm v => v.toNat
      lane w (t.vv o.sn) i * 2 ^ (n % w))) ∧
    VecNow (.vshr o) o (vsAndVt o) (plainLane (fun _ t i =>
      let w := etW o.et.toNat
      let n := match o.t with
        | .reg r => lane w (t.vv r.toNat) i
        | .imm v => v.toNat
      ((BitVec.ofNat w (lane w (t.vv o.sn) i)).sshiftRight (n % w)).toNat)) ∧
    (∀ (s : State) (t : Thread), o.et.toNat < 8 → Executes s t false (vsAndVt o s.q) [.x (o.dn % 8)] →
      let w := etW o.et.toNat
      let c (i : Nat) := laneCmp o.et.toNat (o.dn / 8 % 4) (lane w (t.vv o.sn) i) (lane w (t.vv o.tn) i)
      exec (.vcmp o) s = .next (s.after t (vsAndVt o s.q) (fun x =>
        (x.orFlags (laneFlags (512 / w) (fun i => (0, (c i).2)))).setG (o.dn % 8) (ofBits (fun i => i < 512 / w && (c i).1))))) ∧
    VecNow (.vsel o) o (fun q => .v o.sn 0 q.ts :: o.tx q ++ [.v o.dn 2 q.td]) (plainLane (fun s t i =>
      let w := etW o.et.toNat
      if bit ((s.cx t).tval o).toNat i then lane w (t.vv o.sn) i else lane w (t.vv o.dn) i)))

/-- R201 to R204: reductions, lane moves and conversions. Integer reductions take the sign-extended lanes; floating-point ones run the
pairwise tree. VEXT and VINS of a lane that does not exist, and a VCVT whose immediate breaks R204, trap with BADOPND. -/
def Obligations.VectorReductionsMovesAndConversions : Prop :=
  ∀ o : Op, o.et.toNat < 8 →
    (∀ (s : State) (t : Thread), Executes s t false [.v o.sn 0 s.q.ts] [.x o.dn] → o.dn < 24 → etFp o.et.toNat = false →
      let w := etW o.et.toNat
      let xs := (List.range (512 / w)).map (fun i => (BitVec.ofNat w (lane w (t.vv o.sn) i)).toInt)
      let owes (v : Int) : Host.Outcome State Fault Refusal := .next ((s.taken t [.v o.sn 0 s.q.ts]).owe s.cur
        [(.g o.dn, (BitVec.ofInt 64 v).setWidth 512)] none 0 false false)
      exec (.vrsum o) s = owes xs.sum ∧
      (∃ m, exec (.vrmax o) s = owes m ∧ m ∈ xs ∧ ∀ x ∈ xs, x ≤ m) ∧ (∃ m, exec (.vrmin o) s = owes m ∧ m ∈ xs ∧ ∀ x ∈ xs, m ≤ x)) ∧
    (∀ (s : State) (t : Thread), Executes s t false [.v o.sn 0 s.q.ts] [.x o.dn] → o.dn < 24 → etFp o.et.toNat = true →
      let w := etW o.et.toNat
      let f := fmtOfEt o.et.toNat
      let md := t.mode o.rnd.toNat
      let xs := (List.range (512 / w)).map (fun i => lane w (t.vv o.sn) i)
      let owes (r : Nat × Flags) : Host.Outcome State Fault Refusal := .next ((s.taken t [.v o.sn 0 s.q.ts]).owe s.cur
        [(.g o.dn, (dw r.1).setWidth 512)] none r.2 true false)
      exec (.vrsum o) s = owes (treeOf (fun a b => finishOp f md ((f.decode a).add md (f.decode b))) (512 / w).log2 xs) ∧
      exec (.vrmax o) s = owes (treeOf (minMaxNum f true) (512 / w).log2 xs) ∧
      exec (.vrmin o) s = owes (treeOf (minMaxNum f false) (512 / w).log2 xs)) ∧
    VecNow (.vbcast o) o (fun q => o.sx q) (plainLane (fun s t _ => ((s.cx t).sval o).toNat)) ∧
    VecNow (.vperm o) o (vsAndVt o) (plainLane (fun _ t i =>
      let w := etW o.et.toNat
      lane w (t.vv o.sn) (lane w (t.vv o.tn) i % (512 / w)))) ∧
    (∀ (s : State) (t : Thread), Executes s t false (.v o.sn 0 s.q.ts :: o.tx s.q) [.x o.dn] →
      let w := etW o.et.toNat
      let i := ((s.cx t).tvalZ o).toNat
      let v := if etFp o.et.toNat then dw (lane w (t.vv o.sn) i) else (BitVec.ofNat w (lane w (t.vv o.sn) i)).signExtend 64
      (i < 512 / w → exec (.vext o) s = s.answers t ((s.taken t (.v o.sn 0 s.q.ts :: o.tx s.q)).putX (s.cx t) o.dn v) ∧
        (o.dn < 24 → exec (.vext o) s = .next (s.after t (.v o.sn 0 s.q.ts :: o.tx s.q) (fun x => x.setG o.dn v)))) ∧
      (512 / w ≤ i → exec (.vext o) s = .next (s.takeTrap s.cur causeBADOPND 0 0))) ∧
    (∀ (s : State) (t : Thread), Executes s t false (o.sx s.q ++ o.tx s.q ++ [.v o.dn 2 s.q.td]) [.v o.dn] → o.dn < 8 →
      let w := etW o.et.toNat
      let k := ((s.cx t).tvalZ o).toNat
      (k < 512 / w → ∃ r, HasLanes w r (fun i => (if i = k then ((s.cx t).sval o).toNat else lane w (t.vv o.dn) i, 0)) ∧
        exec (.vins o) s = .next (s.after t (o.sx s.q ++ o.tx s.q ++ [.v o.dn 2 s.q.td]) (fun x => x.setV o.dn r))) ∧
      (512 / w ≤ k → exec (.vins o) s = .next (s.takeTrap s.cur causeBADOPND 0 0))) ∧
    (∀ (s : State) (t : Thread), Executes s t false [.v o.sn 0 s.q.ts] [.v o.dn] →
      let x := ((s.cx t).tvalZ o).toNat
      let r := vcvt (t.mode o.rnd.toNat) t.satF8 x (t.vv o.sn)
      (vcvtOk x = true → exec (.vcvt o) s = .next ((s.taken t [.v o.sn 0 s.q.ts]).owe s.cur [(.v o.dn, r.1)] none r.2 true false)) ∧
      (vcvtOk x = false → exec (.vcvt o) s = .next (s.takeTrap s.cur causeBADOPND 0 0)))

/-- R193 to R195, R205, R231 to R233: vector loads and stores, contiguous, strided and indexed, and the accesses to ACC objects. -/
def Obligations.VectorAndAccumulatorAccesses : Prop :=
  ∀ o : Op,
    let w := etW o.et.toNat
    let two (q : Quals) := o.sx q ++ o.tx q
    let idx (q : Quals) := o.sx q ++ o.tv q
    let data (q : Quals) : List Src := [.v o.dn 2 q.td]
    let strides (s : State) (t : Thread) := (List.range (512 / w)).map (fun i =>
      ((s.cx t).sval o + BitVec.ofNat 64 i * (s.cx t).tval o).toNat % 2 ^ 56)
    let indexes (s : State) (t : Thread) := (List.range (512 / w)).map (fun i =>
      ((s.cx t).sval o + (BitVec.ofNat w (lane w (t.vv o.tn) i)).signExtend 64).toNat % 2 ^ 56)
    let ls (t : Thread) := (List.range (512 / w)).map (lane w (t.vv o.dn))
    VecLoads (.vld o) o 64 two (fun s t => [sumAddr s t o]) ∧ VecLoads (.vlds o) o (w / 8) two strides ∧
    VecLoads (.vgath o) o (w / 8) idx indexes ∧
    VecStores (.vst o) o 64 (fun q => two q ++ data q) (fun s t => [sumAddr s t o]) (fun t => [(t.vv o.dn).toNat]) ∧
    VecStores (.vsts o) o (w / 8) (fun q => two q ++ data q) strides ls ∧
    VecStores (.vscat o) o (w / 8) (fun q => idx q ++ data q) indexes ls ∧
    Accumulates (.vdota o) o (fun q => vsAndVt o q ++ o.dx q) (fun _ t => .acc ((List.range (512 / w)).map (fun i =>
      (((numTy o.et.toNat).decode (lane w (t.vv o.sn) i)).mul ((numTy o.et.toNat).decode (lane w (t.vv o.tn) i))).1))) ∧
    Accumulates (.accw o) o (fun q => o.sx q ++ o.dx q) (fun s t => .acc [(numTy o.et.toNat).decode (((s.cx t).sval o).toNat % 2 ^ w)]) ∧
    Accumulates (.accz o) o (fun q => o.dx q) (fun _ _ => .accz) ∧
    (∀ (s : State) (t : Thread) (p : Place), let a := baseAddr s t o
      Executes s t false (o.sx s.q) [.x o.dn] → o.dn < 24 → accMisplaced a = false → s.access s.cur t a 96 1 .rd false = .ok p →
      s.acquiring s.cur t = false → (s.cx t).posting a 96 = false →
      ∃ s' t' r, exec (.accr o) s = .next s' ∧ s'.reqs = s.reqs ++ [r] ∧ s'.mem = s.mem ∧ s'.thread s.cur = some t' ∧
        r.kind = .accr o.dn o.et.toNat (if o.rnd = 0 then t.rm else o.rnd.toNat) ∧ r.pieces = [⟨a, p.loc, 96, 0⟩] ∧ r.npc = s.npc t ∧
        t'.pc = t.pc ∧ t'.run = .parked (.answer r.id) ∧ t'.isOwed (.g o.dn) = true)

/-- R217, R218, R225: MLEASE asks for the group's lease and owes gd the grant's cycle, or gives the held lease's; MRELS ends it; a free
lease is granted to the waiter whose key comes first after the last holder's; at the cycle limit, whose cycles do not count while the group changes
hands, it passes to a waiter or begins anew. -/
def Obligations.LeaseIsAskedForGrantedAndEnded : Prop :=
  (∀ (o : Op) (s : State) (t : Thread), Executes s t false [] [.x o.dn] → o.dn < 24 →
    let g := groupOf (coreOf s.cur)
    (t.lease = .held → exec (.mlease o) s = .next (s.after t [] (fun x => x.setG o.dn
      (dw ((s.group g).plank.granted - (s.die (dieOfCore (coreOf s.cur))).start))))) ∧
    (t.lease = .none ∨ (t.lease = .lapsed ∧ t.leaseOwe = none) → ∃ s' t', exec (.mlease o) s = .next s' ∧ s'.mem = s.mem ∧
      s'.thread s.cur = some t' ∧ t'.pc = s.npc t ∧ t'.lease = (if t.lease = .none then .requested else .lapsed) ∧
      t'.isOwed (.g o.dn) = true ∧ (∀ m, m ≠ o.dn → t'.gcell m = t.gcell m) ∧
      (g < 128 → (s.group g).plank.holder = none → (s.cycle + 1, ⟨.leaseGrant, .n1 g⟩) ∈ s'.timers)) ∧
    (t.lease = .requested ∨ (t.lease = .lapsed ∧ t.leaseOwe ≠ none) → exec (.mlease o) s = .next (s.parkThread s.cur .lease false))) ∧
  (∀ (s : State) (t : Thread), Executes s t false [] [] →
    let g := groupOf (coreOf s.cur)
    (t.lease = .none → exec .mrels s = .next (s.taken t [])) ∧
    (t.lease ≠ .none → t.leaseOwe = none → ∃ s', exec .mrels s = .next s' ∧ s'.mem = s.mem ∧
      s'.thread s.cur = some { t with pc := s.npc t, lease := .none } ∧
      ((s.group g).plank.holder = some t.tid → (s'.group g).plank.holder = none) ∧
      (s'.group g).plank.queue = (s.group g).plank.queue)) ∧
  (∀ (s : State) (g : Key), s.arg = .n1 g → (s.group g).plank.holder = none → s.leaseWaiters g ≠ [] →
    ∃ s' w, exec .leaseGrant s = .next s' ∧ w ∈ s.leaseWaiters g ∧
      (∀ x ∈ s.leaseWaiters g, afterLast (s.group g).plank.lastKey w.1 ≤ afterLast (s.group g).plank.lastKey x.1) ∧
      (s'.group g).plank = { (s.group g).plank with
        holder := some w.2, lastKey := w.1, granted := s.cycle, since := s.cycle, cmds := 0 } ∧
      (s.cycle + 65536, ⟨.leaseCycleLimit, .n2 g s.cycle⟩) ∈ s'.timers ∧ s'.mem = s.mem ∧
      ∀ k t, InSlot s k t w.2 →
        (t.leaseOwe = none → s'.thread k = some { t with lease := .held, leaseOwe := none }) ∧
        (∀ d i, t.leaseOwe = some (d, i) → s'.thread k = some { t.setG d (dw (s.cycle - (s.die (dieOfGroup g)).start)) with
          lease := .held, leaseOwe := none })) ∧
  (∀ (s : State) (g : Key) (tid : Nat), s.arg = .n2 g (s.group g).plank.since → (s.group g).plank.holder = some tid →
    (s.switching g = true → exec .leaseCycleLimit s = .next s) ∧
    (s.switching g = false → s.leaseWaiters g = [] → ∃ s', exec .leaseCycleLimit s = .next s' ∧ s'.threads = s.threads ∧ s'.mem = s.mem ∧
      (s'.group g).plank = { (s.group g).plank with granted := s.cycle, since := s.cycle, cmds := 0 }) ∧
    (s.switching g = false → s.leaseWaiters g ≠ [] → ∃ s', exec .leaseCycleLimit s = .next s' ∧ s'.mem = s.mem ∧
      (s'.group g).plank = { (s.group g).plank with holder := none } ∧
      ∀ k t, InSlot s k t tid → s'.thread k = some { t with lease := .lapsed }))

/-- R220, R226 to R229: a Plank command whose fields are in range reads its operands and holds its thread for acceptance; without a
lease asked for it traps with NOLEASE.
R220, R224, R221: acceptance by the holder's Plank enters the command in its queue of 16, counts it toward the lease, numbers it,
pops the address of a command that takes it from the FIFO, and lets its thread go on; the first of an empty queue starts.
R18, R222: a due multiply command starts if the module's draw with it stays within the budget, else it waits a cycle, which is
counted once. -/
def Obligations.PlankCommandsAreHeldAndAccepted : Prop :=
  ((∀ (o : OpP) (s : State) (t : Thread), t.lease = .none →
    (Executes s t false (blockSrcs .mldw o) [] → exec (.mldw o) s = .next (s.takeTrap s.cur causeNOLEASE 0 0)) ∧
    (Executes s t false (blockSrcs .mmul o) [] → exec (.mmul o) s = .next (s.takeTrap s.cur causeNOLEASE 0 0)) ∧
    (Executes s t false (blockSrcs .mmuls o) [] → exec (.mmuls o) s = .next (s.takeTrap s.cur causeNOLEASE 0 0)) ∧
    (Executes s t false (blockSrcs .mdrain o) [] → exec (.mdrain o) s = .next (s.takeTrap s.cur causeNOLEASE 0 0)) ∧
    (Executes s t false [] [] → exec .mzero s = .next (s.takeTrap s.cur causeNOLEASE 0 0))) ∧
  (∀ (s : State) (t : Thread), Executes s t false [] [] → PlankReady s t → exec .mzero s = holdsPlank s t (s.taken t []) .zero false) ∧
  (∀ (o : OpP) (s : State) (t : Thread), PlankReady s t →
    (let f := (s.cx t).field .mldw o
     let src := f 0 % 2 ^ 56
     Executes s t false (blockSrcs .mldw o) [] → (∃ r, s.checks s.cur t src (f 1) 1 .rd = .ok r) → 0 < f 1 → f 1 % 32 = 0 →
       32 * f 2 + f 1 ≤ 0x200000 → src % 32 = 0 →
       exec (.mldw o) s = holdsPlank s t ((s.taken t (blockSrcs .mldw o)).usePlb (coreOf s.cur) t.domN src (f 1)) (.ldw src (f 1) (f 2))
         false) ∧
    (∀ m : Bool, let name := if m then Mnem.mmuls else .mmul
     let f := (s.cx t).field name o
     let rows := bits (f 3) 15 8
     let cols := bits (f 3) 7 0
     Executes s t false (blockSrcs name o) [] → 64 ≤ f 4 → f 4 % 64 = 0 → 1 ≤ rows → rows ≤ 64 → 1 ≤ cols → cols ≤ 64 → f 6 < 4 →
       (bit (f 6) 1 = true → f 0 = 0) →
       exec (if m then .mmuls o else .mmul o) s = holdsPlank s t (s.taken t (blockSrcs name o))
         (.mul m (bit (f 6) 0) (f 0 % 2 ^ 56) (f 2) (f 1) (f 4) rows cols (f 5)) (bit (f 6) 1)) ∧
    (let f := (s.cx t).field .mdrain o
     let rows := bits (f 1) 15 8
     let cols := bits (f 1) 7 0
     Executes s t false (blockSrcs .mdrain o) [] → 1 ≤ rows → rows ≤ 64 → 1 ≤ cols → cols ≤ 64 → f 4 < 8 →
       (bit (f 4) 2 = true → f 0 = 0) →
       exec (.mdrain o) s = holdsPlank s t (s.taken t (blockSrcs .mdrain o)) (.drain (f 0 % 2 ^ 56) (f 2) rows cols
         (if o.o.rnd = 0 then 1 else o.o.rnd.toNat) (bit (f 4) 0) (bit (f 4) 1)) (bit (f 4) 2)))) ∧
  (∀ (s : State) (k : Key) (t : Thread) (p p' : PlankCmd) (fifo : Bool), s.arg = .n1 k → s.thread k = some t →
    t.run = .parked .plankAccept → t.pend = some (.plank p fifo) →
    let g := groupOf (coreOf k)
    let pl := (s.group g).plank
    let popped := if fifo then (t.fifoOf 2).head? else none
    pl.retired = false → t.lease = .held → pl.queue.length < 16 → s.releasedNow k t .die = true → (fifo = true → popped.isSome = true) →
    s.acceptPlank p popped = .ok p' →
    (s.ownedElsewhere p'.own (.plank g) = true → exec .plankAccept s = .next (s.retry .plankAccept (.n1 k))) ∧
    (s.ownedElsewhere p'.own (.plank g) = false → pl.cmds + 1 ≠ 64 → ∃ s' t', exec .plankAccept s = .next s' ∧ s'.mem = s.mem ∧ (s'.group g).plank.cmds = pl.cmds + 1 ∧ s'.thread k = some t' ∧
      t' = { t with pc := t.npc, run := .ready, readyAt := s.cycle + 2, pend := none, plankSeq := t.plankSeq + 1, fifo := t'.fifo } ∧
      (fifo = false → t'.fifo = t.fifo) ∧ (fifo = true → t'.fifoOf 2 = (t.fifoOf 2).drop 1) ∧
      (pl.queue ≠ [] → (s'.group g).plank.queue = pl.queue ++ [p']) ∧
      (pl.queue = [] → s.plankFree g = true →
        (isMultiply p'.op = false → (s'.group g).plank.queue = [{ p' with started := true }] ∧ isDue s' ⟨.plankCommandEnd, .n1 g⟩) ∧
        (isMultiply p'.op = true → (s'.group g).plank.queue = [p'] ∧ isDue s' ⟨.governorStart, .none⟩)))) ∧
  (∀ (s : State) (g : Key) (p : PlankCmd) (l : List PlankCmd), (s.groups.map (·.1)).Nodup → (s.group g).plank.queue = p :: l →
    isMultiply p.op = true → p.started = false → s.plankFree g = true → (∀ g', g' ≠ g → ¬ MultiplyDue s g') →
    (s.draw + p.draw ≤ s.io.budget → ∃ s', exec .governorStart s = .next s' ∧ s'.mem = s.mem ∧ s'.threads = s.threads ∧
      (s'.group g).plank = { (s.group g).plank with queue := { p with started := true } :: l, gov := false } ∧
      isDue s' ⟨.plankCommandEnd, .n1 g⟩) ∧
    (s.io.budget < s.draw + p.draw → ∃ s', exec .governorStart s = .next s' ∧ s'.mem = s.mem ∧ s'.threads = s.threads ∧
      (s'.group g).plank = { (s.group g).plank with gov := true, govAt := s.cycle + 1, govDelay :=
        if (s.group g).plank.govAt = s.cycle + 1 then (s.group g).plank.govDelay else (s.group g).plank.govDelay + 1 } ∧
      (s.cycle + 1, ⟨.governorStart, .none⟩) ∈ s'.timers))

/-- R209 to R213, R221, R226 to R229, R393: what the Plank's commands do, step by step: MZERO empties every accumulator; MLDW brings up to
256 bytes at a time and the bank's format into the weight buffer; a multiply command adds the products of row i and column j to
accumulator (i, j), or finds a conflict and ends with status 4; MDRAIN writes unit after unit, in the order of rows and columns, an
accumulator as an ACC object or rounded, or 16 of them as a batt; a command ends once its writes have drained (R111).
R393: an uncorrectable error in the accumulators of the running command's tile leaves them EMPTY; one in its part of the weight
buffer leaves the tile as the chunks before the failed word left it, and the touched segments without a format; the command ends with
status 1. -/
def Obligations.PlankCommandsHaveTheirEffect : Prop :=
  (∀ (s : State) (g : Key) (p : PlankCmd) (l : List PlankCmd), PlankRuns s g p l →
    let pl := (s.group g).plank
    let drained := s.draining (1024 + g) = false
    (p.op = .zero → drained → ∃ s', exec .plankCommandEnd s = .next s' ∧ PlankEnds s s' g p l 0 0 ∧ s'.mem = s.mem ∧
      ∀ i, mget (s'.group g).plank.acc i = none) ∧
    (∀ src len woff loc, p.op = .ldw src len woff → p.done < len →
      let n := min 256 (len - p.done)
      let off := 32 * woff + p.done
      s.plankPlaces g p .rd (src + p.done) n = .ok [⟨src + p.done, loc, n, 0⟩] →
      ∃ s', exec .plankCommandEnd s = .next s' ∧ s'.mem = s.mem ∧ (s'.group g).plank.acc = pl.acc ∧
        (s'.group g).plank.queue = { p with done := p.done + n } :: l ∧ (s.cycle + 1, ⟨.plankCommandEnd, .n1 g⟩) ∈ s'.timers ∧
        (cellsWf 0 pl.wbuf = true → ∀ a, cellGet (s'.group g).plank.wbuf a =
          if off ≤ a ∧ a < off + n then s.mem.byte (loc + (a - off)) else cellGet pl.wbuf a) ∧
        ∀ i < n, mget (s'.group g).plank.segFmt ((off + i) / 65536) = some p.fa) ∧
    (∀ src len woff, p.op = .ldw src len woff → len ≤ p.done → drained → ∃ s', exec .plankCommandEnd s = .next s' ∧
      PlankEnds s s' g p l 0 0 ∧ s'.mem = s.mem ∧ (s'.group g).plank.wbuf = pl.wbuf) ∧
    (∀ sp z a ap bp k rows cols woff, p.op = .mul sp z a ap bp k rows cols woff → cols ≤ 64 → drained →
      let fp64 := bfFmt p.fa.toNat == 8
      let clash := ∃ i < rows, ∃ j < cols, ∃ x, mget pl.acc (i * 64 + j) = some x ∧ x.conflicts fp64 = true
      (z = false → clash → ∃ s', exec .plankCommandEnd s = .next s' ∧ PlankEnds s s' g p l 4 0 ∧ s'.mem = s.mem ∧
        (s'.group g).plank.acc = pl.acc) ∧
      ((z = false → ¬ clash) → (∀ i < rows, (rowOf s g p a ap k i).err = none) →
        ∃ s' fl, exec .plankCommandEnd s = .next s' ∧ PlankEnds s s' g p l 0 fl ∧ s'.mem = s.mem ∧
          (∀ i < rows, ∀ j < cols, mget (s'.group g).plank.acc (i * 64 + j) =
            (cellAfter fp64 (if z then none else mget pl.acc (i * 64 + j))
              ((rowOf s g p a ap k i).chunks.flatten.zip (columnOf s g p bp k woff j).chunks.flatten)).1) ∧
          ∀ x, (∀ i < rows, ∀ j < cols, x ≠ i * 64 + j) → mget (s'.group g).plank.acc x = mget pl.acc x)) ∧
    (∀ dst dp rows cols rnd round clear, p.op = .drain dst dp rows cols rnd round clear →
      (∀ u loc, p.nextUnit pl.acc dst dp rows cols rnd round = some u → s.plankPlaces g p .wr u.va u.n = .ok [⟨u.va, loc, u.n, 0⟩] →
        ∃ s', exec .plankCommandEnd s = .next s' ∧ Stored s.mem s'.mem loc u.n u.v ∧
          (s'.group g).plank.queue = { p with done := p.done + 1, flags := p.flags ||| u.fl, got := [] } :: l ∧
          (s.cycle + 1, ⟨.plankCommandEnd, .n1 g⟩) ∈ s'.timers ∧
          (∀ i, mget (s'.group g).plank.acc i = if clear = true ∧ i ∈ u.keys then none else mget pl.acc i)) ∧
      (p.nextUnit pl.acc dst dp rows cols rnd round = none → drained → ∃ s', exec .plankCommandEnd s = .next s' ∧
        PlankEnds s s' g p l 0 p.flags ∧ s'.mem = s.mem ∧ (s'.group g).plank.acc = pl.acc))) ∧
  (∀ (p : PlankCmd) (acc : Map Accu) (dst dp rows cols rnd : Nat), 0 < cols →
    let i := p.done / cols
    let j := p.done % cols
    let f := p.fa.toNat
    let obj := accObject (mget acc (i * 64 + j))
    let ty := fmtNumTy (bfFmt f)
    let x := accExact (mget acc (i * 64 + j))
    let r := ty.encode (rmode rnd) (bfSat f) x.1
    p.nextUnit acc dst dp rows cols rnd false =
      (if p.done < rows * cols then some ⟨dst + i * dp + 128 * j, 96, obj.1, [i * 64 + j], obj.2⟩ else none) ∧
    (bfFmt f ≠ 11 → p.nextUnit acc dst dp rows cols rnd true =
      if p.done < rows * cols then some ⟨dst + i * dp + ty.w / 8 * j, ty.w / 8, r.1 % 2 ^ ty.w, [i * 64 + j], r.2 ||| x.2⟩ else none) ∧
    (bfFmt f = 11 → p.nextUnit acc dst dp rows (16 * cols) rnd true =
      let es := (List.range 16).map (fun q => accExact (mget acc (i * 64 + 16 * j + q)))
      let b := toBatt (bfM f) (rmode rnd) (bfSat f) (es.map (·.1))
      if p.done < rows * cols then some ⟨dst + i * dp + 2 * (bfM f + 1) * j, 2 * (bfM f + 1), denseBatt (bfM f) b.1 b.2.1,
        (List.range 16).map (fun q => i * 64 + 16 * j + q), es.foldl (fun a x => a ||| x.2) b.2.2⟩ else none)) ∧
  (∀ (s : State) (g : Key) (p : PlankCmd) (l : List PlankCmd) (st : Nat), s.arg = .n1 g → (s.group g).plank.queue = p :: l →
    p.started = true → p.stalled = none → s.switching g = false → p.ended = some st →
    (s.draining (1024 + g) = false → ∃ s', exec .plankCommandEnd s = .next s' ∧ PlankEnds s s' g p l st p.flags ∧ s'.mem = s.mem) ∧
    (s.draining (1024 + g) = true → ∃ s', exec .plankCommandEnd s = .next s' ∧ isDue s' ⟨.plankCommandEnd, .n1 g⟩ ∧ s'.mem = s.mem ∧
      (s'.group g).plank = (s.group g).plank ∧ s'.threads = s.threads)) ∧
  (∀ (s : State) (g w off : Nat) (p : PlankCmd) (l : List PlankCmd), s.arg = .n3 g w off → (s.group g).plank.queue = p :: l →
    p.started = true → s.draining (1024 + g) = false →
    (w = 0 → ∃ s', exec .plankStateError s = .next s' ∧ PlankEnds s s' g p l 1 p.flags ∧ s'.mem = s.mem ∧
      (∀ i ∈ p.op.tile, mget (s'.group g).plank.acc i = none) ∧
      (∀ i, i ∉ p.op.tile → mget (s'.group g).plank.acc i = mget (s.group g).plank.acc i)) ∧
    (∀ sp z a ap bp k rows cols woff, w ≠ 0 → p.op = .mul sp z a ap bp k rows cols woff → cols ≤ 64 →
      let acc := (s.group g).plank.acc
      let fp64 := bfFmt p.fa.toNat == 8
      let clash := ∃ i < rows, ∃ j < cols, ∃ x, mget acc (i * 64 + j) = some x ∧ x.conflicts fp64 = true
      let bs := s.mulCols g p (fun o => o == off / 8 * 8) woff bp k cols
      let n := bs.foldl (fun m b => min m b.chunks.length) (k / 64)
      ∃ s', exec .plankStateError s = .next s' ∧ PlankEnds s s' g p l 1 p.flags ∧ s'.mem = s.mem ∧
        (∀ j < cols, ∀ x, 32 * woff + j * bp ≤ x → x < 32 * woff + j * bp + fmtLen p.fb.toNat k →
          mget (s'.group g).plank.segFmt (x / 65536) = none) ∧
        (z = false → clash → (s'.group g).plank.acc = acc) ∧
        ((z = false → ¬ clash) → (∀ i < rows, (rowOf s g p a ap k i).err = none) → (∃ b ∈ bs, b.err ≠ none) →
          ∀ i < rows, ∀ j < cols, mget (s'.group g).plank.acc (i * 64 + j) =
            (cellAfter fp64 (if z then none else mget acc (i * 64 + j))
              (((rowOf s g p a ap k i).chunks.take n).flatten.zip ((columnOf s g p bp k woff j).chunks.take n).flatten)).1)))

/-- R230, R234, R178: MSTAT writes the selected count or word, whose status fields are those of R230's table; BFMT writes a bank's
format register and BFMTR reads it. -/
def Obligations.PlankStatusAndBankFormats : Prop :=
  (∀ (o : Op) (s : State) (t : Thread), Executes s t false (o.tx s.q) [.x o.dn] → o.dn < 24 →
    let p := (s.group (groupOf (coreOf s.cur))).plank
    let x := ((s.cx t).tvalZ o).toNat
    ∀ i ∈ [Instr.mstatStatus o, .mstatGovernor o, .mstatCompleted o, .mstatSegment o],
      let gives (v : DW) : Prop := exec i s = .next (s.after t (o.tx s.q) (fun y => y.setG o.dn v))
      (x = 0 → gives (dw (p.status s.cycle t.tid))) ∧ (x = 1 → gives (dw p.govDelay)) ∧ (x = 2 → gives (dw p.completed)) ∧
      (∀ n < 32, x = 256 * n + 3 → gives ((mget p.segFmt n).getD 0)) ∧
      (3 < x % 256 ∨ (256 ≤ x ∧ x % 256 ≠ 3) ∨ 8192 ≤ x → exec i s = .next (s.takeTrap s.cur causeBADOPND 0 0))) ∧
  (∀ (p : Plank) (h cycle tid : Nat), p.holder = some h → p.queue.length ≤ 16 → p.lastKey < 512 → p.cmds ≤ 64 → p.since ≤ cycle →
    cycle ≤ p.since + 65536 →
    let w := p.status cycle tid
    bits w 4 0 = p.queue.length ∧ bit w 5 = p.gov ∧ bit w 6 = (h == tid) ∧ bit w 7 = true ∧ bits w 13 8 = p.lastKey / 8 ∧
    bits w 16 14 = p.lastKey % 8 ∧ bits w 23 17 = 64 - p.cmds ∧ bits w 40 24 = p.since + 65536 - cycle ∧ w < 2 ^ 41) ∧
  (∀ (o : Op) (s : State) (t : Thread), let a := baseAddr s t o
    regionOf a = 0xF0 →
    ((∃ p, s.access s.cur t a 1 1 .wr false = .ok p) → s.acquiring s.cur t = false → Executes s t false (o.sx s.q ++ o.dx s.q) [] →
      bfBad ((s.cx t).dval o).toNat = false →
      ∃ s', exec (.bfmt o) s = .next s' ∧ s'.bankFmt a = ((s.cx t).dval o).toNat ∧ s'.mem = s.mem ∧
        s'.thread s.cur = (s.taken t (o.sx s.q ++ o.dx s.q)).thread s.cur ∧
        ∀ c w, (c, w) ≠ (scratchCl a, scratchWay a) → mget (s'.cluster c).bfmt w = mget (s.cluster c).bfmt w) ∧
    ((∃ p, s.access s.cur t a 1 1 .rd false = .ok p) → s.acquiring s.cur t = false → Executes s t false (o.sx s.q) [.x o.dn] →
      o.dn < 24 → exec (.bfmtr o) s = .next (s.after t (o.sx s.q) (fun x => x.setG o.dn (dw (s.bankFmt a))))))

/-- R240, R254, R256 to R259: LAUNCH and GRAPH fill the lowest free record of their die, for the partition, under the parent their block
names, and owe gd its handle; SPAWN adds a seed and one thread to the issuing launch, and owes gd the thread's index. -/
def Obligations.LaunchesGraphsAndSpawnsAreEntered : Prop :=
  (∀ (o : OpP) (s : State) (t : Thread) (n : Nat),
    let srcs := o.o.sx s.q ++ blockSrcs .launch o
    let f := (s.cx t).field .launch o
    let ctl := ((s.cx t).sval o.o).toNat
    let d := bits ctl 19 16
    let x0 := f 3 % 32
    let y0 := f 3 / 32
    let w := f 2 % 32 + 1
    let h := f 2 / 32 + 1
    let entry (x : Launch) (member : Nat) : Prop :=
      x.c = newCounter (s.launch d n).c.gen t.partN (w * h) ∧ x.parent = BitVec.ofNat 32 (f 4) ∧ x.member = member ∧
      x.deps = BitVec.ofNat 32 (bits ctl 63 32) ∧ x.prio = bits ctl 11 10 ∧ x.x0 = x0 ∧ x.y0 = y0 ∧ x.w = w ∧ x.h = h ∧
      x.entry = target (dw (f 0)) ∧ x.arg = dw (f 1) ∧ x.next = w * h
    Executes s t false srcs [.x o.o.dn] → o.o.dn < 24 → bits ctl 31 20 = 0 → bits ctl 15 12 = 0 → bits ctl 9 0 = 0 → d < 8 → f 2 < 1024 →
    f 3 < 1024 → x0 + w ≤ 32 → y0 + h ≤ 32 → s.rectInPart t.partN d x0 y0 w h = true → s.releasedNow s.cur t .die = true →
    lowestFree (fun i => (s.launch d i).c.used) 1024 0 = some n →
    (∀ p r, checkHandle s t.partN (f 4) = .live (.phase p r) → (s.counter (.phase p r)).done = false →
      (s.counter (.phase p r)).can = false → bits ctl 63 32 = 0 →
      ∃ s' x, exec (.launch o) s = .next s' ∧ s'.mem = s.mem ∧ mget (s'.die d).launches n = some x ∧ entry x 0 ∧ x.stage = .queued ∧
        (s'.die d).lqueues.toList.getD x.prio [] = (s.die d).lqueues.toList.getD x.prio [] ++ [n] ∧
        OwesTo s s' t o.o.dn ((handleOf s (.launch d n)).setWidth 64)) ∧
    (∀ gd g, checkHandle s t.partN (f 4) = .live (.graph gd g) → (s.graph gd g).c.done = false → (s.graph gd g).c.can = false →
      (s.graph gd g).next ≠ (s.graph gd g).nlaunch → bits ctl 63 32 / 2 ^ (s.graph gd g).next = 0 →
      ∃ s' x, exec (.launch o) s = .next s' ∧ s'.mem = s.mem ∧ mget (s'.die d).launches n = some x ∧ entry x (s.graph gd g).next ∧
        (s'.graph gd g).next = (s.graph gd g).next + 1 ∧
        (s'.graph gd g).members = (s.graph gd g).members ++ [handleOf s (.launch d n)] ∧
        OwesTo s s' t o.o.dn ((handleOf s (.launch d n)).setWidth 64))) ∧
  (∀ (o : OpP) (s : State) (t : Thread) (r p q : Nat),
    let n := (s.cx t).field .graph o 0
    let h := (s.cx t).field .graph o 1
    let d := dieOfCore (coreOf s.cur) % 8
    Executes s t false (blockSrcs .graph o) [.x o.o.dn] → o.o.dn < 24 → 1 ≤ n → n ≤ 32 → checkHandle s t.partN h = .live (.phase p q) →
    (s.counter (.phase p q)).done = false → (s.counter (.phase p q)).can = false → s.releasedNow s.cur t .die = true →
    lowestFree (fun i => (s.graph d i).c.used) 256 0 = some r →
    ∃ s', exec (.graph o) s = .next s' ∧ s'.mem = s.mem ∧ OwesTo s s' t o.o.dn ((handleOf s (.graph d r)).setWidth 64) ∧
      mget (s'.die d).graphs r = some ⟨newCounter (s.graph d r).c.gen t.partN n, BitVec.ofNat 32 h, n, 0, [], 0, 0⟩) ∧
  (∀ (o : Op) (s : State) (t : Thread) (d r : Nat),
    let core := coreOf s.cur
    let x := s.launch d r
    Executes s t false (o.sx s.q ++ o.tx s.q) [.x o.dn] → o.dn < 24 → checkHandle s t.partN t.launchid.toNat = .live (.launch d r) →
    x.c.done = false → x.c.can = false → (s.cluster (clusterOf core)).seeds.length < 256 → x.c.count + 1 < 2 ^ 32 →
    ∃ s', exec (.spawn o) s = .next s' ∧ s'.mem = s.mem ∧ OwesTo s s' t o.dn (dw x.next) ∧
      (s'.launch d r).c.count = x.c.count + 1 ∧ (s'.launch d r).next = x.next + 1 ∧
      (s'.cluster (clusterOf core)).seeds = (s.cluster (clusterOf core)).seeds ++
        [⟨core, dw x.next, (s.cx t).tval o, target ((s.cx t).sval o), t.launchid, t.graphid, t.partN⟩])

/-- R242 to R245, R28: a launch whose seeds fit starts, if none has started in the cycle, and gives every core of its rectangle a seed; a free slot goes to the next claim;
a seed's thread starts with its index in g0 and its argument in g1; an ended launch's flush is over once its writes are. -/
def Obligations.LaunchesStartAndTheirThreadsBegin : Prop :=
  (∀ (s : State) (d p r : Nat), s.arg = .n1 d → s.eligibleLaunches d = [] → (s.die d).headLaunch = some (p, r) →
    let x := s.launch d r
    ((s.die d).launchAt = s.cycle + 1 ∨ s.seedsFit d x = false → exec .launchStart s = .next (s.wantLaunch (s.cycle + 1) d)) ∧
    ((s.die d).launchAt ≠ s.cycle + 1 → s.seedsFit d x = true → ∃ s', exec .launchStart s = .next s' ∧ s'.mem = s.mem ∧ s'.threads = s.threads ∧ (s'.launch d r).stage = .started ∧
      (s'.die d).launchAt = s.cycle + 1 ∧
      (s'.die d).lqueues.toList.getD p [] = ((s.die d).lqueues.toList.getD p []).drop 1 ∧
      ∀ i < x.w * x.h, let c := d * 1024 + (x.y0 + i / x.w) * 32 + x.x0 + i % x.w
        ⟨c, dw i, x.arg, x.entry, handleOf s (.launch d r), if bits x.parent.toNat 31 30 = 1 then x.parent else 0, x.c.part⟩ ∈
          (s'.clusterFor x.c.part (clusterOf c)).seeds)) ∧
  (∀ (s : State) (cl : Key), s.arg = .n1 cl →
    (∀ sd k, s.nextClaim cl = some (.seed sd k) → ∃ s', exec .slotAssign s = .next s' ∧ s'.mem = s.mem ∧
      (s'.cluster cl).seeds = (s.cluster cl).seeds.erase sd ∧ k ∈ (s'.cluster (clusterOf (coreOf k))).resSlots ∧
      ⟨.threadStart, .seed k sd⟩ ∈ s'.agenda) ∧
    (∀ core x k, s.nextClaim cl = some (.ctx core x k) → ∃ s', exec .slotAssign s = .next s' ∧ s'.mem = s.mem ∧
      k ∈ (s'.cluster (clusterOf (coreOf k))).resSlots ∧ ⟨.contextRestore, .n3 core x.id k⟩ ∈ s'.agenda) ∧
    (∀ x k, s.nextClaim cl = some (.inbox x k) → ∃ s', exec .slotAssign s = .next s' ∧ s'.mem = s.mem ∧
      s'.thread k = some { x.th.unwait with run := .ready } ∧ ∀ y ∈ (s'.cluster cl).inbox, y.id ≠ x.id)) ∧
  (∀ (s : State) (k : Key) (sd : Seed), s.arg = .seed k sd → s.thread k = none →
    ∃ s' t, exec .threadStart s = .next s' ∧ s'.mem = s.mem ∧ s'.thread k = some t ∧ t.tid = s.nextId ∧ t.run = .ready ∧
      t.pc = sd.entry ∧ (∀ n < 24, t.gv n = (if n = 0 then sd.idx else if n = 1 then sd.arg else 0) ∧ t.isFull (.g n) = true) ∧
      (∀ n < 32, t.pv n = (n == 0) ∧ t.isFull (.p n) = true) ∧ (∀ n < 8, t.vv n = 0 ∧ t.isFull (.v n) = true) ∧
      t.launchid = sd.launch ∧ t.graphid = sd.graph ∧ t.part = BitVec.ofNat 5 sd.part ∧
      t.domain = (s.partn sd.part).pcfg.setWidth 12 ∧ t.ths = 0 ∧ t.waitlim = 0 ∧ t.retrylim = 64 ∧ t.rm = 1 ∧
      (∀ j, j ≠ k → s'.thread j = s.thread j)) ∧
  (∀ (s : State) (part : Nat) (h : BitVec 32) (f : FlushDue), s.arg = .n2 part h.toNat →
    s.flushes.find? (fun f => f.part == part && f.launch == h) = some f → s.launchWrites part h = false →
    ∃ s', exec .releaseFlushDone s = .next s' ∧ s'.mem = s.mem ∧ s'.threads = s.threads ∧
      ∀ x, x ∈ s'.flushes ↔ x ∈ s.flushes ∧ ¬ (x.part = part ∧ x.launch = h))

/-- R260 to R264, R247: EXIT, YIELD, MIGR, and the task instructions: TQPUSH appends its task to the segment its header names, TQPOP takes
the newest task of the own segment and TQSTEAL the oldest of the first nonempty one of its partition that it probes. -/
def Obligations.ThreadAndTaskInstructions : Prop :=
  (∀ (s : State) (t : Thread), Executes s t false [] [] →
    ∃ s' t', exec .exit s = .next s' ∧ s'.mem = s.mem ∧ s'.thread s.cur = some t' ∧ t'.run = .ending ∧ t'.pend = none) ∧
  (∀ (o : Op) (s : State) (t : Thread), Executes s t false (o.tx s.q) [] →
    let x := ((s.cx t).tvalZ o).toNat
    ∀ i ∈ [Instr.yieldSlot o, .yieldTimed o],
      (x = 0 → (s.taken t (o.tx s.q)).claimWaits (coreOf s.cur) = false → exec i s = .next (s.taken t (o.tx s.q))) ∧
      (x = 0 → (s.taken t (o.tx s.q)).claimWaits (coreOf s.cur) = true → ∃ s' t', exec i s = .next s' ∧ s'.mem = s.mem ∧
        s'.thread s.cur = some t' ∧ t'.run = .parked (.yield s.nextId) ∧ t'.waitId = s.nextId ∧ t'.leaving = some false ∧ t'.g = t.g ∧
        ⟨.contextSwapOut, .n2 s.cur t.tid⟩ ∈ s'.agenda ∧ (s.cycle + 256, ⟨.yieldReadyTimeout, .n2 t.tid s.nextId⟩) ∈ s'.timers) ∧
      (0 < x → x < 2 ^ 32 → ∃ s' t', exec i s = .next s' ∧ s'.mem = s.mem ∧ s'.thread s.cur = some t' ∧ t'.pc = s.npc t ∧
        t'.run = .parked (.cycle (s.cycleOf (coreOf s.cur) + x)) ∧ t'.waitId = s.nextId ∧ t'.leaving = t.leaving ∧ t'.g = t.g ∧
        (s.cycle + x, ⟨.yieldDeadline, .n2 t.tid s.nextId⟩) ∈ s'.timers) ∧
      (2 ^ 32 ≤ x → exec i s = .next (s.takeTrap s.cur causeBADOPND 0 0))) ∧
  (∀ (o : Op) (s : State) (t : Thread), Executes s t false (o.sx s.q) [] →
    let on := ((s.cx t).sval o).getLsbD 0
    ((on = true → t.thsBit 11 = false) → exec (.migr o) s = .next (s.after t (o.sx s.q) (fun x => x.setThs 10 on))) ∧
    (on = true → t.thsBit 11 = true → exec (.migr o) s = .next (s.takeTrap s.cur causeBADOPND 0 0))) ∧
  (∀ (o : Op) (s : State) (t : Thread), o.sn + 3 < 24 →
    let srcs := (List.range 4).map (fun i => Src.x (o.sn + i) 0 s.q.ts)
    let hdr := (t.gv o.sn).toNat
    let ring := s.ring t.partN
    let own := clusterOf (coreOf s.cur)
    let cl := if bit hdr 31 then own else ring.getD (bits hdr 23 0 % ring.length) own
    Executes s t false srcs [] → bits hdr 47 32 = 0 → bits hdr 30 24 = 0 → s.releasedNow s.cur t .die = true →
    (s.clusterFor t.partN cl).tasks.length < 1024 →
    ∃ s', exec (.tqpush o) s = .next s' ∧ s'.mem = s.mem ∧ s'.thread s.cur = (s.taken t srcs).thread s.cur ∧
      (s'.clusterFor t.partN cl).tasks = (s.clusterFor t.partN cl).tasks ++ [[t.gv o.sn, t.gv (o.sn + 1), t.gv (o.sn + 2), t.gv (o.sn + 3)]] ∧
      ∀ c, c ≠ cl → (s'.clusterFor t.partN c).tasks = (s.clusterFor t.partN c).tasks) ∧
  (∀ (o : Op) (s : State) (t : Thread), o.dn + 3 < 24 → s.acquiring s.cur t = false →
    Executes s t false [] ((List.range 4).map (fun i => Dst.x (o.dn + i)) ++ [.p o.sn]) →
    let own := clusterOf (coreOf s.cur)
    let l := (s.cluster own).tasks
    let ring := s.ring t.partN
    let others := ring.drop (ring.idxOf own + 1) ++ ring.take (ring.idxOf own)
    (∃ s', exec (.tqpop o) s = .next s' ∧ s'.mem = s.mem ∧ OwesTask s s' o.dn o.sn l.getLast? ∧ (s'.cluster own).tasks = l.dropLast) ∧
    ((∀ c ∈ others, (s.clusterFor t.partN c).tasks = []) → ∃ s', exec (.tqsteal o) s = .next s' ∧ s'.mem = s.mem ∧
      OwesTask s s' o.dn o.sn none ∧ s'.clusters = s.clusters) ∧
    (∀ a c b, others = a ++ c :: b → (∀ x ∈ a, (s.clusterFor t.partN x).tasks = []) → (s.clusterFor t.partN c).tasks ≠ [] →
      ∃ s', exec (.tqsteal o) s = .next s' ∧ s'.mem = s.mem ∧ OwesTask s s' o.dn o.sn (s.clusterFor t.partN c).tasks.head? ∧
        (s'.clusterFor t.partN c).tasks = (s.clusterFor t.partN c).tasks.drop 1))

/-- R238, R239, R255, R265 to R268: CCINIT makes a phase counter, or the job's on a service core; CCADD's adjustment is applied at the
counter's record, after those of its cycle that come before it, and its result is the old COUNT, or a refusal with bit 63; CCWAIT gives the status of an ended level, else its thread waits; CCAN cancels a level. -/
def Obligations.CompletionCounters : Prop :=
  (∀ (o : Op) (s : State) (t : Thread), Executes s t false (o.sx s.q ++ o.tx s.q) [.x o.dn] → o.dn < 24 →
    let x := ((s.cx t).tvalZ o).toNat
    let n := ((s.cx t).sval o).toNat
    let job := s.counter (.job t.partN)
    0 < n → n < 2 ^ 32 → ∀ i ∈ [Instr.ccinitPhase o, .ccinitJob o],
      (x = 2 → job.done = false → job.can = false → job.count + 1 < 2 ^ 32 →
        ∀ r, lowestFree (fun i => (s.counter (.phase t.partN i)).used) 64 0 = some r →
        ∃ s', exec i s = .next s' ∧ s'.mem = s.mem ∧ OwesTo s s' t o.dn ((handleOf s (.phase t.partN r)).setWidth 64) ∧
          s'.counter (.phase t.partN r) = newCounter (s.counter (.phase t.partN r)).gen t.partN n ∧
          (s'.counter (.job t.partN)).count = job.count + 1) ∧
      (x = 3 → isService (coreOf s.cur) = true → ∃ s' c, exec i s = .next s' ∧ s'.mem = s.mem ∧ OwesTo s s' t o.dn 0xC0000000 ∧
        s'.counter (.job t.partN) = c ∧ c = { newCounter job.gen t.partN n with waiters := job.waiters }) ∧
      (x ≠ 2 → (x = 3 → isService (coreOf s.cur) = false) → exec i s = .next (s.takeTrap s.cur causeBADOPND 0 0))) ∧
  (∀ (o : Op) (s : State) (t : Thread), Executes s t false (o.sx s.q ++ o.tx s.q) [.x o.dn] → o.dn < 24 →
    s.releasedNow s.cur t .die = true →
    let h := ((s.cx t).sval o).toNat
    (checkHandle s t.partN h = .stale → ∃ s', exec (.ccadd o) s = .next s' ∧ s'.mem = s.mem ∧
      OwesTo s s' t o.dn 0x8000000000000000) ∧
    (∀ l, checkHandle s t.partN h = .live l → (∀ x ∈ s.owed, x.id < s.nextId) →
      ∃ s' t' e, exec (.ccadd o) s = .next s' ∧ s'.mem = s.mem ∧ s'.owed = s.owed ++ [e] ∧ e.id = s.nextId ∧ e.k = s.cur ∧
        e.adj = some ⟨((s.cx t).sval o).setWidth 32, t.partN, ((s.cx t).tval o).toInt, coreOf s.cur, s.cycle⟩ ∧
        e.writes.map (·.1) = [.g o.dn] ∧ e.out = none ∧ s'.counter l = s.counter l ∧ ⟨.owedResultWrite, .n1 e.id⟩ ∈ s'.agenda ∧
        s'.thread s.cur = some t' ∧ t'.pc = s.npc t ∧ t'.isOwed (.g o.dn) = true ∧ ∀ m, m ≠ o.dn → t'.gcell m = t.gcell m)) ∧
  (∀ (s : State) (e : Owed) (a : Adj) (t : Thread) (d : Nat) (w : VReg), s.arg = .n1 e.id → s.owed.find? (fun x => x.id == e.id) = some e →
    e.adj = some a → e.writes = [(.g d, w)] → e.out = none → d < 24 → s.thread e.k = some t →
    (s.adjustedLater a = true → exec .owedResultWrite s = .next (s.push .owedResultWrite (.n1 e.id))) ∧
    (s.adjustedLater a = false → ∀ l, checkHandle s a.part a.h.toNat = .live l →
      let c := s.counter l
      let n := (c.count : Int) + a.t
      let gives (v : DW) (f : Counter → Prop) : Prop := ∃ s', exec .owedResultWrite s = .next s' ∧ s'.mem = s.mem ∧
        s'.thread e.k = some ((t.orFlags e.flags).setG d v) ∧ (∀ x ∈ s'.owed, x.id ≠ e.id) ∧ f (s'.counter l)
      (c.done = false → 0 < n → n < 2 ^ 32 → gives (dw c.count) (fun x => x = { c with count := n.toNat })) ∧
      (c.done = true → gives (0x8000000000000000 ||| dw c.count) (fun x => x = c)) ∧
      (c.done = false → n < 0 ∨ 2 ^ 32 ≤ n → gives (0x8000000000000000 ||| dw c.count) (fun x => x.count = c.count ∧ x.fault = true ∧
        x.fcause = (if c.fault then c.fcause else BitVec.ofNat 8 causeBADCOUNT) ∧ x.fcnt = min (c.fcnt + 1) 4294967295)))) ∧
  (∀ (o : Op) (s : State) (t : Thread), Executes s t false (o.sx s.q) [.x o.dn] → o.dn < 24 →
    let h := ((s.cx t).sval o).toNat
    (checkHandle s t.partN h = .stale → exec (.ccwait o) s = .next (s.after t (o.sx s.q) (fun x => x.setG o.dn 1))) ∧
    (checkHandle s t.partN h = .bad → exec (.ccwait o) s = .next (s.takeTrap s.cur causeBADOPND 0 0)) ∧
    (checkHandle s t.partN h = .prot → exec (.ccwait o) s = .next (s.takeTrap s.cur causePROT h 0)) ∧
    (∀ l, checkHandle s t.partN h = .live l →
      let c := s.counter l
      (s.levelOver l (dieOfCore (coreOf s.cur)) = true → ∃ s', exec (.ccwait o) s = .next s' ∧ s'.mem = s.mem ∧
        s'.thread s.cur = (s.after t (o.sx s.q) (fun x => x.setG o.dn (dw c.status))).thread s.cur ∧
        ∀ w ∈ (s'.counter l).waiters, w ≠ t.tid) ∧
      (s.levelOver l (dieOfCore (coreOf s.cur)) = false → t.tid ∉ c.waiters → c.waiters.length < 64 →
        ∃ s', exec (.ccwait o) s = .next s' ∧ s'.mem = s.mem ∧ (s'.counter l).waiters = c.waiters ++ [t.tid] ∧
          ∃ t', s'.thread s.cur = some t' ∧ t'.pc = t.pc ∧ t'.run = .parked (.counter (BitVec.ofNat 32 h)) ∧ t'.g = t.g))) ∧
  (∀ (c : Counter), c.fcnt < 2 ^ 32 → bit c.status 0 = c.done ∧ bit c.status 1 = c.can ∧ bit c.status 2 = c.fault ∧
    bits c.status 31 24 = c.fcause.toNat ∧ bits c.status 63 32 = c.fcnt) ∧
  (∀ (o : Op) (s : State) (t : Thread), Executes s t false (o.sx s.q) [] →
    let h := ((s.cx t).sval o).toNat
    (checkHandle s t.partN h = .stale → exec (.ccan o) s = .next (s.taken t (o.sx s.q))) ∧
    (∀ l, checkHandle s t.partN h = .live l → (s.counter l).done = true → exec (.ccan o) s = .next (s.taken t (o.sx s.q))) ∧
    (∀ p, checkHandle s t.partN h = .live (.job p) → (s.counter (.job p)).done = false →
      (∀ r ∈ (s.partn p).phases, r.2.used = false ∨ r.2.done = true) → s.io.evCore ≠ coreOf s.cur →
      ∃ s', exec (.ccan o) s = .next s' ∧ s'.mem = s.mem ∧ (s'.counter (.job p)).can = true ∧ (s'.counter (.job p)).done = true ∧
        (s'.core s.io.evCore).evq = (s.core s.io.evCore).evq ++ [dw (evHeader 8 0 (p * 2 ^ 32)), dw (evHeader 6 1 (p * 2 ^ 32)),
          dw (s'.counter (.job p)).status]))

/-- R249, R250, R269, R270: BSET writes a barrier register's fields and gives its old value; BAR counts an arrival and sets the thread's
target epoch, and CNT returns to 0 in the cycle after it reached NARR; BARW gives the epoch once the target is reached, else waits; completions sweep the rectangle to its corner, whose releases,
if every core holds the same value, move every core to the next epoch. -/
def Obligations.BarriersArriveSweepAndRelease : Prop :=
  (∀ (o : Op) (s : State) (t : Thread), Executes s t false (o.sx s.q ++ o.tx s.q) [.x o.dn] → o.dn < 24 →
    let x := ((s.cx t).tvalZ o).toNat
    let core := coreOf s.cur
    let v := (s.cx t).sval o
    ∀ i ∈ [Instr.bsetRead o, .bsetWrite o],
      (x < 4 → exec i s = .next (s.after t (o.sx s.q ++ o.tx s.q) (fun y => y.setG o.dn ((s.core core).bar x).reg))) ∧
      (∀ n < 4, x = 4 + n → s.bsetBad core t.partN n v = false → ∃ s', exec i s = .next s' ∧ s'.mem = s.mem ∧
        ((s'.core core).bar n).reg = (((s.core core).bar n).reg &&& ~~~barFields) ||| (v &&& barFields) ∧
        s'.thread s.cur = (s.after t (o.sx s.q ++ o.tx s.q) (fun y => y.setG o.dn ((s.core core).bar n).reg)).thread s.cur) ∧
      (∀ n < 4, x = 4 + n → s.bsetBad core t.partN n v = true → exec i s = .next (s.takeTrap s.cur causeBADOPND 0 0)) ∧
      (8 ≤ x → exec i s = .next (s.takeTrap s.cur causeBADOPND 0 0))) ∧
  (∀ (o : Op) (s : State) (t : Thread) (n : Nat), n < 4 → ((s.cx t).tvalZ o).toNat = n → Executes s t false (o.tx s.q) [] →
    let core := coreOf s.cur
    let b := (s.core core).bar n
    barNarr b.reg ≠ 0 → b.heldArr = false → s.releasedNow s.cur t .die = true →
    ∃ s' t', exec (.bar o) s = .next s' ∧ s'.mem = s.mem ∧ s'.thread s.cur = some t' ∧ t'.pc = s.npc t ∧ t'.g = t.g ∧
      t'.tgt.toList.getD n none = some ((b.epoch + (if b.arrived then 2 else 1)) % 256) ∧
      (barCnt b.reg + 1 ≠ barNarr b.reg → (s'.core core).bar n = { b with reg := barSetCnt b.reg (barCnt b.reg + 1) }) ∧
      (barCnt b.reg + 1 = barNarr b.reg → b.arrived = true → ((s'.core core).bar n).heldArr = true) ∧
      (barCnt b.reg + 1 = barNarr b.reg → b.arrived = false →
        ((s'.core core).bar n).arrived = true ∧ barCnt ((s'.core core).bar n).reg = barNarr b.reg)) ∧
  (∀ (s : State) (core n : Nat), n < 4 →
    let b := (s.core core).bar n
    ((s.settleBars).core core).bar n =
      if barNarr b.reg ≠ 0 ∧ barCnt b.reg = barNarr b.reg ∧ b.heldArr = false then { b with reg := barSetCnt b.reg 0 } else b) ∧
  (∀ (o : Op) (s : State) (t : Thread) (n : Nat), n < 4 → ((s.cx t).tvalZ o).toNat = n → Executes s t false (o.tx s.q) [.x o.dn] →
    o.dn < 24 →
    let b := (s.core (coreOf s.cur)).bar n
    let e := (t.tgt.toList.getD n none).getD ((b.epoch + 1) % 256)
    barNarr b.reg ≠ 0 →
    ((b.epoch + 256 - e) % 256 < 128 → exec (.barw o) s = .next (s.after t (o.tx s.q) (fun x =>
      { x.setG o.dn (dw b.epoch) with tgt := x.tgt.setIfInBounds n none }))) ∧
    (128 ≤ (b.epoch + 256 - e) % 256 → exec (.barw o) s = .next (s.parkThread s.cur (.barrier n e) true))) ∧
  (∀ (s : State) (core n : Nat), n < 4 → s.arg = .n2 core n →
    let b := (s.core core).bar n
    (∃ s', exec .barrierRowCompletion s = .next s' ∧ s'.mem = s.mem ∧ s'.threads = s.threads ∧
      (s'.core core).bar n = { b with rowIn := true } ∧
      (b.arrived = true → barX0 b.reg < coreX core → (s.cycle + 1, ⟨.barrierRowCompletion, .n2 (core - 1) n⟩) ∈ s'.timers)) ∧
    (∃ s', exec .barrierColumnCompletion s = .next s' ∧ s'.mem = s.mem ∧ s'.threads = s.threads ∧
      (s'.core core).bar n = { b with colIn := true } ∧
      (b.rowDone (coreX core) = true → barY0 b.reg < coreY core →
        (s.cycle + 1, ⟨.barrierColumnCompletion, .n2 (core - 32) n⟩) ∈ s'.timers) ∧
      (b.rowDone (coreX core) = true → coreY core ≤ barY0 b.reg → s.barEqual core n = false → s'.timers = s.timers) ∧
      (b.rowDone (coreX core) = true → coreY core ≤ barY0 b.reg → s.barEqual core n = true → ∀ i < barW b.reg * barH b.reg,
        (s.cycle + (i % barW b.reg + i / barW b.reg) + barStep b.reg * i, ⟨.barrierRelease, .n3
          (dieOfCore core * 1024 + (barY0 b.reg + i / barW b.reg) * 32 + barX0 b.reg + i % barW b.reg) n 0⟩) ∈ s'.timers))) ∧
  (∀ (s : State) (core n : Nat), n < 4 →
    let b := (s.core core).bar n
    (s.arg = .n3 core n 0 → ∃ s' b', exec .barrierRelease s = .next s' ∧ s'.mem = s.mem ∧ s'.threads = s.threads ∧
      (s'.core core).bar n = b' ∧ b'.epoch = (b.epoch + 1) % 256 ∧ b'.arrived = false ∧ b'.rowIn = false ∧ b'.colIn = false ∧
      b'.heldArr = b.heldArr ∧ b'.reg &&& ~~~0xFF00000000 = b.reg &&& ~~~0xFF00000000 ∧
      (b.heldArr = true → (s.cycle + 1, ⟨.barrierRelease, .n3 core n 1⟩) ∈ s'.timers)) ∧
    (s.arg = .n3 core n 1 → b.heldArr = true → ∃ s', exec .barrierRelease s = .next s' ∧ s'.mem = s.mem ∧ s'.threads = s.threads ∧
      ((s'.core core).bar n).heldArr = false ∧ ((s'.core core).bar n).arrived = true ∧ barCnt ((s'.core core).bar n).reg = 0))

/-- R21, R245, R248, R252, R261, R267: a context leaves its slot for its core's cache once it may, and comes back to a slot; a migrating
thread is given a place and takes it with the slot state of a thread's start; the waits that a cycle or a resend ends. -/
def Obligations.ContextsLeaveReturnAndMigrate : Prop :=
  (∀ (s : State) (k : Key) (t : Thread) (hold : Bool), s.arg = .n2 k t.tid → s.thread k = some t → t.leaving = some hold →
    t.thsBit 15 = false → t.run ≠ .ending →
    (t.mayLeave = true → s.settled k t = true → (s.core (coreOf k)).cache.length < 8 → ∃ s' x, exec .contextSwapOut s = .next s' ∧
      s'.mem = s.mem ∧ s'.thread k = none ∧ (s'.core (coreOf k)).cache = (s.core (coreOf k)).cache ++ [x] ∧ x.slot = k ∧
      x.hold = hold ∧ x.ready = none ∧ x.th = { t with duty := [], leaving := none } ∧
      (∀ j, j ≠ k → s'.thread j = s.thread j)) ∧
    (t.mayLeave = false ∨ s.settled k t = false → ∃ s', exec .contextSwapOut s = .next s' ∧ s'.threads = s.threads ∧
      (s.cycle + 1, ⟨.contextSwapOut, .n2 k t.tid⟩) ∈ s'.timers)) ∧
  (∀ (s : State) (core k : Key) (x : Ctx), s.arg = .n3 core x.id k → s.thread k = none →
    ((s.core core).cache ++ (s.core core).backing).find? (fun y => y.id == x.id) = some x →
    ∃ s', exec .contextRestore s = .next s' ∧ s'.mem = s.mem ∧ s'.thread k = some x.th ∧
      ∀ y ∈ (s'.core core).cache ++ (s'.core core).backing, y.id ≠ x.id) ∧
  (∀ (s : State) (k cl : Key) (t : Thread), s.arg = .n2 k cl → s.thread k = some t → t.run = .parked (.migrate cl) →
    (s.severed k cl = true → exec .migrationReservation s = .next (s.wakeThread k)) ∧
    (s.severed k cl = false → ∀ j, s.clusterSlot cl = some j → ∃ s', exec .migrationReservation s = .next s' ∧ s'.threads = s.threads ∧
      j ∈ (s'.cluster (clusterOf (coreOf j))).resSlots ∧ ⟨.migrationArrival, .n3 t.tid cl (j + 1)⟩ ∈ s'.agenda) ∧
    (s.severed k cl = false → s.clusterSlot cl = none → (s.cluster cl).inbox.length + (s.cluster cl).resInbox < 16 →
      ∃ s', exec .migrationReservation s = .next s' ∧ s'.threads = s.threads ∧
        (s'.cluster cl).resInbox = (s.cluster cl).resInbox + 1 ∧ ⟨.migrationArrival, .n3 t.tid cl 0⟩ ∈ s'.agenda) ∧
    (s.clusterSlot cl = none → 16 ≤ (s.cluster cl).inbox.length + (s.cluster cl).resInbox →
      exec .migrationReservation s = .next (s.wakeThread k))) ∧
  (∀ (s : State) (k j cl : Key) (t : Thread), s.arg = .n3 t.tid cl (j + 1) → s.slotOfTid t.tid = some k → s.thread k = some t →
    t.run = .parked (.migrate cl) → s.severed k cl = false → s.settled k t = true → j ≠ k →
    ∃ s', exec .migrationArrival s = .next s' ∧ s'.mem = s.mem ∧ s'.thread k = none ∧
      s'.thread j = some { t with
        trapcause := 0, trappc := 0, trapaddr := 0, run := .ready, leaving := none, duty := [] }) ∧
  (∀ (s : State) (k : Key) (t : Thread) (id : Nat), s.arg = .n2 t.tid id → s.thread k = some t → t.waitId = id →
    (∀ c, t.run = .parked (.cycle c) → ∃ s', exec .yieldDeadline s = .next s' ∧ s'.mem = s.mem ∧
      s'.thread k = some { t with run := .ready, leaving := none, readyAt := s.cycle + 2 }) ∧
    (∀ i, t.run = .parked (.yield i) → ∃ s', exec .yieldReadyTimeout s = .next s' ∧ s'.mem = s.mem ∧
      s'.thread k = some { t with run := .ready, leaving := none, readyAt := s.cycle + 2 }) ∧
    (∀ h l, t.run = .parked (.counterFull h) → s.threadOf t.tid = some t → checkHandle s t.partN h.toNat = .live l →
      ((s.counter l).waiters.length < 64 → ∃ s', exec .ccwaitResend s = .next s' ∧ s'.mem = s.mem ∧
        s'.thread k = some { t with run := .parked (.counter h) } ∧ (s'.counter l).waiters = (s.counter l).waiters ++ [t.tid]) ∧
      (64 ≤ (s.counter l).waiters.length → exec .ccwaitResend s = .next (s.at (s.cycle + 64) .ccwaitResend (.n2 t.tid id)))))

/-- R138, R139, R241, R367, R372, R373, R375, R225, R414: what acts at a thread's boundary, and the end of a wait at its limit: an exact
WAITLIM trap, or for a lease asked for a register left empty and marked. -/
def Obligations.BoundariesAndWaitLimits : Prop :=
  (∀ (s : State) (k : Key) (t : Thread), s.arg = .n1 k → s.thread k = some t →
    (t.uiDue = true → t.atBoundary = true → ∃ s' t', exec .uiEntry s = .next s' ∧ s'.mem = s.mem ∧ s'.thread k = some t' ∧
      t'.pc = t.uivec ∧ t'.run = .ready ∧ t'.thsBit 14 = true ∧ t'.g = t.unwait.g ∧ t'.p = t.p ∧
      t'.shadow.pc = t.pc ∧
      (∀ i < 4, (t'.shadow.g.toList.getD i (RegCell.zero 64)).val = t.gv (20 + i) ∧
        (t'.shadow.g.toList.getD i (RegCell.zero 64)).full = t.unwait.isFull (.g (20 + i))) ∧
      (∀ n, 0 < n → n < 32 → (t'.shadow.p.toList.getD n (RegCell.zero 1)).val = (if t.pv n then 1 else 0) ∧
        (t'.shadow.p.toList.getD n (RegCell.zero 1)).full = t.isFull (.p n))) ∧
    (∀ cause a l, t.asyncTraps = (cause, a) :: l → t.atBoundary = true → t.thsBit 12 = false →
      exec .asyncTrapEntry s = .next ((s.modT k (fun t => { t.unwait with asyncTraps := l, run := .ready })).takeTrap k cause.toNat a.toNat 0)) ∧
    (∀ c tid l, t.duty = (c, tid) :: l → exec .wakeDuty s = .next ((s.modT k (fun t => { t with duty := l })).push .waiterWakeArrival
      (.n2 c tid))) ∧
    (t.thsBit 15 = true → ∃ s' t', exec .cancelAtBoundary s = .next s' ∧ s'.mem = s.mem ∧ s'.thread k = some t' ∧ t'.run = .ending)) ∧
  (∀ (t : Thread), ((∀ d was w, t.run ≠ .parked (.rotor d was w)) → t.unwait = t) ∧ (∀ d was w, t.run = .parked (.rotor d was w) → d < 24 →
    t.unwait = { t with g := t.unwait.g } ∧ t.unwait.isFull (.g d) = was ∧ t.unwait.isOwed (.g d) = false ∧
    ∀ m, m ≠ d → t.unwait.gcell m = t.gcell m)) ∧
  (∀ (t : Thread), t.uiDue = (t.thsBit 13 && !t.thsBit 14 && !t.thsBit 12 && !t.q0.isEmpty)) ∧
  (∀ (s : State) (k : Key) (t : Thread) (id : Nat), s.arg = .n2 t.tid id → s.threadOf t.tid = some t → s.slotOfTid t.tid = some k →
    s.thread k = some t →
    (∀ p, t.run = .parked p → t.waitId = id → (∀ i, p ≠ .sync i) → p ≠ .copyAccept → p ≠ .plankAccept → (∀ q, p ≠ .pushRoom q) →
      exec .waitlimExpiry s = .next ((((s.dropWait t).modTid t.tid Thread.unwait).wakeThread k).takeTrap k causeWAITLIM 0 0)) ∧
    (∀ i, t.run = .parked (.sync i) → t.waitId = id → exec .waitlimExpiry s = .next (s.push .withdrawalAtHome (.n2 k i))) ∧
    (t.run = .ready → ∀ d, t.leaseOwe = some (d, id) → d < 24 → ∃ s' t', exec .waitlimExpiry s = .next s' ∧ s'.mem = s.mem ∧
      s'.thread k = some t' ∧ t'.lease = .none ∧ t'.isFull (.g d) = false ∧ t'.isOwed (.g d) = false ∧ t'.isMarked (.g d) = true ∧
      ∀ m, m ≠ d → t'.gcell m = t.gcell m))

/-- R275, R276, R300 to R303: PBIND binds a k register to a free port of its core and PUNB unbinds it; PPUT, PTRY and PPUTV offer one item
and PGET and PGETV take one, each starting the port's one operation and owing its registers; PWDR withdraws it. -/
def Obligations.PortInstructionsStartOperations : Prop :=
  (∀ (o : Op) (s : State) (t : Thread) (d r : Nat) (con : Conn) (x : PortSt),
    let h := ((s.cx t).sval o).toNat
    let n := ((s.cx t).tvalZ o).toNat
    Executes s t false (o.sx s.q ++ o.tx s.q) [] → isK o.dn = true → LiveCon s t.partN h d r con → mget con.ports n = some x →
    n < con.image.ports.length → t.kb (kIndex o.dn) = none → x.holder = none → x.place = coreOf s.cur →
    ∃ s' t', exec (.pbind o) s = .next s' ∧ s'.mem = s.mem ∧ s'.thread s.cur = some t' ∧ t'.pc = s.npc t ∧
      t'.kb (kIndex o.dn) = some ⟨BitVec.ofNat 32 h, ⟨d, r, n⟩, (con.desc n).isIn, (con.desc n).isV, none, false⟩ ∧
      s'.port ⟨d, r, n⟩ = some { x with holder := some (.slot t.tid (kIndex o.dn)) }) ∧
  (∀ (o : Op) (s : State) (t : Thread), Executes s t false [] [] →
    (t.kb (kIndex o.dn) = none → exec (.punb o) s = .next (s.taken t [])) ∧
    (∀ b x, t.kb (kIndex o.dn) = some b → s.port b.port = some x →
      (x.op = none → ∃ s' t', exec (.punb o) s = .next s' ∧ s'.mem = s.mem ∧ s'.thread s.cur = some t' ∧ t'.pc = s.npc t ∧
        t'.kb (kIndex o.dn) = none ∧ s'.port b.port = some { x with holder := none }) ∧
      (x.op ≠ none → exec (.punb o) s = .next ((s.withdraw b.port none false).parkThread s.cur (.punb (kIndex o.dn)) false)))) ∧
  (∀ (o : Op) (s : State) (t : Thread) (b : Binding),
    let pair (tie : Bool) : List Src := [.x o.tn 1 tie, .x (o.tn + 1) 1 tie]
    let report : List Dst := if o.dn = 0 then [] else [.p o.dn, .p (o.dn + 1)]
    let item : Item := ⟨(t.gv o.tn).setWidth 512, t.gv (o.tn + 1)⟩
    (Executes s t false (pair s.q.tt) report → OfferFits s t o.sn false item b →
      exec (.pput o) s = .next ((owesPair s t (pair s.q.tt) o.dn).startOp b.port (coreOf s.cur) t.limit (.offer item false) (pairOf o.dn)
        s.q.ts true) ∧
      exec (.ptry o) s = .next ((owesPair s t (pair s.q.tt) o.dn).startOp b.port (coreOf s.cur) t.limit (.offer item true) (pairOf o.dn)
        false true)) ∧
    (Executes s t false (o.tv s.q) report → OfferFits s t o.sn true ⟨t.vv o.tn, t.pmeta⟩ b →
      exec (.pputv o) s = .next ((owesPair s t (o.tv s.q) o.dn).startOp b.port (coreOf s.cur) t.limit
        (.offer ⟨t.vv o.tn, t.pmeta⟩ false) (pairOf o.dn) s.q.ts true)) ∧
    (Executes s t false [] [.x o.dn, .x (o.dn + 1)] → TakeFits s t o.sn false b →
      exec (.pget o) s = .next ((s.after t [] (fun x => (x.oweReg (.g o.dn)).oweReg (.g (o.dn + 1)))).startOp b.port (coreOf s.cur) t.limit
        .take (.getg o.dn) s.q.ts true)) ∧
    (Executes s t false [] [.v o.dn, .x o.tn] → TakeFits s t o.sn true b →
      exec (.pgetv o) s = .next ((s.after t [] (fun x => (x.oweReg (.v o.dn)).oweReg (.g o.tn))).startOp b.port (coreOf s.cur) t.limit
        .take (.getv o.dn o.tn) s.q.ts true)) ∧
    (Executes s t false [] [.p o.dn] → t.kb (kIndex o.sn) = some b →
      ((s.port b.port).bind (·.op) = none →
        exec (.pwdr o) s = .next ((s.taken t []).owe s.cur [(.p o.dn, 1)] none 0 false false)) ∧
      ((s.port b.port).bind (·.op) ≠ none →
        exec (.pwdr o) s = .next ((s.after t [] (fun x => x.oweReg (.p o.dn))).withdraw b.port (some o.dn) false)))) ∧
  (∀ (s : State) (p : PortId) (core : Key) (tid wl : Nat) (act : PAct) (dest : PDest) (tie : Bool) (c : Conn) (x : PortSt),
    s.conn p.die p.con = some c → mget c.ports p.port = some x →
    let s' := s.startOp p core (some (tid, wl)) act dest tie true
    s'.port p = some { x with op := some ⟨s.nextId, act, dest, c.running, false, false, [], tie, false, s.clockOf (dieOfCore core),
      none⟩ } ∧
    s'.mem = s.mem ∧ s'.threads = s.threads ∧ (c.running = true → s'.agenda = s.agenda ++ [⟨.portRequestArrival, .port p⟩]) ∧
    (wl ≠ 0 → (s.cycle + wl, ⟨.waitlimExpiry, .n2 tid s.nextId⟩) ∈ s'.timers))

/-- R298, R304 to R307: CLOAD fills a free record of the issuing die with a checked image; CSTART gives each region its Carder and sends the
waiting operations, or gives a failure code; CSTOP stops or frees; CSTAT gives a status word. -/
def Obligations.ConnectorInstructions : Prop :=
  (∀ (o : Op) (s : State) (t : Thread) (im : Image) (pl : List Key) (locs : List Nat) (r : Nat),
    let d := dieOfCore (coreOf s.cur) % 8
    let gen := ((mget (s.die d).conns r).map (·.gen)).getD 0
    Executes s t false (o.sx s.q ++ o.tx s.q) [.x o.dn] → o.dn < 24 → s.releasedNow s.cur t .die = true →
    (s.cx t).loadImage (baseAddr s t o) (((s.cx t).tval o).toNat % 2 ^ 56) = .ok (im, pl, locs) → s.freeCon d im.len = some r →
    ∃ s' con, exec (.cload o) s = .next s' ∧ s'.mem = s.mem ∧ OwesTo s s' t o.dn (dw (gen.toNat * 2048 + d * 256 + r)) ∧
      mget (s'.die d).conns r = some ⟨gen, some con⟩ ∧ con.part = t.partN ∧ con.running = false ∧ con.image = im ∧
      (∀ i (h : i < pl.length), (mget con.ports i) = some ⟨pl[i], none, none, 0, 0, 0, 0, false, none, 0⟩) ∧
      (s'.die d).storeUsed = (s.die d).storeUsed + im.len) ∧
  (∀ (o : Op) (s : State) (t : Thread) (d r : Nat) (con : Conn), Executes s t false (o.sx s.q) [.x o.dn] → o.dn < 24 →
    LiveCon s t.partN ((s.cx t).sval o).toNat d r con →
    (con.running = true → ∃ s', exec (.cstart o) s = .next s' ∧ s'.mem = s.mem ∧ OwesTo s s' t o.dn 4 ∧ s'.dies = s.dies) ∧
    (con.running = false → (∀ p ∈ con.ports, s.inPart t.partN (groupOf p.2.place) = true) → ∀ cs,
      s.placeRegions con con.image.regions 0 [] = .ok cs →
      ∃ s' c', exec (.cstart o) s = .next s' ∧ s'.mem = s.mem ∧ OwesTo s s' t o.dn 0 ∧ s'.conn d r = some c' ∧ c'.running = true ∧
        c'.fcode = 0 ∧ c'.image = con.image ∧
        (∀ i (h : i < cs.length), ∃ g, mget c'.regions i = some g ∧ g.carder = cs[i] ∧ g.ptr = 0 ∧ g.marks = [] ∧
          (s.nextStep cs[i], ⟨.carderStep, .carder cs[i]⟩) ∈ s'.timers) ∧
        ∀ i (h : i < con.image.bufs.length), mget c'.bufs i = some ⟨con.image.bufs[i].cap, 0, [], [], 0, false, 0, false⟩)) ∧
  (∀ (o : Op) (s : State) (t : Thread) (d r : Nat) (con : Conn), Executes s t false (o.sx s.q ++ o.tx s.q) [] →
    LiveCon s t.partN ((s.cx t).sval o).toNat d r con → ∀ i ∈ [Instr.cstopStop o, .cstopFree o],
      let x := ((s.cx t).tvalZ o).toNat
      (x = 0 → ∃ s' c', exec i s = .next s' ∧ s'.mem = s.mem ∧ s'.conn d r = some c' ∧ c'.running = false ∧
        (con.running = true → c'.bufs = [] ∧ ∀ n p q, mget con.ports n = some p → p.op = some q → q.fin = none →
          (s.cycle + 1, ⟨.portCompletionArrival, .port ⟨d, r, n⟩⟩) ∈ s'.timers)) ∧
      (x = 1 → (∀ p ∈ con.ports, p.2.holder = none) → ∃ s', exec i s = .next s' ∧ s'.mem = s.mem ∧
        mget (s'.die d).conns r = some ⟨((mget (s.die d).conns r).map (·.gen)).getD 0 + 1, none⟩ ∧
        (s'.die d).storeUsed = (s.die d).storeUsed - con.image.len) ∧
      (1 < x ∨ (x = 1 ∧ ∃ p ∈ con.ports, p.2.holder ≠ none) → exec i s = .next (s.takeTrap s.cur causeBADOPND 0 0))) ∧
  (∀ (o : Op) (s : State) (t : Thread), Executes s t false (o.sx s.q ++ o.tx s.q) [.x o.dn] → o.dn < 24 →
    ∀ i ∈ [Instr.cstatConnector o, .cstatRegion o, .cstatPort o, .cstatBinding o],
      let x := ((s.cx t).tvalZ o).toNat
      let owes (v : Nat) : Prop := exec i s = .next ((s.taken t (o.sx s.q ++ o.tx s.q)).owe s.cur [(.g o.dn, (dw v).setWidth 512)] none 0
        false false)
      (∀ n < 16, x = 256 * n + 3 → owes (match t.kb n with
        | some b => b.handle.toNat * 2 ^ 32 + b.port.port * 2 ^ 22 + (if b.isV then 4 else 0) + (if b.isIn then 2 else 0) + 1
        | none => 0)) ∧
      (∀ d r con, LiveCon s t.partN ((s.cx t).sval o).toNat d r con →
        (x = 0 → owes (con.image.ports.length * 2 ^ 48 + con.image.regions.length * 2 ^ 39 + con.fcode * 16 +
          (if con.running then 1 else 0))) ∧
        (∀ n < 65536, x = 256 * n + 1 → n < con.image.regions.length → owes (con.regionStatus n)) ∧
        (∀ n < 65536, x = 256 * n + 2 → n < con.image.ports.length → owes (con.portStatus n)) ∧
        (∀ n, x = 256 * n + 1 → con.image.regions.length ≤ n → exec i s = .next (s.takeTrap s.cur causeBADOPND 0 0)) ∧
        (∀ n, x = 256 * n + 2 → con.image.ports.length ≤ n → exec i s = .next (s.takeTrap s.cur causeBADOPND 0 0))))

/-- R284, R285, R287: in a step of a region every fired guard is enabled, no two that fire are in conflict, and every enabled guard that does
not fire is in conflict with one that does; the step's regions are stepped in turn, and another step is due if anything changed. -/
def Obligations.CarderStepsFireAMaximalSetOfGuards : Prop :=
  (∀ (c : Conn) (r : Nat) (rd : RegionDesc) (ptr : Nat),
    let on (g : Nat) : Prop := ∃ x, rd.guards[g]? = some x ∧ c.baseEnabled r rd x = true ∧
      ∀ h y, rd.guards[h]? = some y → x.inhib.getLsbD h = true → c.baseEnabled r rd y = false
    let clash (g h : Nat) : Prop := ∃ x, rd.guards[g]? = some x ∧ x.confl.getLsbD h = true
    let l := c.choose r rd ptr
    (∀ g ∈ l, on g) ∧ l.Nodup ∧ l.Pairwise (fun h g => ¬ clash g h) ∧ ∀ g, on g → g ∉ l → ∃ h ∈ l, clash g h) ∧
  (∀ (s : State) (c : CarderId), s.arg = .carder c →
    let s1 := (s.regionsAt c).foldl stepRegion s
    ∃ s', exec .carderStep s = .next s' ∧ s'.dies = s1.dies ∧ s'.agenda = s1.agenda ∧ s'.mem = s1.mem ∧
      ((∃ x ∈ s.regionsAt c, s1.conn x.d x.c ≠ s.conn x.d x.c) → (s1.nextStep c, ⟨.carderStep, .carder c⟩) ∈ s'.timers)) ∧
  (∀ (s : State) (x : RegRef3) (c : Conn) (g : Guard) (e n src : Nat) (it : Item) (clk : List Nat) (p : PortSt) (op : POp),
    c.image.endpt x.r e = .port n true → g.routes.find? (fun q => q.1 == e) = some (e, src) → c.sourceItem x.r src = some (it, clk) →
    s.port ⟨x.d, x.c, n⟩ = some p → p.op = some op →
    let s' := fireEndpt s x c g e
    s'.port ⟨x.d, x.c, n⟩ = some { p with fired := min (p.fired + 1) 65535, op := some { op with
      clk := clk, fin := some (.fired true (some it)) } } ∧ s'.mem = s.mem ∧ s'.threads = s.threads ∧
    (s.cycle + 1, ⟨.portCompletionArrival, .port ⟨x.d, x.c, n⟩⟩) ∈ s'.timers)

/-- R24, R33, R276, R283, R287, R288, R301 to R303, R310, R315, R319, R386: operations reach their Carder and their completions come back:
the registers of each kind get the item, its meta, or that nothing fired; entries and credits of buffered links arrive; and the operand
forms of k, q, evq and msg as steps. -/
def Obligations.PortEventsAndOperandForms : Prop :=
  (∀ (s : State) (p : PortId) (x : PortSt) (o : POp) (c : CarderId), s.arg = .port p → s.port p = some x → x.op = some o →
    s.carderOfPort p = some c →
    (o.sent = true → ∃ s', exec .portRequestArrival s = .next s' ∧ s'.mem = s.mem ∧
      s'.port p = some { x with op := some { o with seen := true } } ∧ (s.nextStep c, ⟨.carderStep, .carder c⟩) ∈ s'.timers) ∧
    (∃ s', exec .idleTimeout s = .next s' ∧ s'.dies = s.dies ∧
      (if s.stepsNow c then s.cycle else s.nextStep c, ⟨.carderStep, .carder c⟩) ∈ s'.timers)) ∧
  (∀ (s : State) (p : PortId) (x : PortSt) (o : POp) (k : Key) (t : Thread) (n : Nat), s.arg = .port p → s.port p = some x →
    x.op = some o → x.holder = some (.slot t.tid n) → s.slotOfTid t.tid = some k → s.thread k = some t → o.wdDest = [] →
    let gone (f : Thread → Thread) : Prop := ∃ s', exec .portCompletionArrival s = .next s' ∧ s'.mem = s.mem ∧
      s'.port p = some { x with op := none } ∧ s'.thread k = some (f t)
    (∀ g it, o.dest = .getg g → o.fin = some (.fired true (some it)) → gone (fun t => (t.setG g (it.data.setWidth 64)).setG (g + 1) it.tag)) ∧
    (∀ v g it, o.dest = .getv v g → o.fin = some (.fired true (some it)) → gone (fun t => (t.setV v it.data).setG g it.tag)) ∧
    (∀ q dl, o.dest = .preds q → o.fin = some (.fired dl none) → gone (fun t => (t.setP q dl).setP (q + 1) true)) ∧
    (o.fin = some .notFired → (o.expired && o.tie) = false →
      (∀ g, o.dest = .getg g → gone (fun t => (t.setG g 0).setG (g + 1) 0xFFFFFFFFFFFFFFFF)) ∧
      (∀ v g, o.dest = .getv v g → gone (fun t => (t.setV v 0).setG g 0xFFFFFFFFFFFFFFFF)) ∧
      (∀ q, o.dest = .preds q → gone (fun t => (t.setP q false).setP (q + 1) false))) ∧
    (o.fin = some .notFired → (o.expired && o.tie) = true →
      (∀ g, o.dest = .getg g → gone (fun t => (t.markReg (.g g)).markReg (.g (g + 1)))) ∧
      (∀ q, o.dest = .preds q → gone (fun t => (t.markReg (.p q)).markReg (.p (q + 1))))) ∧
    (∀ i it b, o.dest = .deliver i → o.fin = some (.fired true (some it)) → t.kb i = some b →
      gone (fun t => t.setKb i (some { b with item := some it, taking := false }))) ∧
    (o.fin ≠ none → ∃ s', exec .carderCompletionTimeout s = .next s' ∧ ⟨.portCompletionArrival, .port p⟩ ∈ s'.agenda ∧
      s'.dies = s.dies)) ∧
  (∀ (s : State) (b : BufId) (c : Conn) (x : BufSt) (d : BufDesc), s.arg = .buf b → s.conn b.die b.con = some c →
    mget c.bufs b.buf = some x → c.image.bufs[b.buf]? = some d →
    (∀ e l, x.flight = e :: l → ∀ i ∈ [Instr.bufferItemArrival, .watermarkTokenArrival], ∃ s' c', exec i s = .next s' ∧ s'.mem = s.mem ∧
      s'.conn b.die b.con = some c' ∧ ∃ held, mget c'.bufs b.buf = some { x with flight := l, held := held } ∧
        ((∀ it clk, e = .item it clk → held = x.held ++ [e]))) ∧
    (0 < x.creditsIn → ∃ s' c', exec .creditArrival s = .next s' ∧ s'.mem = s.mem ∧ s'.conn b.die b.con = some c' ∧
      mget c'.bufs b.buf = some { x with creditsIn := x.creditsIn - 1, credits := x.credits + 1 })) ∧
  (∀ (s : State) (k : Key) (t : Thread) (i : Nat) (b : Binding), s.arg = .n2 k i → s.thread k = some t → t.kb i = some b → i < 16 →
    b.isIn = true → b.isV = false → b.item = none → b.taking = false → (s.port b.port).bind (·.op) = none →
    exec .kSourceTake s = .next ((s.modT k (fun t => t.setKb i (some { b with taking := true }))).startOp b.port (coreOf k) t.limit .take
      (.deliver i) false true)) ∧
  (∀ (s : State) (k : Key) (t : Thread) (n : Nat) (v : DW), s.arg = .val k n v → s.thread k = some t →
    (∀ b, isK n = true → OfferFits s t n false ⟨v.setWidth 512, t.pmeta⟩ b → exec .kDestinationOffer s = .next (s.startOp b.port (coreOf k)
      t.limit (.offer ⟨v.setWidth 512, t.pmeta⟩ false) .none false true)) ∧
    (isQdst n = true → t.qcode n = 2 → (t.fifoOf 2).length < 8 → exec .qEnginePush s = .next (s.modT k (fun t => t.setFifo 2 (t.fifoOf 2 ++
      [v])))) ∧
    (isService (coreOf k) = true → (s.core (coreOf k)).msgBusy = false →
      let l := (s.core (coreOf k)).msgOut ++ [v]
      l.length < 1 + bits (l.headD 0).toNat 51 48 → ∃ s', exec .msgWrite s = .next s' ∧ s'.threads = s.threads ∧ s'.mem = s.mem ∧
        (s'.core (coreOf k)).msgOut = l ∧ (s'.core (coreOf k)).msgBusy = false)) ∧
  (∀ (s : State) (k : Key) (t : Thread) (n : Nat), s.arg = .n2 k n → s.thread k = some t → n < 4 → n ≠ 2 →
    ∃ s' t', exec .qPop s = .next s' ∧ s'.mem = s.mem ∧ s'.thread k = some t' ∧ t'.queue n = (t.queue n).drop 1 ∧ t'.g = t.g) ∧
  (∀ (s : State) (c : Key), s.arg = .n1 c → isService c = true →
    exec .evqPop s = .next (s.modCore c (fun x => { x with evq := x.evq.drop 1 })))

/-- R321 to R328, R331 to R336: WMARK and WIDLE start their operation; WBIND makes a binding of a free Brim record; WNEXT gives the oldest
wake; WPUB and WAMEND write the next publication entry, full; WCLOSE drains, discards or reports a binding. -/
def Obligations.WindowInstructions : Prop :=
  (∀ (o : Op) (s : State) (t : Thread) (b : Binding), Executes s t false (o.sx s.q) [] → t.kb (kIndex o.dn) = some b → b.isIn = false →
    (s.port b.port).bind (·.op) = none →
    let v := (s.cx t).sval o
    (v.toNat < 2 ^ 48 → exec (.wmark o) s = .next ((s.taken t (o.sx s.q)).startOp b.port (coreOf s.cur) t.limit (.wmark (v.setWidth 48))
      .none false true)) ∧
    (v = 0 ∨ v = 0xFFFFFFFFFFFFFFFF ∨ (1000 ≤ v.toNat ∧ v.toNat ≤ 1000000000) → exec (.widle o) s = .next
      ((s.taken t (o.sx s.q)).startOp b.port (coreOf s.cur) t.limit (.widle v) .none false true)) ∧
    (¬ (v = 0 ∨ v = 0xFFFFFFFFFFFFFFFF ∨ (1000 ≤ v.toNat ∧ v.toNat ≤ 1000000000)) →
      exec (.widle o) s = .next (s.takeTrap s.cur causeBADOPND 0 0))) ∧
  (∀ (o : Op) (s : State) (t : Thread) (p : Place) (x : Nat) (d : WDesc) (b : Binding) (q : PortSt) (bi : Nat),
    let cl := clusterOf (coreOf s.cur)
    let a := baseAddr s t o
    let gen := ((mget (s.cluster cl).brim bi).map (·.gen)).getD 0
    let ring := d.npane * (64 + d.cap * (if b.isV then 128 else 16))
    Executes s t false (o.sx s.q) [.x o.dn] → o.dn < 24 → s.acquiring s.cur t = false → s.access s.cur t a 64 64 .rd false = .ok p →
    s.readNow s.cur t a p.loc 64 = .ok x → parseWDesc x = some d → t.namedPort d.sk true = some b → d.tlk = 0 →
    regionOf d.paneBase = 0xF0 → scratchCl d.paneBase = cl → bits d.paneBase 18 0 + ring ≤ 0x60000 →
    (∃ y, s.access s.cur t d.paneBase ring 1 .wr false = .ok y) → (s.cx t).accessSpan d.pubBase (32 * d.npub) 1 .wr = .ok () →
    s.port b.port = some q → q.op = none → s.releasedNow s.cur t .die = true → s.mem.poison = [] →
    lowestFree (fun i => (s.brimB cl i).isSome) 256 0 = some bi →
    ∃ s' y, exec (.wbind o) s = .next s' ∧ OwesTo s s' t o.dn (dw (gen.toNat * 2 ^ 17 + cl * 256 + bi)) ∧ s'.brimB cl bi = some y ∧
      y.tid = t.tid ∧ y.part = t.partN ∧ y.dom = t.domN ∧ y.port = b.port ∧ y.tlPort = none ∧ y.isV = b.isV ∧ y.slide = d.slide ∧
      y.npw = d.npw ∧ y.late = d.late ∧ y.paneBase = d.paneBase ∧ y.cap = d.cap ∧ y.npane = d.npane ∧ y.pubBase = d.pubBase ∧
      y.npub = d.npub ∧ y.wb = (s.portMark b.port).1 ∧ y.counts = [] ∧ y.wins = [] ∧ y.tail = 0 ∧ y.drain = false ∧
      (s'.port b.port).map (·.holder) = some (some (.brim cl bi))) ∧
  (∀ (o : Op) (s : State) (t : Thread) (r : List DW) (l : List (List DW)),
    Executes s t false [] ((List.range 4).map (fun i => Dst.x (o.dn + i))) → o.dn + 3 < 24 → t.q2 = r :: l →
    let w (i : Nat) : VReg := (if i < t.q2pos then 0 else r.getD i 0).setWidth 512
    ∃ s' t' e, exec (.wnext o) s = .next s' ∧ s'.mem = s.mem ∧ s'.thread s.cur = some t' ∧ t'.pc = s.npc t ∧ t'.q2 = l ∧ t'.q2pos = 0 ∧
      (∀ i < 4, t'.isOwed (.g (o.dn + i)) = true) ∧ s'.owed = s.owed ++ [e] ∧ e.acq = true ∧
      e.writes = [(.g (o.dn + 0), w 0), (.g (o.dn + 1), w 1), (.g (o.dn + 2), w 2), (.g (o.dn + 3), w 3)]) ∧
  (∀ (o : Op) (s : State) (t : Thread) (bi k no : Nat) (b : BrimB) (p : Place) (amend : Bool),
    let srcs : List Src := [.x o.sn 0 s.q.ts, .x (o.sn + 1) 0 s.q.ts] ++ o.dx s.q
    let cl := clusterOf (coreOf s.cur)
    let id := ((s.cx t).dval o).toNat
    let va := (b.pubBase + 32 * b.tail) % 2 ^ 56
    let v := id + no * 2 ^ 64 + (t.gv o.sn).toNat * 2 ^ 128 + (t.gv (o.sn + 1)).toNat * 2 ^ 192
    Executes s t false srcs [] → s.windowOf t cl id = some (bi, b, k) → s.acquiring s.cur t = false →
    (if amend then mget b.wins k = some (.amending no) else mget b.wins k = some .woken ∧ no = 0) →
    s.access s.cur t va 32 8 .wr false = .ok p → s.mem.fe p.loc = false → s.releasedNow s.cur t .die = true →
    (∃ y, s.readNow s.cur t va p.loc 32 = .ok y) → NoneWaits s → NoneSwapped s p.loc →
    b.lastExpired = none → Quiet b → b.drain = false →
    ∃ s' b', exec (if amend then .wamend o else .wpub o) s = .next s' ∧ s'.brimB cl bi = some b' ∧ b'.tail = (b.tail + 1) % b.npub ∧
      mget b'.wins k = some (.published no) ∧ s'.thread s.cur = (s.taken t srcs).thread s.cur ∧ s'.mem.fe p.loc = true ∧
      (s.mem.wf = true → ∀ i < 32, s'.mem.byte (p.loc + i) = BitVec.ofNat 8 (v / 256 ^ i)) ∧
      ∀ a, a < p.loc ∨ p.loc + 32 ≤ a → s'.mem.byte a = s.mem.byte a ∧ (a / 8 ≠ p.loc / 8 → s'.mem.fe a = s.mem.fe a)) ∧
  (∀ (o : Op) (s : State) (t : Thread) (cl bi : Nat) (b : BrimB), Executes s t false (o.sx s.q ++ o.tx s.q) [.x o.dn] → o.dn < 24 →
    s.checkBrim t ((s.cx t).sval o).toNat = .ok (cl, bi, b) →
    ∀ i ∈ [Instr.wcloseDrain o, .wcloseDiscard o, .wcloseStatus o, .wcloseWatermark o],
      let x := ((s.cx t).tvalZ o).toNat
      let owes (v : Nat) : Prop := exec i s = .next ((s.taken t (o.sx s.q ++ o.tx s.q)).owe s.cur [(.g o.dn, (dw v).setWidth 512)] none 0
        false false)
      (x = 2 → owes (b.drop * 2 ^ 48 + b.ovf * 2 ^ 32 + b.lateCnt * 2 ^ 16 + min 255 (b.wins.filter (fun w => w.2.isOut)).length * 2 ^ 8 +
        (if b.hold.isSome then 4 else 0) + (if b.drain then 2 else 0) + 1)) ∧
      (x = 3 → owes (b.wb.toNat + (if b.idle then 2 ^ 63 else 0))) ∧
      (x = 1 → ∃ s', exec i s = .next s' ∧ s'.mem = s.mem ∧ OwesTo s s' t o.dn 0 ∧ s'.brimB cl bi = none) ∧
      (x = 0 → Quiet b → b.counts = [] → b.wins = [] → b.maxPane = none → (s.port b.port).bind (·.op) = none →
        ∃ s', exec i s = .next s' ∧ s'.mem = s.mem ∧ OwesTo s s' t o.dn 0 ∧ s'.brimB cl bi = none) ∧
      (3 < x → exec i s = .next (s.takeTrap s.cur causeBADOPND 0 0)))

/-- R321, R324 to R327: a record that is neither too late nor beyond its panes is written at the next place of its pane's slot, and the
next take is sent; a watermark that passes a window with records wakes its thread with the window's record. R320: a message that comes
while a too-late offer is awaited stands behind what came before it. -/
def Obligations.BrimsPlaceRecordsAndWakeWindows : Prop :=
  (∀ (s : State) (p : PortId) (x : PortSt) (o : POp) (it : Item) (cl bi : Nat) (b : BrimB), s.arg = .port p → s.port p = some x →
    x.holder = some (.brim cl bi) → x.op = some o → o.fin = some (.fired true (some it)) → s.brimB cl bi = some b → b.port = p → Quiet b →
    b.drain = false →
    let et := bits it.tag.toNat 47 0
    let pane := et / b.slide
    let n := b.count pane
    let base := scratchPlace (b.slotVa pane)
    b.tooLate et = false → b.p0 ≤ pane → pane < b.p0 + b.npane → b.paneOut pane = false → n < b.cap → s.mem.poison = [] →
    (∀ k ∈ b.windowsOf pane, b.passed k = false) →
    ∃ s' b', exec .brimRecord s = .next s' ∧ s'.brimB cl bi = some b' ∧ b'.counts = mput b.counts pane (n + 1) ∧ b'.hold = none ∧
      b'.wins = b.wins ∧ b'.wb = b.wb ∧ (s'.port p).bind (fun y => y.op.map (·.act)) = some .take ∧
      (s.mem.wf = true →
        (∀ i < 8, s'.mem.byte (base + 8 + i) = BitVec.ofNat 8 ((n + 1) / 256 ^ i)) ∧
        (b.isV = false → ∀ i < 8, s'.mem.byte (base + 64 + 16 * n + i) = BitVec.ofNat 8 (it.data.toNat / 256 ^ i) ∧
          s'.mem.byte (base + 64 + 16 * n + 8 + i) = BitVec.ofNat 8 (it.tag.toNat / 256 ^ i)) ∧
        (b.isV = true → ∀ i < 64, s'.mem.byte (base + 64 + 128 * n + i) = BitVec.ofNat 8 (it.data.toNat / 256 ^ i)))) ∧
  (∀ (s : State) (cl bi p n : Nat) (b : BrimB) (w : BitVec 48) (idle : Bool), s.arg = .wm cl bi w idle → s.brimB cl bi = some b →
    Quiet b → b.drain = false → b.wins = [] → b.counts = [(p, n)] → n ≠ 0 → b.npw = 1 → 0 < b.slide →
    b.wb.toNat < (p + 1) * b.slide → (p + 1) * b.slide ≤ w.toNat → w.toNat ≤ b.slide + b.late → w.toNat < 2 ^ 48 - 1 →
    ∃ s' b', exec .brimWatermarkMessage s = .next s' ∧ s'.mem = s.mem ∧ s'.brimB cl bi = some b' ∧ b'.wb = w ∧ b'.idle = idle ∧
      b'.wins = [(p, .woken)] ∧ b'.counts = b.counts ∧
      ∀ k t, InSlot s k t b.tid → s'.thread k = some { t with q2 := t.q2 ++ [[dw (bi * 2 ^ 56 + (p + 1) * b.slide), dw (b.slotVa p),
        dw n, dw (2 ^ 24)]] }) ∧
  (∀ (s : State) (cl bi : Nat) (b : BrimB) (w : BitVec 48) (idle : Bool), s.arg = .wm cl bi w idle → s.brimB cl bi = some b →
    b.dead = false → b.drain = false →
    (Quiet b → w.toNat ≤ b.wb.toNat → ∃ s', exec .brimWatermarkMessage s = .next s' ∧ s'.mem = s.mem ∧ s'.threads = s.threads ∧
      s'.brimB cl bi = some { b with idle := idle }) ∧
    (b.tlWait = true → ∃ s', exec .brimWatermarkMessage s = .next s' ∧ s'.mem = s.mem ∧ s'.threads = s.threads ∧
      s'.brimB cl bi = some { b with waiting := b.waiting ++ [.mark w idle] }))

/-- R366, R369 to R371, R376, R379: TRAP and BRK take their exact traps; taking a trap writes the frame through the store buffer and leads to
TVEC, or drops the thread where the frame's page is missing; without a handler, or within one, it ends the thread and reports the fault: that
of a service core to Plynvas. -/
def Obligations.TrapsAreTaken : Prop :=
  (∀ (o : Op) (s : State) (t : Thread), Executes s t false (o.tx s.q) [] →
    exec (.trap o) s = .next (s.takeTrap s.cur 0x10 (((s.cx t).tvalZ o).toNat % 2 ^ 56) 0)) ∧
  (∀ (s : State) (t : Thread), Executes s t false [] [] → exec .brk s = .next (s.takeTrap s.cur 0x11 0 0)) ∧
  (∀ (s : State) (k : Key) (t : Thread) (cause a src : Nat) (p : Place),
    let c := s.core (coreOf k)
    let f := (c.tframe.toNat + 64 * (if isService (coreOf k) then 0 else slotOf k)) % 2 ^ 56
    let u := { t.unwait with pend := none, took := [] }
    let s' := s.takeTrap k cause a src
    s.thread k = some t → t.thsBit 12 = false → c.tvec ≠ 0 → u.owesFrame = false → c.sbuf.length + 8 ≤ 16 →
    (∀ va w eff, s.access k t f 64 8 .wr true = .error ⟨.drop va w, eff⟩ → s'.mem = s.mem ∧
      s'.thread k = some { u with run := .dropped (addr va) w (some ⟨cause, a, src⟩) } ∧
      ∃ h i, (s'.core s.io.evCore).evq = (s.core s.io.evCore).evq ++ [h, dw va, i]) ∧
    (s.access k t f 64 8 .wr true = .ok p →
    ∃ t' es, s'.thread k = some t' ∧ s'.mem = s.mem ∧ s'.reqs = s.reqs ∧ s'.owed = s.owed ∧
      (∀ j, j ≠ k → s'.thread j = s.thread j) ∧
      t' = { u with
        trapcause := BitVec.ofNat 16 ((if cause = 2 then src * 256 else 0) + cause), trappc := t.pc, trapaddr := addr a, pc := c.tvec
        run := .ready, ths := t'.ths } ∧
      t'.thsBit 12 = true ∧ (∀ n, n ≠ 12 → n < 64 → t'.thsBit n = t.thsBit n) ∧
      (s'.core (coreOf k)).sbuf = c.sbuf ++ es ∧ es.length = 8 ∧
      ∀ i (h : i < es.length), ∃ w, es[i].pieces = [⟨f + 8 * i, p.loc + 8 * i, 8, w⟩] ∧ es[i].tid = t.tid ∧
        (i = 0 → ∀ n < 32, w.getLsbD n = u.pv n ∧ w.getLsbD (32 + n) = u.isFull (.p n)) ∧
        (1 ≤ i → i ≤ 4 → w = (u.gv (19 + i)).setWidth 512) ∧
        (i = 5 → w.toNat < 16 ∧ ∀ n < 4, w.getLsbD n = u.isFull (.g (20 + n))) ∧ (6 ≤ i → w = 0))) ∧
  (∀ (s : State) (k : Key) (t : Thread) (cause a src : Nat), s.thread k = some t →
    (t.thsBit 12 = true ∨ (s.core (coreOf k)).tvec = 0) →
    let s' := s.takeTrap k cause a src
    (∃ t', s'.thread k = some t' ∧ t'.run = .ending) ∧ s'.mem = s.mem ∧
    (isService (coreOf k) = true → (s'.core s.io.evCore).evq = (s.core s.io.evCore).evq ++
      [dw (2 * 2 ^ 56 + 2 ^ 48 + ((if t.thsBit 12 then 0x30 else cause) * 2 ^ 40 + t.partN * 2 ^ 32)), 0xC0000000]) ∧
    ∀ l, isService (coreOf k) = false → checkHandle s t.partN t.launchid.toNat = .live l → (s.counter l).done = false →
      (s'.counter l).fault = true ∧ (s'.counter l).count = (s.counter l).count ∧
      ((s.counter l).fault = false → (s'.counter l).fcause = BitVec.ofNat 8 (if t.thsBit 12 then 0x30 else cause)))

/-- R380 to R382: TRET restores the predicates and g20-g23 from the frame and returns, past the skipped halfwords in mode 1; JRNL reads
a journal entry of its thread; JRCL frees a refused one or writes it again, at the recorded address or another. -/
def Obligations.TretAndTheJournal : Prop :=
  (∀ (o : Op) (s : State) (t : Thread), s.thread s.cur = some t → t.thsBit 12 = false → ∀ i ∈ [Instr.tretReissue o, .tretSkip o],
    exec i s = .next (s.takeTrap s.cur causeILLEGAL 0 0)) ∧
  (∀ (o : Op) (s : State) (t : Thread), Executes s t false (o.tx s.q) [] → ∀ i ∈ [Instr.tretReissue o, .tretSkip o],
    let m := ((s.cx t).tvalZ o).toNat
    let f := s.frameVa s.cur
    let pc := target (t.trappc.setWidth 64)
    (t.thsBit 12 = true → 1 < m → exec i s = .next (s.takeTrap s.cur causeBADOPND 0 0)) ∧
    (t.thsBit 12 = true → m ≤ 1 → t.owesFrame = true → exec i s = .next (s.parkThread s.cur .owedRegs false)) ∧
    (∀ p n, t.thsBit 12 = true → m ≤ 1 → t.owesFrame = false → s.acquiring s.cur t = false →
      s.access s.cur t f 48 8 .rd false = .ok p → s.readNow s.cur t f p.loc 48 = .ok (s.mem.readN p.loc 48) →
      (m = 0 → n = 0) → (m = 1 → s.skipFrom s.cur t (2 ^ 55) 0 pc.toNat = .ok n) →
      ∃ t', exec i s = .next (((s.taken t (o.tx s.q)).claimFor (s.cx t) p).modT s.cur (fun _ => t')) ∧
        t'.pc = pc + BitVec.ofNat 56 (2 * n) ∧
        t'.thsBit 12 = false ∧ (∀ j, j ≠ 12 → j < 64 → t'.thsBit j = t.thsBit j) ∧ (∀ j < 20, t'.gcell j = t.gcell j) ∧ t'.v = t.v ∧
        (∀ j < 4, t'.gv (20 + j) = s.mem.word (p.loc + 8 + 8 * j) ∧ t'.isFull (.g (20 + j)) = (s.mem.word (p.loc + 40)).getLsbD j) ∧
        ∀ j < 32, 0 < j → t'.pv j = (s.mem.word p.loc).getLsbD j ∧ t'.isFull (.p j) = (s.mem.word p.loc).getLsbD (32 + j))) ∧
  (∀ (s : State) (k : Key) (t : Thread) (va y : Nat) (xs : List Nat), xs.length < 2 ^ 55 →
    (∀ i (h : i < xs.length), s.codeHalf k t ((va + 2 * i) % 2 ^ 56) = .ok xs[i] ∧ 0xF000 ≤ xs[i]) →
    s.codeHalf k t ((va + 2 * xs.length) % 2 ^ 56) = .ok y → y < 0xF000 →
    let page := ((xs.filter (fun x => x / 1024 == 62)).getLast?.map (fun x => x / 64 % 16)).getD 0
    s.skipFrom k t (2 ^ 55) 0 va = .ok (xs.length + 1 +
      (if (lookupOp page (y / 1024)).any (fun m => m.row.form == .blk) then 8 else 0))) ∧
  (∀ (o : Op) (s : State) (t : Thread), Executes s t false (o.tx s.q) [.x o.dn, .x (o.dn + 1)] → o.dn < 23 →
    let j := ((s.cx t).tvalZ o).toNat
    let e := mget (s.core (coreOf s.cur)).journal j
    (j < 64 → ∀ x, e = some x → x.tid = t.tid →
      exec (.jrnl o) s = .next (s.after t (o.tx s.q) (fun z => (z.setG o.dn (dw ((match x.st with
        | .pending => 0
        | .refused c => c.toNat) * 2 ^ 56 + x.a.toNat))).setG (o.dn + 1) x.data))) ∧
    (64 ≤ j ∨ e = none ∨ (∃ x, e = some x ∧ x.tid ≠ t.tid) → exec (.jrnl o) s = .next (s.takeTrap s.cur causeBADOPND 0 0))) ∧
  (∀ (o : Op) (s : State) (t : Thread), (∀ r, o.t = .reg r → r.toNat < 24) → o.dn < 24 →
    ∀ i ∈ [Instr.jrclFree o, .jrclReplay o, .jrclRedirect o],
    let x := ((s.cx t).tvalZ o).toNat
    let j := x % 64
    let e := mget (s.core (coreOf s.cur)).journal j
    let srcs := (if x / 64 % 4 = 2 then o.sx s.q else []) ++ o.tx s.q
    Executes s t false srcs [.x o.dn] →
    (192 ≤ x ∨ e = none ∨ (∃ y, e = some y ∧ (y.tid ≠ t.tid ∨ y.st = .pending)) →
      exec i s = .next (s.takeTrap s.cur causeBADOPND 0 0)) ∧
    (∀ y c, x < 192 → e = some y → y.tid = t.tid → y.st = .refused c →
      (x / 64 = 0 → ∃ s', exec i s = .next s' ∧ OwesTo s s' t o.dn 0 ∧ s'.mem = s.mem ∧ s'.reqs = s.reqs ∧
        (s'.core (coreOf s.cur)).journal = mdel (s.core (coreOf s.cur)).journal j) ∧
      (∀ p, 0 < x / 64 → let va := if x / 64 = 1 then y.a.toNat else ((s.cx t).sval o).toNat % 2 ^ 56
        s.access s.cur t va 8 8 .wr true = .ok p → s.acquiring s.cur t = false →
        ∃ s' t' z, exec i s = .next s' ∧ s'.mem = s.mem ∧ s'.thread s.cur = some t' ∧ t'.pc = s.npc t ∧ t'.isOwed (.g o.dn) = true ∧
          (∀ n, n ≠ o.dn → t'.gcell n = t.gcell n) ∧ mget (s'.core (coreOf s.cur)).journal j = some z ∧ z.st = .pending ∧
          z.replay = some o.dn ∧ z.a = addr va ∧ z.data = y.data ∧ z.tid = t.tid ∧
          (p.refuse = none → ∃ r, s'.reqs = s.reqs ++ [r] ∧ r.kind = .stp j ∧ r.pieces = [⟨va, p.loc, 8, y.data.setWidth 512⟩]) ∧
          (∀ cause, p.refuse = some cause → s'.reqs = s.reqs ∧
            s'.agenda = s.agenda ++ [⟨.journalRefusal, .n3 (coreOf s.cur) j cause⟩]))))

/-- R356 to R359, R361 to R363: PLBI removes PLB entries, HALT waits, fences and lifts a fence, DOMSW changes the domain, PREEMPT asks a
slot's thread to leave, holds or releases it, WAYM reads a way mask or records a request, and SCRUB zeroes DIRTY frames; each traps where
its mode, its operand or its core does not allow it. -/
def Obligations.PrivilegedInstructions : Prop :=
  (∀ (o : Op) (s : State) (t : Thread), Executes s t false (o.sx s.q ++ o.tx s.q) [] →
    ∀ i ∈ [Instr.plbiAddress o, .plbiCore o, .plbiModule o],
    let m := ((s.cx t).tvalZ o).toNat
    let v := ((s.cx t).sval o).toNat
    let svc := isService (coreOf s.cur)
    let s0 := s.taken t (o.sx s.q ++ o.tx s.q)
    (2 < m ∨ (m = 2 ∧ svc = true ∧ 4096 ≤ v) → exec i s = .next (s.takeTrap s.cur causeBADOPND 0 0)) ∧
    (m = 2 → svc = false → exec i s = .next (s.takeTrap s.cur causeILLEGAL 0 0)) ∧
    (m < 2 ∨ (m = 2 ∧ svc = true ∧ v < 4096) →
      (s.releasedNow s.cur t .package = false → exec i s = .next (s.parkThread s.cur (.release .package) false)) ∧
      (s.releasedNow s.cur t .package = true →
        (m = 0 → exec i s = .next (s0.modCore (coreOf s.cur) (fun c => { c with plb := c.plb.filter (fun r =>
          !(r.dom == t.domN && r.base * 4096 ≤ v % 2 ^ 56 && v % 2 ^ 56 + 1 ≤ (r.last + 1) * 4096)) }))) ∧
        (m = 1 → exec i s = .next (s0.modCore (coreOf s.cur) (fun c => { c with plb := c.plb.filter (fun r => r.dom != t.domN) }))) ∧
        (m = 2 → exec i s = .next { s0 with
          cores := s0.cores.map (fun e => (e.1, { e.2 with plb := e.2.plb.filter (fun r => r.dom != v) })) })))) ∧
  (∀ (o : Op) (s : State) (t : Thread), Executes s t true (o.sx s.q ++ o.tx s.q) [] → isService (coreOf s.cur) = true →
    ∀ i ∈ [Instr.haltSelf o, .haltFence o, .haltUnfence o],
    let m := ((s.cx t).tvalZ o).toNat
    let d := ((s.cx t).sval o).toNat
    let s0 := s.taken t (o.sx s.q ++ o.tx s.q)
    (2 < m ∨ (m ≠ 0 ∧ 8 ≤ d) → exec i s = .next (s.takeTrap s.cur causeBADOPND 0 0)) ∧
    (m = 0 → exec i s = .next (s0.modT s.cur (fun x => { x with run := .parked .halt }))) ∧
    (m = 1 → d < 8 → ∃ s', exec i s = .next s' ∧ s'.mem = s.mem ∧ (s'.die d).fenced = true ∧
      (∀ e, e ≠ d → (s'.die e).fenced = (s.die e).fenced) ∧ (∀ k, dieOfCore (coreOf k) ≠ d → s'.thread k = s0.thread k) ∧
      ∀ k x p, dieOfCore (coreOf k) = d → s'.thread k = some x → x.run = .parked p → s.performedHold x = true) ∧
    (m = 2 → d < 8 → ∃ s', exec i s = .next s' ∧ s'.mem = s.mem ∧ (∀ k, s'.thread k = s0.thread k) ∧ (s'.die d).fenced = false ∧
      (∀ e, e ≠ d → (s'.die e).fenced = (s.die e).fenced) ∧
      ∀ cl x, mget s.clusters cl = some x → cl < 512 → dieOfCluster cl = d → ∃ c, (c, ⟨.slotAssign, .n1 cl⟩) ∈ s'.timers)) ∧
  (∀ (o : Op) (s : State) (t : Thread), Executes s t true (o.sx s.q) [.x o.dn] → isService (coreOf s.cur) = true → o.dn < 24 →
    let v := ((s.cx t).sval o).toNat
    (4096 ≤ v → exec (.domsw o) s = .next (s.takeTrap s.cur causeBADOPND 0 0)) ∧
    (v < 4096 → s.releasedNow s.cur t .thread = false → exec (.domsw o) s = .next (s.parkThread s.cur (.release .thread) false)) ∧
    (v < 4096 → s.releasedNow s.cur t .thread = true → exec (.domsw o) s = .next ((s.after t (o.sx s.q) (fun x =>
      { x with domain := BitVec.ofNat 12 v })).owe s.cur [(.g o.dn, (t.domain.setWidth 64).setWidth 512)] none 0 false false))) ∧
  (∀ (i : Instr) (o : Op) (s : State) (t : Thread), isService (coreOf s.cur) = false → s.thread s.cur = some t →
    (i = .ctxs o ∨ i = .ctxl o ∨ i = .haltSelf o ∨ i = .haltFence o ∨ i = .haltUnfence o ∨ i = .domsw o ∨ i = .scrub o) →
    exec i s = .next (s.takeTrap s.cur causeILLEGAL 0 0)) ∧
  (∀ (o : Op) (s : State) (t : Thread), Executes s t false (o.sx s.q ++ o.tx s.q) [] →
    ∀ i ∈ [Instr.preemptReady o, .preemptHold o, .preemptRelease o],
    let m := ((s.cx t).tvalZ o).toNat
    let v := ((s.cx t).sval o).toNat
    let k := slotOfCoord v
    let svc := isService (coreOf s.cur)
    let s0 := s.taken t (o.sx s.q ++ o.tx s.q)
    (2 < m → exec i s = .next (s.takeTrap s.cur causeBADOPND 0 0)) ∧
    (m = 1 ∨ m = 2 → svc = false → exec i s = .next (s.takeTrap s.cur causeILLEGAL 0 0)) ∧
    (m = 0 ∨ (m < 3 ∧ svc = true) → coordReserved v = true → exec i s = .next (s.takeTrap s.cur causeBADOPND 0 0)) ∧
    (m = 0 → svc = false → coordReserved v = false → coreOf k ≠ coreOf s.cur → exec i s = .next (s.takeTrap s.cur causePROT v 0)) ∧
    (m ≤ 1 → coordReserved v = false → svc = true ∨ (m = 0 ∧ coreOf k = coreOf s.cur) →
      (s0.thread k = none ∨ (∃ x, s0.thread k = some x ∧ x.leaving.isSome = true) → exec i s = .next s0) ∧
      (∀ x, s0.thread k = some x → x.leaving = none → exec i s = .next ((s0.modT k (fun x => { x with leaving := some (m == 1) })).push
        .contextSwapOut (.n2 k x.tid)))) ∧
    (m = 2 → svc = true → coordReserved v = false → ∃ s', exec i s = .next s' ∧ s'.mem = s.mem ∧
      (∀ x ∈ (s'.core (coreOf k)).cache ++ (s'.core (coreOf k)).backing, x.slot = k → x.hold = false) ∧
      (s'.core (coreOf k)).cache.map (·.th) = (s.core (coreOf k)).cache.map (·.th))) ∧
  (∀ (o : Op) (s : State) (t : Thread), Executes s t false (o.sx s.q ++ o.tx s.q) [.x o.dn] → o.dn < 24 →
    ∀ i ∈ [Instr.waymRead o, .waymRequest o],
    let m := ((s.cx t).tvalZ o).toNat
    let v := ((s.cx t).sval o).toNat
    let cl := bits v 47 39
    let w := (s.cluster cl).wmask
    let share := ((mget (s.cluster cl).wshare t.partN).getD 0).setWidth 64
    let own := isService (coreOf s.cur) = true ∨ s.inPart t.partN (groupOfCluster cl) = true
    let s0 := s.taken t (o.sx s.q ++ o.tx s.q)
    (bits v 55 48 ≠ 0xF0 ∨ (0 < m ∧ m < 65536) ∨ 131072 ≤ m → exec i s = .next (s.takeTrap s.cur causeBADOPND 0 0)) ∧
    (bits v 55 48 = 0xF0 → m = 0 ∨ (65536 ≤ m ∧ m < 131072) →
      (¬ own → exec i s = .next (s.takeTrap s.cur causePROT v 0)) ∧
      (own → w.getLsbD 32 = true → exec i s = .next (s.parkThread s.cur (.wayPend cl) false)) ∧
      (own → w.getLsbD 32 = false →
        (m = 0 → exec i s = .next (s0.owe s.cur [(.g o.dn, w.setWidth 512)] none 0 false false)) ∧
        (65536 ≤ m → isService (coreOf s.cur) = false → (dw (m % 65536) ^^^ (w &&& 0xFFFF)) &&& ~~~share &&& 0xFFFF ≠ 0 →
          exec i s = .next (s.takeTrap s.cur causePROT v 0)) ∧
        (65536 ≤ m → (isService (coreOf s.cur) = true ∨ (dw (m % 65536) ^^^ (w &&& 0xFFFF)) &&& ~~~share &&& 0xFFFF = 0) →
          exec i s = .next (((s0.modCluster cl (fun c => { c with
            wmask := (w &&& 0xFFFF) ||| dw (2 ^ 32 + m % 65536 * 65536) })).push .wayChangeover (.n1 cl)).owe s.cur
              [(.g o.dn, w.setWidth 512)] none 0 false false))))) ∧
  (∀ (o : Op) (s : State) (t : Thread) (p : Place) (x : Nat), Executes s t true (o.sx s.q) [.x o.dn] → isService (coreOf s.cur) = true →
    o.dn < 24 → s.access s.cur t (baseAddr s t o) 32 32 .rd false = .ok p → s.acquiring s.cur t = false →
    s.readNow s.cur t (baseAddr s t o) p.loc 32 = .ok x → NoneWaits s →
    let s1 := (s.taken t (o.sx s.q)).claimFor (s.cx t) p
    (parseScrub x = none → exec (.scrub o) s = .next (s.takeTrap s.cur causeBADOPND 0 0)) ∧
    (∀ d, parseScrub x = some d → s.allDirty d = false →
      exec (.scrub o) s = .next (s1.owe s.cur [(.g o.dn, 1)] none 0 false false)) ∧
    (∀ d, parseScrub x = some d → s.allDirty d = true → ∃ s', exec (.scrub o) s = .next s' ∧ OwesTo s s' t o.dn 0 ∧
      let loc := d.grp * 2 ^ 32 + d.paddr
      (∀ a, loc ≤ a → a < loc + 4096 * d.nfr → s'.mem.byte a = 0 ∧ s'.mem.fe a = false) ∧
      (∀ a, a < loc ∨ loc + 4096 * d.nfr ≤ a → s'.mem.byte a = s.mem.byte a ∧ s'.mem.fe a = s.mem.fe a) ∧
      ∀ f, mget (s'.group d.grp).frames f =
        if d.paddr / 4096 ≤ f ∧ f < d.paddr / 4096 + d.nfr then none else mget (s1.group d.grp).frames f))

/-- R360: CTXS writes a thread's image and frees its slot; CTXL starts the thread of an image in a free slot; the status codes say why
not. -/
def Obligations.ContextImages : Prop :=
  (∀ (o : Op) (s : State) (t : Thread) (p : Place), Executes s t true (o.sx s.q ++ o.tx s.q) [.x o.dn] → o.dn < 24 →
    isService (coreOf s.cur) = true →
    let a := ((s.cx t).tval o).toNat % 2 ^ 56
    let v := ((s.cx t).sval o).toNat
    let k := slotOfCoord v
    let s0 := s.taken t (o.sx s.q ++ o.tx s.q)
    let owes (s0 : State) (n : Nat) : State := s0.owe s.cur [(.g o.dn, (dw n).setWidth 512)] none 0 false false
    let s1 := s0.claimFor (s.cx t) p
    s.acquiring s.cur t = false →
    (a % 1024 ≠ 0 ∨ (s.access s.cur t a 1024 1 .wr false = .ok p ∧ (8 ≤ bits v 19 16 ∨ coordReserved v = true)) →
      exec (.ctxs o) s = .next (s.takeTrap s.cur causeBADOPND 0 0)) ∧
    (a % 1024 = 0 → bits v 19 16 < 8 → coordReserved v = false → s.locBusy s.cur t.tid a 1024 = false →
      s.ownedBusy t.domN a 1024 .anyone = false → s.joined (homeDie p.loc) = true →
      (s.access s.cur t a 1024 1 .wr false = .ok p →
        (s.thread k = none → exec (.ctxs o) s = .next (owes s0 1)) ∧
        (∀ x, s.thread k = some x → s.unmovable k x = true → exec (.ctxs o) s = .next (owes s0 2)) ∧
        (∀ x, s.thread k = some x → s.unmovable k x = false → x.mayLeave = false ∨ s.settled k x = false ∨ x.thsBit 15 = true →
          exec (.ctxs o) s = .next ((s.modT k (fun x => { x with leaving := some false })).parkThread s.cur (.quiet k x.tid) false)) ∧
        (∀ x, s.thread k = some x → s.unmovable k x = false → x.mayLeave = true → s.settled k x = true → x.thsBit 15 = false →
          ∃ s', exec (.ctxs o) s = .next s' ∧ OwesTo s s' t o.dn 0 ∧ s'.thread k = none ∧
            (s.mem.wf = true → ∀ i < 128, s'.mem.word (p.loc + 8 * i) = dw (x.imageWord i)) ∧
            (∀ b, b < p.loc ∨ p.loc + 1024 ≤ b → s'.mem.byte b = s.mem.byte b) ∧ s'.mem.full = s.mem.full)) ∧
      (∀ x, s.access s.cur t a 1024 1 .rd false = .ok p → s.readNow s.cur t a p.loc 1024 = .ok x →
        let w (i : Nat) : Nat := x / 2 ^ (64 * i) % 2 ^ 64
        let part := w 109 % 32
        let free := (s.freeSlots (coreOf k)).contains k
        let own := s.inPart part (groupOf (coreOf k)) && s.residentOn part (groupOf (coreOf k))
        (x / 2 ^ (64 * 111) ≠ 0 → exec (.ctxl o) s = .next (s.takeTrap s.cur causeBADOPND 0 0)) ∧
        (x / 2 ^ (64 * 111) = 0 → w 29 < 2 ^ 32 →
          (free = false → exec (.ctxl o) s = .next (owes s1 1)) ∧
          (free = true → own = false → exec (.ctxl o) s = .next (owes s1 2)) ∧
          (free = true → own = true → ∃ s' y, exec (.ctxl o) s = .next s' ∧ OwesTo s s' t o.dn 0 ∧ s'.mem = s.mem ∧
            s'.thread k = some y ∧ y.run = .ready ∧ y.tid = s.nextId ∧ y.pc = target (dw (w 24)) ∧
            (∀ i < 24, y.gv i = dw (w i) ∧ y.isFull (.g i) = (dw (w 26)).getLsbD i) ∧
            (∀ i < 32, 0 < i → y.pv i = (dw (w 25)).getLsbD i ∧ y.isFull (.p i) = (dw (w 25)).getLsbD (32 + i)) ∧
            (∀ i < 8, y.vv i = BitVec.ofNat 512 (x / 2 ^ (64 * (32 + 8 * i))) ∧ y.isFull (.v i) = (dw (w 96)).getLsbD i) ∧
            y.launchid = BitVec.ofNat 32 (w 30) ∧ y.graphid = BitVec.ofNat 32 (w 31) ∧ y.partN = part ∧ y.domN = bits (w 109) 27 16 ∧
            y.waitlim = BitVec.ofNat 40 (w 28) ∧ y.trappc = addr (w 100) ∧ y.pmeta = dw (w 102) ∧ ∀ r, y.isOwed r = false))))) ∧
  (∀ (x : Thread), (∀ i < 24, x.imageWord i = (x.gv i).toNat) ∧ x.imageWord 24 = x.pc.toNat ∧ x.imageWord 27 = x.ths.toNat ∧
    (∀ n < 32, (dw (x.imageWord 25)).getLsbD n = x.pv n ∧ (dw (x.imageWord 25)).getLsbD (32 + n) = x.isFull (.p n)) ∧
    (∀ n < 24, (dw (x.imageWord 26)).getLsbD n = x.isFull (.g n)) ∧ bits (x.imageWord 26) 63 32 = x.fmode.toNat ∧
    (∀ j < 8, ∀ i < 8, x.imageWord (32 + 8 * j + i) = (x.vv j).toNat / 2 ^ (64 * i) % 2 ^ 64) ∧
    bits (x.imageWord 109) 4 0 = x.partN ∧ bits (x.imageWord 109) 27 16 = x.domN ∧ ∀ i, 111 ≤ i → i < 128 → x.imageWord i = 0)

/-- R82, R341, R343, R345, R346, R349 to R351, R355: the map of configuration space; its loads and stores from service cores, with the
refusals of PCFG and GSCHED; and what each store does when it is performed: fields are kept, reserved bits stay zero, read-only
registers do not change. -/
def Obligations.ConfigurationSpace : Prop :=
  ((∀ p < 32, ∀ i < 8, cfgReg (0x10000 + 64 * p + 8 * i) = some (.part p i)) ∧
    (∀ n < 4096, ∀ i < 2, cfgReg (0x20000 + 16 * n + 8 * i) = some (.dom n i)) ∧
    (∀ n < 1024, ∀ i < 4, cfgReg (0x100000 + 32 * n + 8 * i) = some (.grant n i)) ∧
    (∀ q < 1024, cfgReg (0x200000 + 8 * q) = some (.sendq q)) ∧
    (∀ e < 256, ∀ i < 2, cfgReg (0x300000 + 16 * e + 8 * i) = some (.eth e i)) ∧
    (∀ h < 128, ∀ i < 4, cfgReg (0x400000 + 32 * h + 8 * i) = some (.ingress h i)) ∧
    (∀ d < 8, ∀ g < 16, let x := 0x100000000000 + 0x10000000000 * d + 0x100 * g
      cfgReg x = some (.ptroot (16 * d + g)) ∧ cfgReg (x + 8) = some (.gsched (16 * d + g)) ∧
      cfgReg (x + 16) = some (.frel (16 * d + g))) ∧
    (∀ d < 8, ∀ c < 64, let x := 0x100000010000 + 0x10000000000 * d + 0x200 * c
      cfgReg x = some (.wmask (64 * d + c)) ∧ ∀ p < 32, cfgReg (x + 0x100 + 8 * p) = some (.wshare (64 * d + c) p)) ∧
    (cfgReg 0 = some .pkgid ∧ cfgReg 8 = some .bootstat ∧ cfgReg 0x10 = some .sqbase ∧ cfgReg 0x18 = some .rlybase ∧
      cfgReg 0x20 = some .svcbuf ∧ cfgReg 0x28 = none)) ∧
  (∀ (o : Op) (s : State) (t : Thread), Executes s t false (o.sx s.q ++ o.tx s.q) [.x o.dn] → o.dn < 24 →
    isService (coreOf s.cur) = true → let va := sumAddr s t o
    regionOf va = 0xF1 → regionOf ((va + 7) % 2 ^ 56) = 0xF1 →
    (∀ i ∈ [Instr.ldb o, .ldbu o, .ldh o, .ldhu o, .ldw o, .ldwu o], exec i s = .next (s.takeTrap s.cur causeMISALIGN va 0)) ∧
    (va % 8 ≠ 0 → exec (.ldd o) s = .next (s.takeTrap s.cur causeMISALIGN va 0)) ∧
    (va % 8 = 0 → cfgReg (va % 2 ^ 48) = none → exec (.ldd o) s = .next (s.takeTrap s.cur causeBADADDR va 0)) ∧
    (∀ r y, va % 8 = 0 → cfgReg (va % 2 ^ 48) = some r → s.plb s.cur t.domN va 8 .rd = .ok y → s.acquiring s.cur t = false →
      exec (.ldd o) s = .next (((s.taken t (o.sx s.q ++ o.tx s.q)).usePlb (coreOf s.cur) t.domN va 8).owe s.cur [(.g o.dn, (s.cfgRead r).setWidth 512)] none 0 false false))) ∧
  (∀ (o : Op) (s : State) (t : Thread) (r : CfgReg), Executes s t false (o.sx s.q ++ o.tx s.q ++ o.dx s.q) [] →
    isService (coreOf s.cur) = true → let va := sumAddr s t o
    let v := (s.cx t).dval o
    regionOf va = 0xF1 → va % 8 = 0 → cfgReg (va % 2 ^ 48) = some r → (∃ y, s.plb s.cur t.domN va 8 .wr = .ok y) →
    s.acquiring s.cur t = false →
    (s.cfgCheck r v = .ok () →
      exec (.std o) s = .next (((s.taken t (o.sx s.q ++ o.tx s.q ++ o.dx s.q)).usePlb (coreOf s.cur) t.domN va 8).push (r.event v) (.val s.cur (va % 2 ^ 48) v))) ∧
    (∀ p q, r = .part p 0 → v.getLsbD 63 = true → (s.partn p).valid = false → q < 32 → q ≠ p → (s.partn q).valid = true →
      bits (s.partn q).pcfg.toNat 11 0 = bits v.toNat 11 0 → exec (.std o) s = .next (s.takeTrap s.cur causeBADOPND 0 0)) ∧
    (∀ g, r = .gsched g → bits v.toNat 41 40 ≠ 0 → ¬ (1000 ≤ bits v.toNat 63 47 ∧ bits v.toNat 63 47 ≤ 100000) →
      exec (.std o) s = .next (s.takeTrap s.cur causeBADOPND 0 0)) ∧
    (∀ g i, r = .gsched g → i ≤ bits v.toNat 41 40 → s.inPart (bits v.toNat (24 + 5 * i) (20 + 5 * i)) g = false →
      exec (.std o) s = .next (s.takeTrap s.cur causeBADOPND 0 0)) ∧
    (∀ c p, r = .wshare c p → (((mget (s.cluster c).wshare p).getD 0) &&& ~~~(v.setWidth 16)) &&& (s.cluster c).wmask.setWidth 16 ≠ 0 →
      exec (.std o) s = .next (s.takeTrap s.cur causeBADOPND 0 0))) ∧
  (∀ (s : State) (k x : Nat) (v : DW) (r : CfgReg), s.arg = .val k x v → cfgReg x = some r →
    (∀ p, r = .part p 0 → ∃ s', exec .pcfgWrite s = .next s' ∧ s'.mem = s.mem ∧ s'.threads = s.threads ∧
      (s'.partn p).pcfg = (v &&& 0x8000000000000000) ||| ((if (s.partn p).valid then (s.partn p).pcfg else v) &&& 0xFFF)) ∧
    (∀ p i, r = .part p (1 + i) → i < 2 → ∃ s', exec .pgrpWrite s = .next s' ∧ s'.mem = s.mem ∧ s'.threads = s.threads ∧
      (s'.partn p).pgrp = (s.partn p).pgrp.setIfInBounds i v ∧ (s'.partn p).pnext = (s.partn p).pnext) ∧
    (∀ p i, r = .part p (3 + i) → i < 2 → ∃ s', exec .pnextWrite s = .next s' ∧ s'.mem = s.mem ∧ s'.threads = s.threads ∧
      (s'.partn p).pnext = (s.partn p).pnext.setIfInBounds i v ∧ (s'.partn p).pgrp = (s.partn p).pgrp) ∧
    (∀ g, r = .gsched g → ∃ s', exec .gschedWrite s = .next s' ∧ s'.mem = s.mem ∧ (s'.group g).gsched = (s.group g).gsched ∧
      (s'.group g).gpend = some (v &&& 0xFFFF83FFFFF00000) ∧
      (bits (s.group g).gsched.toNat 63 47 = 0 →
        ((s.rtime / 1000000 + 1) * 1000000, ⟨.gschedTakeEffect, .n1 (g / 16)⟩) ∈ s'.alarms)) ∧
    (∀ c p, r = .wshare c p → ∃ s', exec .wshareWrite s = .next s' ∧ s'.mem = s.mem ∧
      mget (s'.cluster c).wshare p = some (v.setWidth 16) ∧ (s'.cluster c).wmask = (s.cluster c).wmask) ∧
    (∀ g, r = .frel g → ∃ s', exec .frelWrite s = .next s' ∧ s'.mem = s.mem ∧ ∀ f, mget (s'.group g).frames f =
      if bits v.toNat 31 12 ≤ f ∧ f ≤ bits v.toNat 31 12 + bits v.toNat 51 32 ∧ (mget (s.group g).frames f).isSome = true then some .dirty
      else mget (s.group g).frames f) ∧
    (∀ m, (r = .pkgid ∧ m = 0xFFF) ∨ (r = .sqbase ∧ m = 0xFFFFFF00000000) ∨ (r = .rlybase ∧ m = 0xFFFFFFC00000FF) ∨
        (r = .svcbuf ∧ m = 0xFFFFFFFF000000) ∨ (∃ p, r = .part p 5 ∧ m = 0xFFFFFFFFF00000) ∨
        (∃ n, r = .dom n 0 ∧ m = 0xFFFFFFFFFFFFF0) ∨ (∃ n, r = .dom n 1 ∧ m = 0x7FF) ∨
        (∃ n, r = .grant n 0 ∧ m = 0x80000FFFFFC003FF) ∨ (∃ n i, r = .grant n i ∧ (i = 1 ∨ i = 2) ∧ m = 0xFFFFFFFFFFFFFF) ∨
        (∃ q, r = .sendq q ∧ m = 0x800000000000001F) ∨ (∃ e, r = .eth e 0 ∧ m = 0x800000000000071F) ∨
        (∃ e, r = .eth e 1 ∧ m = 0xFFFFFFFFFFFFC0) ∨ (∃ h, r = .ingress h 1 ∧ m = 0x3FFFFFFFFFF) ∨ (∃ g, r = .ptroot g ∧ m = 0xFFFFF800) ∨
        (∃ d a, r = .bandbox d a ∧ m = 0xFFFFFFFFFFFFFFFF) →
      ∃ s', exec .configWrite s = .next s' ∧ s'.mem = s.mem ∧ s'.threads = s.threads ∧ s'.cfgRead r = v &&& m) ∧
    (r = .bootstat ∨ (∃ c, r = .wmask c) → exec .configWrite s = .next s))

/-- R351 to R355: a tick takes up a written schedule, names the next owner by RTIME, stops the groups that change hands, and makes the
exchange due; a resize adds or removes its groups at their tick; the exchange puts the incoming partition's threads in the group and
keeps the outgoing ones; a die that joins late is reported. -/
def Obligations.GangSwitch : Prop :=
  (∀ (s : State) (d v : Nat) (g : Key), s.arg = .n2 d v → d < 8 → g ∈ dieGroups d → (s.group g).gsched.toNat = v →
    (∃ s', exec .gangTick s = .next s' ∧ (s'.group g).gsched = ((s.group g).gpend).getD (s.group g).gsched ∧ (s'.group g).gpend = none) ∧
    ((s.group g).gpend = none → (∀ e ∈ s.parts, e.2.resize = none ∧ e.2.images = []) →
      let period := bits v 63 47
      let new := if period = 0 then bits v 24 20 else
        let i := s.rtime / (period * 1000) % (bits v 41 40 + 1)
        bits v (24 + 5 * i) (20 + 5 * i)
      ∃ s', exec .gangTick s = .next s' ∧ s'.mem = s.mem ∧ (s'.group g).owner = (s.group g).owner ∧
        (s'.group g).incoming = (if new = (s.group g).owner then none else some new) ∧
        (new ≠ (s.group g).owner →
          (∀ c, isService c = false → groupOf c = g → s'.coreStopped c = true) ∧ (s'.die d).joining = true ∧
          (∀ k x p, isService (coreOf k) = false → groupOf (coreOf k) = g → s'.thread k = some x → x.run = .parked p →
            s.performedHold x = true) ∧
          (s.rtime + 20000, ⟨.saveDeadline, .n2 d s.cycle⟩) ∈ s'.alarms ∧
          (s.rtime + 100000, ⟨.gangLateTimeout, .n2 d s.cycle⟩) ∈ s'.alarms ∧
          (s.cycle + 16384, ⟨.bandboxExchangeDone, .n1 d⟩) ∈ s'.timers) ∧
        (period ≠ 0 → (∀ e ∈ s.alarms, e.2.i ≠ .gangTick) →
          ((s.rtime / (period * 1000) + 1) * (period * 1000), ⟨.gangTick, .n2 d v⟩) ∈ s'.alarms))) ∧
  (∀ (s : State) (d : Nat) (g : Key) (w : DW), s.arg = .n1 d → d < 8 → g ∈ dieGroups d → bits (s.group g).gsched.toNat 63 47 = 0 →
    (s.group g).gpend = some w → ∃ s', exec .gschedTakeEffect s = .next s' ∧ (s'.group g).gsched = w ∧ (s'.group g).gpend = none) ∧
  (∀ (s : State) (d v : Nat) (g p : Key) (x : Partition) (m : Vector DW 2), s.arg = .n2 d v → d < 8 → g ∈ dieGroups d →
    (s.group g).gsched.toNat = v → (s.group g).gpend = none → s.parts = [(p, x)] → x.resize = some m →
    ∃ s', exec .gangTick s = .next s' ∧
      (inMask x.pgrp g = false → inMask x.pnext g = true → inMask (s'.partn p).pgrp g = true ∧ (s'.partn p).gone.contains g = false) ∧
      (inMask x.pgrp g = true → inMask x.pnext g = false → inMask (s'.partn p).pgrp g = false ∧ (s'.partn p).gone.contains g = true ∧
        ∀ i < 4, let cl := clusterInGroup g i
          (s'.cluster cl).wmask = (s.cluster cl).wmask &&& ~~~(((mget (s.cluster cl).wshare p).getD 0).setWidth 64))) ∧
  (∀ (s : State) (d : Nat) (g : Key) (new : Nat) (ts : Map Thread), s.arg = .n1 d → d < 8 → g ∈ dieGroups d →
    (s.group g).incoming = some new → (∀ h ∈ dieGroups d, h ≠ g → (s.group h).incoming = none) → new ≠ (s.group g).owner →
    s.inPart (s.group g).owner g = true → (∀ e ∈ s.parts, inMask e.2.pgrp g = true ∨ mget e.2.images g = none) →
    inMask (s.partn new).pgrp g = true → s.io.retired = [] → (s.image new g).threads = ts → (ts.map (·.1)).Nodup →
    (∀ e ∈ ts, inGroup g e.1 = true) →
    (s.groupsQuiet [g] = false → exec .bandboxExchangeDone s = .next (s.at (s.cycle + 1) .bandboxExchangeDone (.n1 d))) ∧
    (s.groupsQuiet [g] = true → ∃ s' x, exec .bandboxExchangeDone s = .next s' ∧ s'.mem = s.mem ∧ (s'.group g).owner = new ∧
      (s'.group g).incoming = none ∧ (s'.die d).joining = false ∧
      ((s'.die d).halves.toList.getD ((s.die d).halfFor (s.group g).owner new) none).map (·.1) = some (s.group g).owner ∧
      (∀ k, s'.thread k = if inGroup g k then mget ts k else s.thread k) ∧
      mget (s'.partn (s.group g).owner).images g = some x ∧ (∀ k, inGroup g k = true → mget x.threads k = s.thread k) ∧
      x.plank.acc = (s.group g).plank.acc ∧ x.plank.queue = (s.group g).plank.queue ∧
      (s'.group g).plank.acc = (s.image new g).plank.acc ∧ mget (s'.partn new).images g = none)) ∧
  (∀ (s : State), exec .saveDeadline s = .next s) ∧
  (∀ (s : State) (d c : Nat), s.arg = .n2 d c →
    ((s.die d).joining = false ∨ (s.die d).swapTick ≠ c → exec .gangLateTimeout s = .next s) ∧
    (∀ p, (s.die d).joining = true → (s.die d).swapTick = c →
      (((dieGroups d).filterMap (fun g => (s.group g).incoming)).eraseDups) = [p] →
      ∃ s', exec .gangLateTimeout s = .next s' ∧ s'.mem = s.mem ∧ s'.threads = s.threads ∧
        (s'.core s.io.evCore).evq = (s.core s.io.evCore).evq ++ [dw (3 * 2 ^ 56 + d * 2 ^ 37 + p * 2 ^ 32)]))

/-- R25, R361, R371, R386 to R394, R397, R413: what the messages of Plynvas do; how faults are counted, when a unit is replaced or has no
spare, and how a link loses lanes. -/
def Obligations.MessagesAndRecovery : Prop :=
  (∀ (s : State) (core : Key) (t : Thread) (va : Addr) (w : Bool) (declined : Bool), s.arg = .n1 core →
    let k := slotOfCoord ((s.core core).msgOut.headD 0).toNat
    let i := if declined then Instr.declineMessage else .mapMessage
    (∀ e, s.thread k = some t → t.run = .dropped va w (some e) →
      ∃ s', exec i s = .next s' ∧ s'.mem = s.mem ∧ s'.thread k = some { t with
        run := .entering e.cause e.a e.src, ths := if declined then withBit t.ths 12 true else t.ths }) ∧
    (s.thread k = some t → t.run = .dropped va w none →
      ∃ s', exec i s = .next s' ∧ s'.mem = s.mem ∧ (s'.core core).msgOut = [] ∧ (s'.core core).msgBusy = false ∧
        s'.thread k = some { t with run := .ready, readyAt := s.cycle + 2, declined := if declined then some (t.pc, va) else none } ∧
        ∀ j, j ≠ k → s'.thread j = s.thread j) ∧
    (∀ cl c l a, (s.cluster cl).copyq = c :: l → c.k = k → c.stalled = some a →
      ∃ s', exec i s = .next s' ∧ (s'.cluster cl).copyq.head? =
          some { c with stalled := none, status := if declined then 5 else c.status } ∧
        (declined = false → c.status = 0 → c.row < c.rows → ⟨.copyUnitWrite, .n1 cl⟩ ∈ s'.agenda) ∧
        (declined = true → ⟨.copyComplete, .n1 cl⟩ ∈ s'.agenda))) ∧
  (∀ (s : State) (core : Key) (t : Thread), s.arg = .n1 core →
    let h := ((s.core core).msgOut.headD 0).toNat
    let n := h % 16 % 8
    let k := ((8 + n / 4) * 1024 + n % 4) * 8
    (s.thread k = some t → t.run = .parked .halt → ∃ s', exec .wakeMessage s = .next s' ∧ s'.mem = s.mem ∧
      s'.thread k = some { t with run := .ready, readyAt := s.cycle + 2 } ∧ (s'.core core).msgBusy = false) ∧
    (let port := h % 256
      let conn := h / 65536 % 65536
      let x := s.mem.readN (((s.core core).msgOut.drop 1).headD 0).toNat 8
      ∃ s', exec .serviceResponse s = .next s' ∧ s'.mem = s.mem ∧ s'.threads = s.threads ∧ (s'.core core).msgBusy = false ∧
        s'.io.resps = if (mget s.io.conns (port * 2 ^ 32 + conn)).isSome then
          s.io.resps ++ [⟨port, conn, BitVec.ofNat 16 (x / 2 ^ 48), BitVec.ofNat 8 x, []⟩] else s.io.resps)) ∧
  (∀ (s : State) (l : Nat), s.arg = .n1 l → let x := s.fabricLink l
    ∃ s', exec .laneFailure s = .next s' ∧ s'.mem = s.mem ∧ s'.threads = s.threads ∧ s'.agenda = s.agenda ∧
      (0 < x.spares → s'.fabricLink l = { x with spares := x.spares - 1 }) ∧
      (x.spares = 0 → x.fenced = false → 4 < x.width → s'.fabricLink l = { x with width := x.width / 2 }) ∧
      (x.spares = 0 → x.width = 4 → (s'.fabricLink l).fenced = true) ∧ (∀ m, m ≠ l → s'.fabricLink m = s.fabricLink m) ∧
      ∀ p, s.fabric = [p] → p.onLink l s.cycle = true → ∃ x, s'.fabric = [x] ∧ x.ev = p.ev ∧ x.flits = p.flits ∧
        ((s'.fabricLink l).fenced = false → x.came = s.cycle + p.flits * 16 / (s'.fabricLink l).width)) ∧
  (∀ (s : State) (l : Nat), s.arg = .n1 l → ∃ s', exec .linkCheckFailure s = .next s' ∧ s'.mem = s.mem ∧ s'.threads = s.threads ∧
    s'.io = s.io ∧ s'.agenda = s.agenda ∧ s'.timers = s.timers ∧ (∀ p, s.fabric = [p] → p.onLink l s.cycle = true →
      (s.fabricLink l).fenced = false → ∃ x, s'.fabric = [x] ∧ x.ev = p.ev ∧ x.flits = p.flits ∧
        x.came = s.cycle + p.flits * 16 / (s.fabricLink l).width)) ∧
  (∀ (s : State) (u : HwUnit) (ws : List Nat), s.arg = .fault u ws →
    let near := ((s.faultsOf u).take 2).filter (fun r => s.rtime ≤ r + 600000000000)
    (s.io.replacing.contains u = true → exec .faultEvent s = .next (s.modMem (fun m => m.strike ws))) ∧
    (s.io.replacing.contains u = false → near.length < 2 → ∃ s', exec .faultEvent s = .next s' ∧ (∀ a, s'.mem.byte a = s.mem.byte a) ∧
      (∀ w ∈ ws, w ∈ s'.mem.poison) ∧ s'.faultsOf u = (s.rtime :: s.faultsOf u).take 3 ∧ s'.cores = s.cores ∧ s'.groups = s.groups ∧
      (∀ x, x ≠ u → s'.faultsOf x = s.faultsOf x)) ∧
    (∀ g, u = .plank g → s.io.replacing.contains u = false → s.io.retired.contains u = false → near.length = 2 →
      let e (no : Nat) : List DW := (s.core s.io.evCore).evq ++ [dw (4 * 2 ^ 56 + 2 ^ 48 + 2 * 2 ^ 40 + g / 16 % 8 * 2 ^ 37),
        dw (g % 16 + no * 2 ^ 63)]
      ((s.die (g / 16)).spareUsed = false → ∃ s', exec .faultEvent s = .next s' ∧ (s'.die (g / 16)).spareUsed = true ∧
        s'.io.replacing.contains u = true ∧ (s.rtime + 8000, ⟨.unitReplacementDone, .unit u⟩) ∈ s'.alarms ∧ (s'.core s.io.evCore).evq = e 0) ∧
      ((s.die (g / 16)).spareUsed = true → ∃ s', exec .faultEvent s = .next s' ∧ (s'.group g).plank.retired = true ∧
        s'.faultsOf u = [] ∧ (s'.core s.io.evCore).evq = e 1)) ∧
    (∀ c, u = .core c → isService c = false → s.io.replacing.contains u = false → s.io.retired.contains u = false → near.length = 2 →
      (s.cluster (clusterOf c)).spareUsed = false → ∃ s', exec .faultEvent s = .next s' ∧ (s'.core c).stopped = true ∧
        (s'.cluster (clusterOf c)).spareUsed = true ∧ s'.io.replacing.contains u = true ∧
        ∀ k x p, coreOf k = c → s'.thread k = some x → x.run = .parked p → s.performedHold x = true)) ∧
  (∀ (s : State) (u : HwUnit), s.arg = .unit u →
    (s.io.replacing.contains u = false → exec .unitReplacementDone s = .next s) ∧
    (∀ c, u = .core c → s.io.replacing.contains u = true → s.io.retired.contains u = false → s.coreQuiet c = true →
      ∃ s', exec .unitReplacementDone s = .next s' ∧ (s'.core c).stopped = false ∧ s'.io.replacing.contains u = false ∧
        s'.faultsOf u = [] ∧ s'.mem = s.mem ∧ s'.threads = s.threads) ∧
    (∀ c, u = .core c → s.io.replacing.contains u = true → s.coreQuiet c = false →
      exec .unitReplacementDone s = .next (s.at (s.cycle + 1) .unitReplacementDone (.unit u))))

/-- R94, R397, R400 to R403: the service endpoint's rounds, its answers and what it puts before Plynvas; the boot stages and their verified images;
a firmware update; what a loss of power leaves; and the thermal governor. Where a request stands in the service buffer is a free value
(log 9), and the digests and signatures are opaque (log 8). -/
def Obligations.ServiceBootAndCooling : Prop :=
  (∀ (s : State) (r : SvcReq), s.arg = .svc r →
    let rod := s.connOf r.port r.conn |>.any (fun c => c.mode == 1)
    let ok := bits r.hdr.toNat 39 37 = 0 ∧ bits r.hdr.toNat 31 0 = r.body.length ∧ r.body.length ≤ 0x100000
    let responds (i : Instr) (st : Byte) (body : List Byte) : Prop := ∃ s', exec i s = .next s' ∧ s'.mem = s.mem ∧ s'.io.resps = s.io.resps ++
      [⟨r.port, r.conn, BitVec.ofNat 16 (r.hdr.toNat / 2 ^ 48), st, body⟩]
    let served := [Instr.svcPartitionConfig, .svcJobLoad, .svcJobStart, .svcJobCancel, .svcFaultRecords]
    (rod = false → ∀ i ∈ .svcStatus :: .svcAttest :: .svcFirmwareUpdate :: served,
      exec i s = .next (s.answer r.port r.conn .err [])) ∧
    (rod = true → s.svcYields r = true → ∀ i ∈ .svcStatus :: .svcAttest :: .svcFirmwareUpdate :: served, exec i s = .next (s.push i s.arg)) ∧
    (s.svcYields r = false → s.svcBusy r = false →
    (rod = true → s.io.boot.ready = false → ∀ i ∈ .svcAttest :: .svcFirmwareUpdate :: served, responds i 1 []) ∧
    (rod = true → s.io.boot.ready = true → ¬ ok → ∀ i ∈ .svcAttest :: .svcFirmwareUpdate :: served, responds i 2 []) ∧
    (rod = true → ok → responds .svcStatus 0 ((List.range 8).map (fun j => BitVec.ofNat 8 ((s.io.boot.stage + (if s.io.boot.ready then 8 else 0) +
      s.io.boot.failImage * 256 + s.io.boot.failSig * 4096) % 2 ^ 64 / 256 ^ j)))) ∧
    (rod = true → s.io.boot.ready = true → ok → ∀ i ∈ served, ∃ s' a, exec i s = .next s' ∧ s'.free = s.free + 1 ∧
      a = s.io.svcbuf.toNat % 2 ^ 39 + 8 * ((Config.freeValue s.free).toNat % 0x1DFFFF) ∧ s'.io.resps = s.io.resps ∧
      (s'.core s.io.evCore).evq = (s.core s.io.evCore).evq ++ [dw (5 * 2 ^ 56 + 2 ^ 48 + (r.conn % 65536 * 2 ^ 16 + r.port % 256)), dw a] ∧
      (s.mem.wf = true → s'.mem.word a = r.hdr ∧ ∀ j (h : j < r.body.length), s'.mem.byte (a + 8 + j) = r.body[j])) ∧
    (rod = true → s.io.boot.ready = true → ok →
      (r.body.length ≠ 32 → responds .svcAttest 2 []) ∧ (r.body.length = 32 → 1048576 ≤ s.io.boot.leaf → responds .svcAttest 3 []) ∧
      (r.body.length = 32 → s.io.boot.leaf < 1048576 → ∃ s' b, exec .svcAttest s = .next s' ∧ s'.io.boot.leaf = s.io.boot.leaf + 1 ∧
        s'.io.resps = s.io.resps ++ [⟨r.port, r.conn, BitVec.ofNat 16 (r.hdr.toNat / 2 ^ 48), 0, b⟩] ∧ b.take 32 = r.body ∧
        (b.drop 32).take 48 = natBytes 48 s.io.boot.m1.toNat ∧ (b.drop 80).take 48 = natBytes 48 s.io.boot.m3.toNat) ∧
      (let j := Config.judge r.body
        let old := if j.1 then s.io.boot.bootedL else s.io.boot.bootedP
        (s.io.boot.updating.isSome = true → responds .svcFirmwareUpdate 4 []) ∧
        (s.io.boot.updating = none → ¬ (j.2.1 ∧ j.2.2.1 ∧ s.io.boot.minVersion ≤ j.2.2.2.1) → responds .svcFirmwareUpdate 3 []) ∧
        (s.io.boot.updating = none → j.2.1 ∧ j.2.2.1 ∧ s.io.boot.minVersion ≤ j.2.2.2.1 → old < 2 →
          ∃ s', exec .svcFirmwareUpdate s = .next s' ∧ s'.io.resps = s.io.resps ∧
            s'.io.boot.updating = some (if j.1 then 0 else 1, 1 - old, ⟨j.2.1, j.2.2.1, j.2.2.2.1, j.2.2.2.2⟩) ∧
            (s'.io.boot.slots j.1).toList.getD old none = (s.io.boot.slots j.1).toList.getD old none ∧
            s'.io.boot.slots (!j.1) = s.io.boot.slots (!j.1)))))) ∧
  (∀ (s : State) (r x : SvcReq) (e : Ev), e.arg = .svc x → r.port < 8 → x.port < 8 → s.io.svcPort < 8 →
    let after (n last k : Nat) : Nat := (k + n - 1 - last) % n
    s.svcBefore r e = decide (after 8 s.io.svcPort x.port < after 8 s.io.svcPort r.port ∨
      (x.port = r.port ∧ after (2 ^ 32) ((mget s.io.svcConns r.port).getD (2 ^ 32 - 1)) x.conn <
        after (2 ^ 32) ((mget s.io.svcConns r.port).getD (2 ^ 32 - 1)) r.conn))) ∧
  (∀ (s : State) (port conn tag k i : Nat) (x : FlashImg), s.arg = .n3 port conn tag → s.io.boot.updating = some (k, i, x) → k < 2 → i < 2 →
    ∃ s', exec .svcFirmwareUpdate s = .next s' ∧ s'.io.boot.updating = none ∧
      (s'.io.boot.slots (k == 0)).toList.getD i none = some x ∧ s'.io.boot.slots (k != 0) = s.io.boot.slots (k != 0) ∧
      s'.io.resps = s.io.resps ++ [⟨port, conn, BitVec.ofNat 16 tag, 0, []⟩]) ∧
  (∀ s : State, ∃ s', exec .powerUp s = .next s' ∧ (∀ a, s'.mem.byte a = 0 ∧ s'.mem.fe a = false) ∧ (∀ g f, mget (s'.group g).frames f = none) ∧
    s'.threads = s.threads ∧ s'.io = s.io) ∧
  (∀ s : State, s.io.boot.stage = 0 → s.io.boot.stopped = false → s.io.boot.ready = false →
    ∃ s', exec .rootSelfTest s = .next s' ∧ s'.io.boot = { s.io.boot with tested := true } ∧ s'.mem = s.mem) ∧
  (∀ s : State, s.io.boot.tested = false → s.io.boot.stage = 0 → exec .loaderCopy s = .next s) ∧
  (∀ (s : State), s.io.boot.stopped = false → s.io.boot.ready = false → s.io.boot.tested = true → ∀ loader : Bool,
    let i := if loader then Instr.loaderCopy else .plynvasLoad
    let n := if loader then 1 else 3
    let at_ (j : Nat) := (s.io.boot.slots loader).toList.getD j none
    let good (x : FlashImg) : Prop := x.ecdsa = true ∧ x.lms = true ∧ s.io.boot.minVersion ≤ x.version
    (s.io.boot.stage ≠ n - 1 → exec i s = .next s) ∧
    (s.io.boot.stage = n - 1 →
      (∀ j x, at_ j = some x → good x → (j = 0 ∨ (j = 1 ∧ ∀ y, at_ 0 = some y → ¬ good y)) →
        ∃ s', exec i s = .next s' ∧ s'.io.boot.stage = n ∧ s'.io.boot.stopped = false ∧
          (loader = true → s'.io.boot.m1 = Config.sha384 s.io.boot.m1 x.digest ∧ s'.io.boot.m3 = s.io.boot.m3 ∧ s'.io.boot.bootedL = j) ∧
          (loader = false → s'.io.boot.m3 = Config.sha384 s.io.boot.m3 x.digest ∧ s'.io.boot.m1 = s.io.boot.m1 ∧
            s'.io.boot.bootedP = j)) ∧
      ((∀ j < 2, ∀ y, at_ j = some y → ¬ good y) → ∃ s', exec i s = .next s' ∧ s'.io.boot.stopped = true ∧ s'.io.boot.failImage = n ∧
        s'.io.boot.m1 = s.io.boot.m1 ∧ s'.io.boot.m3 = s.io.boot.m3))) ∧
  (∀ (s : State) (id : Nat), s.arg = .n1 id → s.io.boot.stopped = false → s.io.boot.ready = false → s.io.boot.stage = 1 →
    ∃ s', exec .linkTraining s = .next s' ∧ s'.io.boot.stage = 2 ∧ s'.io.pkgid = dw (id % 4096) ∧
      (∀ a, s'.mem.byte a = 0 ∧ s'.mem.fe a = false) ∧ ∀ l, s'.fabricLink l = ⟨16, 2, false⟩) ∧
  (∀ (s : State), s.io.boot.stopped = false → s.io.boot.ready = false → s.io.boot.stage = 3 →
    ∃ s', exec .readyReport s = .next s' ∧ s'.io.boot.ready = true ∧ s'.io.boot.stage = 4 ∧ s'.mem = s.mem ∧ s'.threads = s.threads) ∧
  (∀ (s : State), ∃ s', exec .powerLoss s = .next s' ∧ s'.threads = [] ∧ (∀ a, s'.mem.byte a = 0) ∧ s'.io.boot.stage = 0 ∧
    s'.io.boot.ready = false ∧ s'.io.boot.leaf = s.io.boot.leaf ∧ s'.io.boot.minVersion = s.io.boot.minVersion ∧
    (s.io.boot.updating = none → s'.io.boot.loader = s.io.boot.loader ∧ s'.io.boot.plynvas = s.io.boot.plynvas)) ∧
  (∀ (s : State) (t : Nat), s.arg = .n1 t → let hot := 100 < t ∨ (s.io.cooling = true ∧ 95 ≤ t)
    ∃ s', exec .thermalOverTemp s = .next s' ∧ s'.mem = s.mem ∧ s'.threads = s.threads ∧
      (hot → s'.io.budget = s.io.budget - 210 ∧ s'.io.cooling = true) ∧
      (¬ hot → s'.io.budget = min 4200 (s.io.budget + 210) ∧ s'.io.cooling = false)) ∧
  (∀ (s : State) (d : Nat), s.arg = .n1 d → ∃ s', exec .thermalTrip s = .next s' ∧ s'.mem = s.mem ∧ (∀ i < 8, (s'.die i).fenced = true) ∧
    (s'.core s.io.evCore).evq = (s.core s.io.evCore).evq ++ [dw (7 * 2 ^ 56 + d % 8 * 2 ^ 37)])

/-- R145, R146, R148, R159 to R165: OSEND reads and checks its descriptor and takes the queue's next number; OQCFG, OSTAT and OCAL read
what stands in the rotor interface, OQCFG and OCAL write it where the core may; OWAIT answers RTIME at once or parks. -/
def Obligations.RotorInstructions : Prop :=
  (∀ x : Nat, let w (i : Nat) : Nat := x / 2 ^ (64 * i) % 2 ^ 64
    parseDesc x = if w 0 < 2 ^ 56 ∧ 1 ≤ w 1 ∧ w 1 ≤ 65536 ∧ w 2 < 2 ^ 56 ∧ w 2 % 8 = 0 ∧ w 3 < 2 ^ 56 ∧ w 3 % 8 = 0 then
      some (w 0, w 1, addr (w 2), addr (w 3)) else none) ∧
  (∀ (o : Op) (s : State) (t : Thread) (p : Place), Executes s t false (o.sx s.q ++ o.tx s.q) [.x o.dn] → o.dn < 24 → t.pend = none →
    let a := baseAddr s t o
    let q := ((s.cx t).tvalZ o).toNat
    let sq := s.sendq q
    let own := sq.valid && sq.part == t.partN
    s.acquiring s.cur t = false → s.access s.cur t a 32 32 .rd false = .ok p →
    (1024 ≤ q → exec (.osend o) s = .next (s.takeTrap s.cur causeBADOPND 0 0)) ∧
    (q < 1024 → own = false → exec (.osend o) s = .next (s.takeTrap s.cur causePROT q 0)) ∧
    (∀ x, q < 1024 → own = true → s.readNow s.cur t a p.loc 32 = .ok x →
      (parseDesc x = none ∨ sq.halt = true → exec (.osend o) s = .next (s.takeTrap s.cur causeBADOPND 0 0)) ∧
      (∀ src len rdst rcw, parseDesc x = some (src, len, rdst, rcw) → sq.halt = false →
        (64 ≤ sq.msgs.length → exec (.osend o) s = .next (((s.claimRead t p.loc).modT s.cur (fun x => { x with
          pend := none })).parkThread s.cur (.queueRoom q) true)) ∧
        (sq.msgs.length < 64 → s.releasedNow s.cur t .die = false → exec (.osend o) s = .next (((s.claimRead t p.loc).modT s.cur (fun x => { x with
          pend := some (.osend q src len rdst rcw) })).parkThread s.cur (.release .die) false)) ∧
        (sq.msgs.length < 64 → s.releasedNow s.cur t .die = true → ∃ s' t' m, exec (.osend o) s = .next s' ∧ s'.mem = s.mem ∧
          s'.sendq q = { sq with next := sq.next + 1, msgs := sq.msgs ++ [m] } ∧ m.seq = sq.next ∧ m.src = src ∧ m.len = len ∧ m.rdst = rdst ∧
          m.rcw = rcw ∧ m.tid = t.tid ∧ m.part = t.partN ∧ m.dom = t.domN ∧ m.dest = some o.dn ∧ m.held = false ∧ m.ended = false ∧
          s'.thread s.cur = some t' ∧ t'.pc = s.npc t ∧ t'.isOwed (.g o.dn) = true ∧ (∀ n, n ≠ o.dn → t'.gcell n = t.gcell n) ∧
          s'.agenda = s.agenda ++ [⟨.osendBytesHeld, .n2 q sq.next.toNat⟩])))) ∧
  (∀ (o : Op) (s : State) (t : Thread), Executes s t false (o.sx s.q ++ o.tx s.q) [.x o.dn] → o.dn < 24 →
    ∀ i ∈ [Instr.oqcfgRead o, .oqcfgWrite o],
    let m := ((s.cx t).tvalZ o).toNat
    let q := m % 1024
    let sq := s.sendq q
    let new := (s.cx t).sval o &&& 0xFFFF100F0FFF
    let moves := bits new.toNat 19 16 ≠ bits sq.cfg.toNat 19 16 ∨ bits new.toNat 11 0 ≠ bits sq.cfg.toNat 11 0
    let out (f : State → State) : Prop := exec i s = .next ((f (s.taken t (o.sx s.q ++ o.tx s.q))).modT s.cur (fun x => x.setG o.dn sq.cfg))
    (2048 ≤ m → exec i s = .next (s.takeTrap s.cur causeBADOPND 0 0)) ∧
    (m < 2048 → ¬ (sq.valid = true ∧ sq.part = t.partN) → exec i s = .next (s.takeTrap s.cur causePROT q 0)) ∧
    (m < 1024 → sq.valid = true → sq.part = t.partN → out id) ∧
    (1024 ≤ m → m < 2048 → sq.valid = true → sq.part = t.partN →
      (moves → isService (coreOf s.cur) = false → exec i s = .next (s.takeTrap s.cur causeILLEGAL 0 0)) ∧
      (moves → isService (coreOf s.cur) = true → sq.msgs ≠ [] → exec i s = .next (s.takeTrap s.cur causeBADOPND 0 0)) ∧
      (¬ moves ∨ (isService (coreOf s.cur) = true ∧ sq.msgs = []) →
        out (fun s => (s.modSendq q (fun x => { x with cfg := new, halt := false })).modIo (fun io => { io with
          resets := io.resets ++ [(bits new.toNat 11 0, q, sq.next)] }))))) ∧
  (∀ (o : Op) (s : State) (t : Thread), Executes s t false (o.tx s.q) [.x o.dn] → o.dn < 24 →
    ∀ i ∈ [Instr.ostatQueue o, .ostatPort o, .ostatRelay o],
    let m := ((s.cx t).tvalZ o).toNat
    let x := m % 1024
    let sq := s.sendq x
    let r := s.rport x
    let out (v : DW) : Prop := exec i s = .next (s.after t (o.tx s.q) (fun z => z.setG o.dn v))
    (3072 ≤ m ∨ (1024 ≤ m ∧ 16 ≤ x) → exec i s = .next (s.takeTrap s.cur causeBADOPND 0 0)) ∧
    (m < 1024 → ¬ (sq.valid = true ∧ sq.part = t.partN) → exec i s = .next (s.takeTrap s.cur causePROT x 0)) ∧
    (m < 1024 → sq.valid = true → sq.part = t.partN → sq.msgs.length ≤ 64 → ∃ v, out v ∧ bits v.toNat 63 32 = sq.next.toNat ∧
      bits v.toNat 23 16 = sq.msgs.length ∧ v.getLsbD 2 = sq.halt ∧ v.getLsbD 1 = !(s.resident sq.part) ∧
      (v.getLsbD 0 = true ↔ ∃ y ∈ sq.msgs, ∃ f ∈ y.frames, f.acked = false) ∧
      bits v.toNat 31 24 = 0 ∧ bits v.toNat 7 3 = 0) ∧
    (1024 ≤ m → m < 2048 → x < 16 → r.misroute < 65536 → r.slot < 64 → ∃ v, out v ∧ bits v.toNat 63 32 = r.rot % 2 ^ 32 ∧
      bits v.toNat 31 16 = r.misroute ∧ bits v.toNat 13 8 = r.slot ∧ v.getLsbD 1 = (r.seen && decide (s.rtime < r.slotAt + r.act.guard)) ∧
      v.getLsbD 0 = r.lock ∧ bits v.toNat 15 14 = 0 ∧ bits v.toNat 7 2 = 0) ∧
    (2048 ≤ m → m < 3072 → x < 16 → out (dw r.relay.length))) ∧
  (∀ (o : Op) (s : State) (t : Thread), Executes s t false (o.sx s.q ++ o.tx s.q) [.x o.dn] → o.dn < 24 →
    ∀ i ∈ [Instr.ocalRead o, .ocalWrite o],
    let m := ((s.cx t).tvalZ o).toNat
    let v := ((s.cx t).sval o).toNat
    let p := bits m 9 6
    let j := bits m 5 0
    let r := s.rport p
    let svc := isService (coreOf s.cur)
    let cal := if bit m 13 then r.shad else r.act
    let old := if bit m 12 then (if r.pending then 2 ^ 30 else 0) + cal.guard * 2 ^ 6 + cal.last else
      let e := (mget cal.slots j).getD (false, 0, 500)
      (if e.1 then 2 ^ 31 else 0) + e.2.1 * 2 ^ 16 + e.2.2
    let out (f : State → State) : Prop :=
      exec i s = .next ((f (s.taken t (o.sx s.q ++ o.tx s.q))).modT s.cur (fun x => x.setG o.dn (dw old)))
    ((bit m 12 = true ∧ j ≠ 0) ∨ (bit m 10 = true ∧ bit m 11 = false) ∨ (2 ^ 14 ≤ m ∧ bit m 11 = false) →
      exec i s = .next (s.takeTrap s.cur causeBADOPND 0 0)) ∧
    (m < 2 ^ 14 → bit m 10 = false → (bit m 12 = true → j = 0) →
      (bit m 11 = false → out id) ∧
      (bit m 11 = true → svc = false → exec i s = .next (s.takeTrap s.cur causeILLEGAL 0 0)) ∧
      (bit m 11 = true → svc = true →
        (bit m 12 = false → out (fun s => s.modRport p (fun y => { y with
          shad := { r.shad with slots := mput r.shad.slots j (bit v 31, bits v 27 16, bits v 11 0) } }))) ∧
        (bit m 12 = true → let new : Calendar := { r.shad with guard := bits v 15 6, last := bits v 5 0 }
          (bit v 31 = false → out (fun s => s.modRport p (fun y => { y with shad := new }))) ∧
          (bit v 31 = true →
            let e (n : Nat) := (mget new.slots n).getD (false, 0, 500)
            let good := 100 ≤ new.guard ∧ new.guard ≤ 1000 ∧ ∀ n, n ≤ new.last → 200 ≤ (e n).2.2 ∧ (e n).2.2 ≤ 4000 ∧
              ((e n).1 = true → new.guard < 10 * (e n).2.2 ∧ (e n).2.1 ≠ s.io.pkgid.toNat)
            (good → out (fun s => s.modRport p (fun y => { y with shad := new, pending := true }))) ∧
            (¬ good → exec i s = .next (s.takeTrap s.cur causeBADOPND 0 0))))))) ∧
  (∀ (o : Op) (s : State) (t : Thread), Executes s t false (o.sx s.q ++ o.tx s.q) [.x o.dn] → o.dn < 24 →
    ∀ i ∈ [Instr.owaitTime o, .owaitSlot o],
    let m := ((s.cx t).tvalZ o).toNat
    let v := ((s.cx t).sval o).toNat
    let parked (w : Option (Nat × Nat)) : Prop := ∃ s' t', exec i s = .next s' ∧ s'.mem = s.mem ∧ s'.thread s.cur = some t' ∧
      t'.isOwed (.g o.dn) = true ∧ (∀ n, n ≠ o.dn → t'.gcell n = t.gcell n) ∧
      t'.pc = t.pc ∧ t'.npc = s.npc t ∧ t'.run = .parked (.rotor o.dn (t.gcell o.dn).full w) ∧ t'.waitId = s.nextId ∧
      (w = none → (v, ⟨.rotorEvent, .n2 t.tid s.nextId⟩) ∈ s'.alarms) ∧
      (t.waitlim ≠ 0 → (s.cycle + t.waitlim.toNat, ⟨.waitlimExpiry, .n2 t.tid s.nextId⟩) ∈ s'.timers)
    (bits m 14 10 ≠ 0 ∨ 65536 ≤ m → exec i s = .next (s.takeTrap s.cur causeBADOPND 0 0)) ∧
    (bits m 14 10 = 0 → m < 32768 → v ≤ s.rtime → exec i s = .next ((s.taken t (o.sx s.q ++ o.tx s.q)).owe s.cur
      [(.g o.dn, (dw s.rtime).setWidth 512)] none 0 false false)) ∧
    (bits m 14 10 = 0 → m < 32768 → s.rtime < v → parked none) ∧
    (bits m 14 10 = 0 → 32768 ≤ m → m < 65536 →
      ((s.rport (bits m 9 6)).act.last < bits m 5 0 → exec i s = .next (s.takeTrap s.cur causeBADOPND 0 0)) ∧
      (bits m 5 0 ≤ (s.rport (bits m 9 6)).act.last → parked (some (bits m 9 6, bits m 5 0)))))

/-- R143 to R146, R149 to R151, R153 to R158, R160, R164, R350: the rotor interface's own steps: a message's bytes are held or it is left
unsent; markers lock a port, begin its slots, bring in the shadow calendar and are what RTIME follows; a frame is started, with its header, only
where it fits its slot and quota; frames are checked, written, acknowledged, relayed and completed in order; records reach q3 where it has
room; resends end in a halt. -/
def Obligations.RotorSteps : Prop :=
  let alone (s : State) (q : Nat) : Prop := (s.io.sendqs.map (·.1)).Nodup ∧
    ∀ e ∈ s.io.sendqs, e.1 ≠ q → ∀ y, e.2.msgs.head? = some y → y.ended = false
  (∀ (s : State) (q : Nat) (m : Msg) (l : List Msg) (k : Key) (t : Thread) (d loc : Nat), s.arg = .n2 q m.seq.toNat →
    (s.sendq q).msgs = m :: l → m.held = false → m.ended = false → m.stalled = none → s.behindStalled m = false → m.status = 0 →
    InSlot s k t m.tid → m.dest = some d → d < 24 → 1 ≤ m.len → m.src % 4096 + m.len ≤ 4096 →
    let r := s.engPlaces m.acc .rd [(m.src, m.len)]
    (r = .ok [⟨m.src, loc, m.len, 0⟩] → ∃ s' m', exec .osendBytesHeld s = .next s' ∧ s'.mem = s.mem ∧
      s'.thread k = some (t.setG d (m.seq.setWidth 64)) ∧ (s'.sendq q).msgs.head? = some m' ∧ m'.held = true ∧ m'.seq = m.seq ∧
      m'.data = (List.range m.len).map (fun i => s.mem.byte (loc + i)) ∧ m'.frames = [⟨0, none, false, 0, false, false⟩]) ∧
    (∀ st, r = .error (.status st) → (∀ x ∈ l, x.ended = false ∧ x.seq ≠ m.seq) → alone s q → t.q3.length < 16 →
      ∃ s', exec .osendBytesHeld s = .next s' ∧ s'.mem = s.mem ∧ (s'.sendq q).msgs = l ∧
        ∃ t', s'.thread k = some t' ∧ t'.gv d = m.seq.setWidth 64 ∧ t'.q3 = t.q3 ++ [dw (m.seq.toNat * 2 ^ 32 + q * 2 ^ 22 + 3)])) ∧
  (∀ (s : State) (q : Nat) (m : Msg) (l : List Msg) (k : Key) (t : Thread), s.arg = .n2 q m.seq.toNat → (s.sendq q).msgs = m :: l →
    m.ended = false → (∀ x ∈ l, x.ended = false ∧ x.seq ≠ m.seq) → alone s q → InSlot s k t m.tid →
    (t.q3.length < 16 → ∃ s', exec .completionAckArrival s = .next s' ∧ s'.mem = s.mem ∧ (s'.sendq q).msgs = l ∧
      s'.thread k = some { t with q3 := t.q3 ++ [dw (m.seq.toNat * 2 ^ 32 + q * 2 ^ 22)] }) ∧
    (16 ≤ t.q3.length → ∃ s' m', exec .completionAckArrival s = .next s' ∧ s'.mem = s.mem ∧ s'.thread k = some t ∧
      (s'.sendq q).msgs = m' :: l ∧ m'.ended = true ∧ m'.status = 0 ∧ m'.seq = m.seq)) ∧
  (∀ (s : State) (p slot : Nat), s.arg = .n2 p slot → let x := s.rport p
    let due := x.slotAt + 10 * ((mget x.act.slots x.slot).getD (false, 0, 500)).2.2
    let onTime := x.seen && decide (due ≤ s.rtime + 50) && decide (s.rtime ≤ due + 50)
    ∃ s' y, exec .frameMarker s = .next s' ∧ s'.mem = s.mem ∧ s'.threads = s.threads ∧ s'.rport p = y ∧ y.slot = slot ∧
      y.slotAt = s.rtime ∧ y.missed = 0 ∧ y.seen = true ∧
      (x.lock = true → x.sending = none → y.lock = !(!onTime && 2 ≤ x.late)) ∧
      (x.lock = false → y.lock = (onTime && 7 ≤ x.good)) ∧
      (slot = 0 ∧ x.pending = true → y.act = x.shad ∧ y.pending = false) ∧
      (slot ≠ 0 ∨ x.pending = false → y.act = x.act ∧ y.pending = x.pending) ∧ y.shad = x.shad ∧
      (x.lock = true → onTime = true → s'.slew = (due : Int) * 130000 - ((s.rtime * 130000 + s.frac : Nat) : Int)) ∧
      ((∀ e ∈ s.io.rports, e.2.lock = false) → s'.slew = 0)) ∧
  (∀ (s : State) (p : Nat), s.arg = .n1 p → let x := s.rport p
    ∃ s' y, exec .missingMarker s = .next s' ∧ s'.mem = s.mem ∧ s'.rport p = y ∧ y.lock = (x.lock && x.missed < 2) ∧ y.good = 0 ∧
      y.slot = (x.slot + 1) % (x.act.last + 1) ∧ y.act = x.act ∧ y.seen = true ∧
      y.slotAt = (if x.seen then x.slotAt + 10 * ((mget x.act.slots x.slot).getD (false, 0, 500)).2.2 else s.rtime)) ∧
  (∀ (s : State) (k : Key) (t : Thread) (tid id d : Nat) (was : Bool) (w : Option (Nat × Nat)), s.arg = .n2 tid id → InSlot s k t tid →
    t.run = .parked (.rotor d was w) → t.waitId = id → d < 24 →
    ∃ s', exec .rotorEvent s = .next s' ∧ s'.mem = s.mem ∧
      s'.thread k = some (if (match w with
        | none => true
        | some (p, _) => (s.rport p).lock) then
          { t.setG d (dw s.rtime) with pc := t.npc, run := .ready, readyAt := s.cycle + 2, leaving := none } else t)) ∧
  (∀ (s : State) (p q peer : Nat) (x : SendQ) (m : Msg) (f : TxFrame), s.arg = .n1 p → let r := s.rport p
    let n := min 4096 (m.len - 4096 * f.idx)
    let fits := s.rtime + (64 + n + 99) / 100 ≤ r.slotAt + 10 * ((mget r.act.slots r.slot).getD (false, 0, 500)).2.2 ∧
      (bits x.liveCfg.toNat 47 32 = 0 ∨ (mget r.used q).getD 0 + n ≤ 256 * bits x.liveCfg.toNat 47 32)
    r.busyUntil ≤ s.rtime → r.lock = true → r.slotAt + r.act.guard ≤ s.rtime → r.peer = some peer → r.owedAcks = [] → r.relay = [] →
    s.io.sendqs = [(q, x)] → x.valid = true → x.halt = false → bits x.cfg.toNat 19 16 = p → bits x.cfg.toNat 11 0 = peer →
    s.resident x.part = true → x.msgs = [m] → m.held = true → m.ended = false → m.frames = [f] → f.sent = none → f.due = false →
    (fits → ∃ s' m' g fr, exec .frameSend s = .next s' ∧ s'.mem = s.mem ∧ (s'.rport p).sending = some (.own q m.seq f fr) ∧
      fr.pkg = s.io.pkgid.toNat % 4096 ∧ fr.dpkg = peer ∧ fr.part = m.part ∧ fr.queue = q ∧ fr.seq = m.seq ∧ fr.idx = f.idx ∧
      fr.cnt = (m.len + 4095) / 4096 ∧ fr.dst = m.rdst + addr (4096 * f.idx) ∧ fr.rcw = m.rcw ∧ fr.credit = s.relayCredit p ∧
      fr.data = (m.data.drop (4096 * f.idx)).take n ∧ fr.relayed = false ∧
      (s'.rport p).busyUntil = s.rtime + (64 + n + 99) / 100 ∧ (s'.sendq q).msgs = [m'] ∧ m'.frames = [g] ∧ g.sent.isSome = true ∧
      mget (s'.rport p).used q = some ((mget r.used q).getD 0 + n)) ∧
    (¬ fits → ∃ s', exec .frameSend s = .next s' ∧ s'.mem = s.mem ∧ (s'.rport p).sending = none ∧ (s'.sendq q).msgs = [m])) ∧
  (∀ (s : State) (p : Nat) (f : Frame), p < 16 → s.arg = .frame p f → f.relayed = false → let r := s.rport p
    let key := f.pkg * 1024 + f.queue
    let mine := f.dpkg = s.io.pkgid.toNat
    let s0 := s.setCredit p f.pkg f.credit
    let acked (s' : State) (kind : AckKind) : Prop := (s'.rport p).owedAcks = r.owedAcks ++ [(f.pkg, ⟨f.pkg, f.queue, f.seq, f.idx, kind⟩)]
    (r.peer ≠ some f.pkg → ∃ s', exec .frameReceive s = .next s' ∧ s'.mem = s.mem ∧
      (s'.rport p).misroute = min (r.misroute + 1) 65535 ∧ s'.rxq key = s.rxq key) ∧
    (r.peer = some f.pkg → ¬ mine → ∃ s', exec .frameReceive s = .next s' ∧ s'.mem = s.mem ∧ s'.io.rx = s.io.rx ∧
      mget (s'.rport p).credit f.pkg = some f.credit ∧
      (s'.rport p).relay = if 0 < s.relayCredit p then r.relay ++ [((r.rot0 + r.rot) * 64 + r.slot, f)] else r.relay) ∧
    (r.peer = some f.pkg → mine → (f.seq - (s.rxq key).expect).toNat < 64 → (s.rxq key).msgs = [] →
      (s.grantOf f = none ∨ (∃ g, s.grantOf f = some g ∧ s.admitted g f = false) →
        ∃ s', exec .frameReceive s = .next s' ∧ s'.mem = s.mem ∧ acked s' .grant ∧ s'.rxq key = s.rxq key) ∧
      (∀ g, s.grantOf f = some g → s.admitted g f = true → s.restored (bits g.1.toNat 4 0) = false →
        ∃ s', exec .frameReceive s = .next s' ∧ s'.mem = s.mem ∧ acked s' .swap ∧ s'.rxq key = s.rxq key) ∧
      (∀ g va loc, s.grantOf f = some g → s.admitted g f = true → s.restored (bits g.1.toNat 4 0) = true → f.rcw = 0 →
        1 < f.cnt → s0.engPlaces (s0.ioAcc (bits g.1.toNat 4 0)) .wr (pageParts f.dst.toNat f.data.length) =
          .ok [⟨va, loc, f.data.length, 0⟩] →
        ∃ s', exec .frameReceive s = .next s' ∧ acked s' .ok ∧ s'.mem.full = s.mem.full ∧
          (s.mem.wf = true → ∀ i (h : i < f.data.length), s'.mem.byte (loc + i) = f.data[i]) ∧
          (∀ a, a < loc ∨ loc + f.data.length ≤ a → s'.mem.byte a = s.mem.byte a) ∧
          (s'.rxq key).msgs.map (fun m => (m.seq, m.got, m.cnt)) = [(f.seq, [f.idx], f.cnt)] ∧ (s'.rxq key).expect = (s.rxq key).expect)) ∧
    (∀ m, r.peer = some f.pkg → mine → (f.seq - (s.rxq key).expect).toNat < 2 ^ 31 →
      (s.rxq key).msgs = [m] → m.seq = f.seq → m.got.contains f.idx = true → m.got.length < m.cnt →
      ∃ s', exec .frameReceive s = .next s' ∧ s'.mem = s.mem ∧ acked s' .ok ∧ s'.rxq key = s.rxq key) ∧
    (∀ g va loc vc cw, r.peer = some f.pkg → mine → f.seq = (s.rxq key).expect → (s.rxq key).msgs = [] → f.cnt = 1 →
      s.grantOf f = some g → s.admitted g f = true → s.restored (bits g.1.toNat 4 0) = true → f.rcw ≠ 0 →
      let part := bits g.1.toNat 4 0
      let ps : List Piece := [⟨va, loc, f.data.length, 0⟩]
      let s1 := s0.ioWrite part ps (bytesNat f.data)
      s0.engPlaces (s0.ioAcc part) .wr (pageParts f.dst.toNat f.data.length) = .ok ps →
      s1.engPlaces (s1.ioAcc part) .wr [(f.rcw.toNat, 8)] = .ok [⟨vc, cw, 8, 0⟩] →
      cw % 8 = 0 → NoneWaits s → NoneSwapped s cw →
      ∃ s', exec .frameReceive s = .next s' ∧ s'.mem.fe cw = true ∧ (s'.rxq key).expect = f.seq + 1 ∧ (s'.rxq key).msgs = [] ∧
        (s.mem.wf = true → s'.mem.word cw = dw (f.pkg * 2 ^ 52 + f.queue * 2 ^ 42 + f.seq.toNat)) ∧
        (s'.rport p).owedAcks = r.owedAcks ++ [(f.pkg, ⟨f.pkg, f.queue, f.seq, f.idx, .ok⟩), (f.pkg, ⟨f.pkg, f.queue, f.seq, 0, .complete⟩)])) ∧
  (∀ (s : State) (p : Nat) (a : AckFrame) (x : Ack), s.arg = .ack p a →
    ((s.rport p).peer ≠ some a.pkg → ∃ s', exec .ackFrameReceive s = .next s' ∧ s'.mem = s.mem ∧ s'.io.sendqs = s.io.sendqs ∧
      (s'.rport p).misroute = min ((s.rport p).misroute + 1) 65535) ∧
    (∀ m f, (s.rport p).peer = some a.pkg → a.acks = [x] → x.pkg = s.io.pkgid.toNat → (s.sendq x.queue).msgs = [m] → m.seq = x.seq →
      m.frames = [f] → f.idx = x.idx → ∃ s' m', exec .ackFrameReceive s = .next s' ∧ s'.mem = s.mem ∧
        mget (s'.rport p).credit a.pkg = some a.credit ∧
        (x.kind = .ok → (s'.sendq x.queue).msgs = [m'] ∧ m'.frames = [{ f with acked := true, due := false }]) ∧
        (x.kind = .swap → (s'.sendq x.queue).msgs = [m'] ∧ m'.frames = [{ f with due := !f.acked }]) ∧
        (x.kind = .complete → ⟨.completionAckArrival, .n2 x.queue x.seq.toNat⟩ ∈ s'.agenda) ∧
        (x.kind = .memerr → (s'.sendq x.queue).halt = true))) ∧
  (∀ (s : State) (q i : Nat) (m : Msg) (f : TxFrame), s.arg = .n3 q m.seq.toNat i → (s.sendq q).msgs = [m] → m.frames = [f] → f.idx = i →
    (f.acked = true ∨ f.due = true → exec .frameResendDue s = .next s) ∧
    (f.acked = false → f.due = false →
      (f.resends < 16 → ∃ s' m', exec .frameResendDue s = .next s' ∧ s'.mem = s.mem ∧ (s'.sendq q).msgs = [m'] ∧
        m'.frames = [{ f with due := true, resends := f.resends + 1 }] ∧ (s'.sendq q).halt = (s.sendq q).halt) ∧
      (16 ≤ f.resends → alone s q → (∀ t, s.threadOf m.tid = some t → t.q3.length < 16) →
        ∃ s', exec .frameResendDue s = .next s' ∧ (s'.sendq q).halt = true ∧ (s'.sendq q).msgs = []))) ∧
  (∀ (s : State) (p : Nat), s.arg = .n1 p → let r := s.rport p
    ∃ s', exec .relayDiscard s = .next s' ∧ s'.mem = s.mem ∧ s'.threads = s.threads ∧
      (∀ e ∈ (s'.rport p).relay, e ∈ r.relay ∧ (r.rot0 + r.rot) * 64 + r.slot < e.1 + 256) ∧
      ∀ e ∈ r.relay, (r.rot0 + r.rot) * 64 + r.slot < e.1 + 256 → e ∈ (s'.rport p).relay) ∧
  (∀ (s : State) (pkg q n : Nat), s.arg = .n3 pkg q n → ∃ s', exec .queueResetArrival s = .next s' ∧ s'.mem = s.mem ∧
    s'.rxq (pkg * 1024 + q) = ⟨BitVec.ofNat 32 n, []⟩ ∧ ∀ key, key ≠ pkg * 1024 + q → s'.rxq key = s.rxq key)

/-- R395: setup refuses what the table does not support; remote atomic operations are answered with an error. R396: an RMA write is
checked before any byte is written; performed, it changes data only, then sets its completion word full; a read brings the bytes;
on a ROD connection an operation waits behind those that wait. R398: a new entry moves SHEAD, an ended operation writes its completion word, a send takes the oldest posted buffer.
R399: ingress payloads are checked and acted on in order, and bind and unbind take and give back the port. -/
def Obligations.EthernetAndIngress : Prop :=
  (∀ (s : State) (x : ConnReq), s.arg = .conn x →
    let supported : Prop := x.port < 8 ∧ (x.mode = 0 ∨ x.mode = 1 ∨ x.mode = 2) ∧ x.creditFlow = false ∧ x.pfcClasses ≤ 2 ∧
      (x.congestion = 0 ∨ x.congestion = 1) ∧ (x.spraying = true → x.mode = 0 ∨ x.mode = 2) ∧ (x.security = 0 ∨ x.security = 1)
    (supported → ∃ s', exec .connectionSetup s = .next s' ∧
      s'.connOf x.port x.conn = some ⟨x.mode, x.part, []⟩ ∧ s'.io.answers = s.io.answers ++ [⟨x.port, x.conn, .ok, []⟩]) ∧
    (¬ supported → exec .connectionSetup s = .next (s.answer x.port x.conn .err []))) ∧
  (∀ (s : State) (port conn : Nat), s.arg = .n2 port conn →
    exec .remoteAtomicOperation s = .next (s.answer port conn .err [])) ∧
  (∀ (s : State) (w : EthWrite) (c : EthConn), s.arg = .ethWrite w → s.connOf w.port w.conn = some c → c.backlog = [] →
    let q := s.eth w.queue
    let answered (s' : State) (code : EthCode) : Prop := s'.io.answers = s.io.answers ++ [⟨w.port, w.conn, code, []⟩]
    let fails : Prop := ∃ s', exec .ethIncomingWrite s = .next s' ∧ s'.mem = s.mem ∧ answered s' .err
    let at_ := s.ethPlaces q.part .wr w.addr.toNat w.data.length
    (s.mayUse q w.port w.conn = false ∨ w.cw.toNat % 8 ≠ 0 → fails) ∧
    (s.mayUse q w.port w.conn = true → w.cw.toNat % 8 = 0 →
      (∀ e, at_ = .error e → e.waits = false → w.cw = 0 → fails) ∧
      (∀ va loc, at_ = .ok [⟨va, loc, w.data.length, 0⟩] → w.cw = 0 → ∃ s', exec .ethIncomingWrite s = .next s' ∧
        Stored s.mem s'.mem loc w.data.length (bytesNat w.data) ∧ answered s' .ok) ∧
      (∀ ps vc cl, at_ = .ok ps → w.cw ≠ 0 → s.ethPlaces q.part .wr w.cw.toNat 8 = .ok [⟨vc, cl, 8, 0⟩] → s.mem.wf = true → cl % 8 = 0 →
        NoneWaits s →
        ∃ s', exec .ethIncomingWrite s = .next s' ∧ s'.mem.word cl = dw (w.data.length * 2 ^ 32) ∧ s'.mem.fe cl = true ∧
          answered s' .ok))) ∧
  (∀ (s : State) (x : EthRead) (c : EthConn), s.arg = .ethRead x → s.connOf x.port x.conn = some c → c.backlog = [] → let q := s.eth x.queue
    (s.mayUse q x.port x.conn = false → exec .ethIncomingRead s = .next (s.answer x.port x.conn .err [])) ∧
    (s.mayUse q x.port x.conn = true →
      (∀ e, s.ethPlaces q.part .rd x.addr.toNat x.len = .error e → e.waits = false →
        exec .ethIncomingRead s = .next (s.answer x.port x.conn .err [])) ∧
      (∀ va loc, let ps : List Piece := [⟨va, loc, x.len, 0⟩]
        s.ethPlaces q.part .rd x.addr.toNat x.len = .ok ps →
        exec .ethIncomingRead s = .next ((s.ethRead q.part ps).answer x.port x.conn .ok ((List.range x.len).map (fun i => s.mem.byte (loc + i))))))) ∧
  (∀ x : Nat, let w (i : Nat) : Nat := x / 2 ^ (64 * i) % 2 ^ 64
    let op := bits (w 0) 63 56
    parseSend x = (decide ((op = 1 ∨ op = 2 ∨ op = 3) ∧ bits (w 0) 55 32 = 0 ∧ w 1 < 2 ^ 56 ∧ 1 ≤ w 2 ∧ w 2 ≤ 2 ^ 24 ∧ w 3 < 2 ^ 56 ∧
      (op = 1 → w 3 = 0 ∧ w 4 = 0) ∧ w 5 < 2 ^ 56 ∧ w 5 % 8 = 0 ∧ w 6 = 0 ∧ w 7 = 0), op, bits (w 0) 31 0, w 1, w 2, w 5)) ∧
  (∀ (s : State) (e : Nat), s.arg = .n1 e → let q := s.eth e
    (q.valid = false → exec .ethTailNotify s = .next s) ∧
    (∀ base size tail (p h : Piece) op conn la len cw s2, q.valid = true → s.qcbWord q 0 = .ok base → s.qcbWord q 8 = .ok size →
      s.qcbWord q 16 = .ok tail → bits size 16 0 ≠ 0 → bits tail 31 0 ≠ q.staken →
      s.ethPlaces q.part .rd (base + 64 * (q.staken % bits size 16 0)) 64 = .ok [p] → p.n = 64 →
      s.ethPlaces q.part .wr (q.qcb.toNat + 48) 8 = .ok [h] → h.n = 8 → parseSend (s.mem.readN p.loc 64) = (true, op, conn, la, len, cw) →
      let s1 := ((s.ethRead q.part [p]).ioWrite q.part [h] ((q.staken + 1) % 2 ^ 32)).modEth e (fun q => { q with
        staken := (q.staken + 1) % 2 ^ 32 })
      let hl := h.loc
      s1.sendStatus (s1.eth e) op conn la len = .ok (none, s2) → s.mem.wf = true →
      ∃ s' o, exec .ethTailNotify s = .next s' ∧ s'.mem.word hl = dw ((q.staken + 1) % 2 ^ 32) ∧
        (∀ a, a < hl ∨ hl + 8 ≤ a → s'.mem.byte a = s.mem.byte a) ∧ s'.mem.full = s.mem.full ∧
        s'.eth e = { q with staken := (q.staken + 1) % 2 ^ 32, ops := q.ops ++ [o] } ∧ o.num = q.staken ∧ o.op = op ∧ o.laddr = la ∧
        o.len = len ∧ o.cw = cw ∧ o.fin = none)) ∧
  (∀ (s : State) (x : EthEnd) (o : EthOp) (cl : Nat), s.arg = .ethEnd x → let q := s.eth x.queue
    q.ops = [o] → q.rcvs = [] → o.num = x.op → o.fin = none → s.mem.wf = true → NoneWaits s →
    (x.status ≠ 0 ∨ o.op ≠ 3 → o.cw ≠ 0 → cl % 8 = 0 →
      (∃ vc, s.ethPlaces q.part .wr o.cw 8 = .ok [⟨vc, cl, 8, 0⟩]) →
      ∃ s', exec .ethOperationEnd s = .next s' ∧ s'.mem.fe cl = true ∧ (s'.eth x.queue).ops = [] ∧
        s'.mem.word cl = (if x.status ≠ 0 then dw x.status.toNat else dw (o.len * 2 ^ 32))) ∧
    (∀ va loc, x.status = 0 → o.op = 3 → o.cw = 0 → x.data.length ≤ o.len →
      s.ethPlaces q.part .wr o.laddr x.data.length = .ok [⟨va, loc, x.data.length, 0⟩] →
      ∃ s', exec .ethOperationEnd s = .next s' ∧ Stored s.mem s'.mem loc x.data.length (bytesNat x.data) ∧ (s'.eth x.queue).ops = [])) ∧
  (∀ (s : State) (i : Instr) (x : EthIn) (c : EthConn), s.connOf x.port x.conn = some c → c.mode = 1 → c.backlog ≠ [] →
    (∃ w, x = .write w ∧ i = .ethIncomingWrite ∧ s.arg = .ethWrite w) ∨ (∃ w, x = .read w ∧ i = .ethIncomingRead ∧ s.arg = .ethRead w) ∨
      (∃ w, x = .send w ∧ i = .ethIncomingSend ∧ s.arg = .ethSend w) →
    ∃ s', exec i s = .next s' ∧ s'.connOf x.port x.conn = some { c with backlog := c.backlog ++ [x] } ∧ s'.mem = s.mem ∧
      s'.io.answers = s.io.answers) ∧
  (∀ (s : State) (x : EthSend) (c : EthConn), s.arg = .ethSend x → s.connOf x.port x.conn = some c → c.backlog = [] → let q := s.eth x.queue
    let taken := s.io.ingress.any (fun h => h.2.valid && h.2.eq == x.queue)
    (s.mayUse q x.port x.conn = false → exec .ethIncomingSend s = .next (s.answer x.port x.conn .err [])) ∧
    (s.mayUse q x.port x.conn = true → taken = true → exec .ethIncomingSend s = .next (s.push .ingressSend s.arg)) ∧
    (s.mayUse q x.port x.conn = true → taken = false → q.posted = [] →
      exec .ethIncomingSend s = .next (s.answer x.port x.conn .notReady [])) ∧
    (∀ r l va loc, s.mayUse q x.port x.conn = true → taken = false → q.posted = r :: l → q.ops = [] → q.rcvs = [] →
      let w (i : Nat) : Nat := r / 2 ^ (64 * i) % 2 ^ 64
      let n := min x.data.length (w 1)
      w 0 < 2 ^ 56 → w 2 = 0 → w 3 = 0 → s.ethPlaces q.part .wr (w 0) n = .ok [⟨va, loc, n, 0⟩] →
      ∃ s', exec .ethIncomingSend s = .next s' ∧ Stored s.mem s'.mem loc n (bytesNat (x.data.take n)) ∧
        s'.eth x.queue = { q with posted := l } ∧ s'.io.answers = s.io.answers ++ [⟨x.port, x.conn, .ok, []⟩])) ∧
  (∀ (s : State) (x : EthSend) (h : Nat) (c : Ingress), s.arg = .ethSend x → s.io.ingress = [(h, c)] → c.valid = true → c.eq = x.queue →
    let rod : Prop := ∃ y, s.connOf x.port x.conn = some y ∧ y.mode = 1
    let hdr := bytesNat (x.data.take 8)
    (¬ rod ∨ x.data = [] ∨ bits hdr 63 62 = 3 ∨ x.data.length < 8 → exec .ingressSend s = .next (s.answer x.port x.conn .err [])) ∧
    (rod → x.data.length = 8 → bits hdr 63 62 = 1 →
      (c.held ≠ 0 → 2 ^ 20 < c.held + 8 → exec .ingressSend s = .next s) ∧
      (∀ p y, c.held + 8 ≤ 2 ^ 20 → c.ents = [] → c.bound = some p → s.port p = some y → y.op = none →
        ∃ s' z o, exec .ingressSend s = .next s' ∧ s'.mem = s.mem ∧ (s'.ingress h).held = c.held + 8 ∧
          (s'.ingress h).ents = [.wmark (BitVec.ofNat 48 hdr), .fin x.port x.conn 8] ∧ s'.port p = some z ∧ z.op = some o ∧
          o.act = .wmark (BitVec.ofNat 48 hdr)))) ∧
  (∀ (s : State) (p : PortId) (x : PortSt) (o : POp) (h port conn n : Nat) (r : Item) (given : Bool) (y : Option Item),
    s.arg = .port p → s.port p = some x → x.holder = some (.ingress h) → x.op = some o → o.fin = some (.fired given y) →
    (s.ingress h).valid = true → (s.ingress h).portId = p → (s.ingress h).ents = [.record r, .fin port conn n] →
    let c := s.ingress h
    ∃ s' z, exec .ingressOpComplete s = .next s' ∧ s'.mem = s.mem ∧ s'.port p = some z ∧ z.op = none ∧ (s'.ingress h).ents = [] ∧
      (s'.ingress h).offered = min (c.offered + 1) 65535 ∧
      (s'.ingress h).disc = (if given then c.disc else min (c.disc + 1) 65535) ∧ (s'.ingress h).held = c.held - n ∧
      s'.io.answers = s.io.answers ++ [⟨port, conn, .ok, []⟩]) ∧
  (∀ (s : State) (i h a : Nat) (v : DW), s.arg = .val i a v → cfgReg a = some (.ingress h 0) → let c := s.ingress h
    (∃ s', exec .ingressUnbind s = .next s' ∧ s'.mem = s.mem ∧ (s'.ingress h).valid = false ∧ (s'.ingress h).ents = [] ∧
      (s'.ingress h).held = 0 ∧ (s'.ingress h).bound = none ∧ (s'.ingress h).eq = bits v.toNat 7 0 ∧
      (c.valid = true → ∀ x, s'.port c.portId = some x → x.holder = none)) ∧
    (c.valid = false → let q := s.eth (bits v.toNat 7 0)
      let fits : Prop := q.valid = true ∧ ∃ d k con x, s.checkCon q.part c.handle.toNat = .ok (d, k, con) ∧
        c.port < con.image.ports.length ∧ (con.desc c.port).isIn = false ∧ s.port ⟨d, k, c.port⟩ = some x ∧ x.holder = none ∧ x.op = none
      (fits → ∃ s' x, exec .ingressBind s = .next s' ∧ s'.mem = s.mem ∧ (s'.ingress h).valid = true ∧
        (s'.ingress h).bound = some c.named ∧ (s'.ingress h).eq = bits v.toNat 7 0 ∧ s'.port c.named = some x ∧
        x.holder = some (.ingress h)) ∧
      (¬ fits → ∃ s', exec .ingressBind s = .next s' ∧ s'.mem = s.mem ∧ (s'.ingress h).valid = false ∧ (s'.ingress h).err = true)))

/-- R51, R62 to R67, R73, R76, R116, R117: what instructions leave as it was. Those that write a g register, or owe it, change no byte of
memory, no full/empty bit, no other thread, and of their own thread only pc, that register and what their sources take away; compares
and predicate instructions likewise with pd. Plain loads and stores change no memory as they issue: a load sends at most one request
and a store enters one piece in the store buffer, for the bytes at the address gs + T. -/
def Obligations.FramesOfInstructions : Prop :=
  (∀ o : Op, o.dn < 24 →
    (∀ i ∈ [Instr.add o, .sub o, .and o, .or o, .xor o, .andn o, .shl o, .shr o, .sar o, .lea o, .min o, .max o, .minu o, .maxu o, .rol o,
        .ror o, .ext o, .mul o, .mulh o, .mulhu o, .div o, .divu o, .rem o, .remu o, .fadd o, .fsub o, .fmul o, .fdiv o, .fsqrt o],
      Frame i (fun q => o.sx q ++ o.tx q) (.x o.dn) (· = o.dn) (fun _ => False)) ∧
    (∀ i ∈ [Instr.mov o, .clz o, .ctz o, .popc o, .brev o, .bswap o, .sxb o, .sxh o, .sxw o, .zxb o, .zxh o, .zxw o, .fclass o, .fcvt o],
      Frame i o.sx (.x o.dn) (· = o.dn) (fun _ => False)) ∧
    (∀ i ∈ [Instr.ins o, .fma o], Frame i (fun q => o.sx q ++ o.tx q ++ o.dx q) (.x o.dn) (· = o.dn) (fun _ => False))) ∧
  (∀ o : Op,
    (∀ i ∈ [Instr.cmpeq o, .cmpne o, .cmplt o, .cmpltu o, .cmpge o, .cmpgeu o],
      Frame i (fun q => o.sx q ++ o.tx q) (.p o.dn) (fun _ => False) (· = o.dn)) ∧
    (∀ i ∈ [Instr.pand o, .por o, .pxor o, .pnot o], Frame i (fun q => .p o.sn 0 q.ts :: o.tp q) (.p o.dn) (fun _ => False) (· = o.dn))) ∧
  (∀ o : OpI, o.d.toNat < 24 →
    (∀ i ∈ [Instr.addi o, .shli o, .shri o, .sari o],
      Frame i (fun q => [.x o.d.toNat 2 q.td]) (.x o.d.toNat) (· = o.d.toNat) (fun _ => False)) ∧
    Frame (.li o) (fun _ => []) (.x o.d.toNat) (· = o.d.toNat) (fun _ => False)) ∧
  (∀ o : Op,
    (∀ x ∈ [(Instr.ldb o, 1), (.ldbu o, 1), (.ldh o, 2), (.ldhu o, 2), (.ldw o, 4), (.ldwu o, 4), (.ldd o, 8)],
      AccessFrame x.1 o x.2 true) ∧
    (∀ x ∈ [(Instr.stb o, 1), (.sth o, 2), (.stw o, 4), (.std o, 8)], AccessFrame x.1 o x.2 false))

/-- R51, R23, R26, R66, R414: an instruction whose full predicate does not let it execute only moves its thread to the next
instruction, whatever it is, SEL apart; an empty predicate parks it, or traps with WAITLIM if a limit has marked it. An empty g
source of the instructions named does likewise, or traps with EMPTY where its trap-if-empty bit is set. Those named that only service
cores run trap elsewhere, as TRET does outside a trap handler (R383). -/
def Obligations.PredicatesAndEmptySourcesDecide : Prop :=
  (∀ (i : Instr) (s : State) (t : Thread), i.body.isSome = true → s.thread s.cur = some t →
    let n := s.q.pred.toNat
    let refused : Prop := (isService (coreOf s.cur) = false ∨ (t.thsBit 12 = false ∧ ∃ o, i = .tretReissue o ∨ i = .tretSkip o)) ∧
      exec i s = .next (s.takeTrap s.cur causeILLEGAL 0 0)
    (t.isFull (.p n) = true → (t.pv n != s.q.inv) = false → (∀ o, i ≠ .sel o) →
      exec i s = .next (s.modT s.cur (fun x => { x with pc := s.npc t })) ∨ refused) ∧
    (t.isFull (.p n) = false → t.isMarked (.p n) = true →
      exec i s = .next (s.takeTrap s.cur causeWAITLIM (0x40 + n) 0) ∨ refused) ∧
    (t.isFull (.p n) = false → t.isMarked (.p n) = false → exec i s = .next (s.parkThread s.cur (.reg (.p n)) false) ∨ refused)) ∧
  (∀ (o : Op) (s : State) (t : Thread), s.thread s.cur = some t → t.isFull (.p s.q.pred.toNat) = true →
    (t.pv s.q.pred.toNat != s.q.inv) = true → o.sn < 24 → (∀ r, o.t = .reg r → r.toNat < 24) → o.dn < 24 →
    ∀ i ∈ [Instr.add o, .sub o, .mul o, .fadd o, .ldd o, .std o, .aadd o],
    let stops (m : Nat) (idx : Nat) (tie : Bool) : Prop :=
      (t.isMarked (.g m) = true → exec i s = .next (s.takeTrap s.cur causeWAITLIM (RegRef.g m).trapNum 0)) ∧
      (t.isMarked (.g m) = false → tie = true → exec i s = .next (s.takeTrap s.cur causeEMPTY m idx)) ∧
      (t.isMarked (.g m) = false → tie = false → exec i s = .next (s.parkThread s.cur (.reg (.g m)) false))
    (t.isFull (.g o.sn) = false → stops o.sn 0 s.q.ts) ∧
    (∀ r, o.t = .reg r → t.isFull (.g o.sn) = true → t.isFull (.g r.toNat) = false → stops r.toNat 1 s.q.tt)) ∧
  (∀ (o : Op) (s : State) (t : Thread), s.thread s.cur = some t → t.isFull (.p s.q.pred.toNat) = true →
    (t.pv s.q.pred.toNat != s.q.inv) = true → isService (coreOf s.cur) = false →
    ∀ i ∈ [Instr.ctxs o, .ctxl o, .domsw o, .scrub o, .haltSelf o, .haltFence o, .haltUnfence o], exec i s = .next (s.takeTrap s.cur causeILLEGAL 0 0))

/-- R80, R81, R84, R115, R342, R344, R371: the checks of an access in their order (region, scratch, alignment, PLB, switches), and what an
access that fails them makes of its instruction: an exact trap with TRAPADDR holding the address, a park until the PLB holds the
covering entry, or the drop of a page fault, which leaves every register as it was. -/
def Obligations.AccessesAreChecked : Prop :=
  (∀ (s : State) (k : Key) (t : Thread) (va n al : Nat) (rt : Right) (late : Bool), 1 ≤ n → va + n ≤ 2 ^ 56 →
    let out := s.access k t va n al rt late
    let svc := isService (coreOf k)
    let r := va / 2 ^ 48
    let last := va + n - 1
    let cls (r : Nat) : Nat := if r < 0xF0 then 0 else r
    let cl := va / 2 ^ 39 % 512
    let way := va / 2 ^ 35 % 16
    let odd : Prop := va / 2 ^ 19 % 2 ^ 16 ≠ 0 ∨ last / 2 ^ 19 ≠ va / 2 ^ 19 ∨ 0x60000 ≤ last % 2 ^ 19
    let gone := (s.partn t.partN).gone.contains (groupOfCluster cl)
    let scr := (s.cluster cl).wmask.getLsbD way
    (cls (last / 2 ^ 48) ≠ cls r ∨ 0xF2 ≤ r ∨ (r = 0xF1 ∧ svc = false) →
      out = trapWith causeBADADDR va) ∧
    (last / 2 ^ 48 = r → r = 0xF0 →
      (gone = true → out = trapWith causeSCRATCHGONE va) ∧ (gone = false → odd → out = trapWith causeBADADDR va) ∧
      (¬ odd → gone = false → scr = false → out = trapWith causeBADADDR va) ∧
      (¬ odd → gone = false → scr = true → va % al ≠ 0 → out = trapWith causeMISALIGN va)) ∧
    (last / 2 ^ 48 < 0xF0 → r < 0xF0 → va % al ≠ 0 → out = trapWith causeMISALIGN va) ∧
    (va % al = 0 → (last / 2 ^ 48 < 0xF0 ∧ r < 0xF0) ∨ (last / 2 ^ 48 = r ∧ r = 0xF0 ∧ ¬ odd ∧ gone = false ∧ scr = true) →
      let held := (s.core (coreOf k)).plb.find? (fun e => e.dom == t.domN && e.covers va n)
      (held = none → s.rangeOf t.domN va n = none → out = trapWith causePROT va) ∧
      (∀ e, held = none → s.rangeOf t.domN va n = some e →
        (e.grants rt = false → out = trapWith causePROT va) ∧
        (e.grants rt = true → ∃ h, out = .error h ∧ h.stop = .park (.plb (addr va)) ∧ h.eff s = s.push .plbFill (.val (k * 4096 + t.domN) n (dw va)))) ∧
      (∀ e, held = some e →
        (e.grants rt = false → out = trapWith causePROT va) ∧
        (e.grants rt = true →
          let known := if rt == .rd then s.corePlace (coreOf k) t.domN va else none
          let at_ := s.placeIn (dieOfCore (coreOf k)) t.partN t.domN svc e va known
          (∀ x, at_ = .error x → out = .error ⟨.drop va (rt == .wr || rt == .rw), id⟩) ∧
          (∀ p, at_ = .ok p → p.refuse = none ∨ late = true → out = .ok p) ∧
          (∀ p c, at_ = .ok p → p.refuse = some c → late = false → out = trapWith c va)))) ∧
    (r < 0xF0 → ∀ (e : Range) (known : Option Nat), let h := e.home va
      let at_ := s.placeIn (dieOfCore (coreOf k)) t.partN t.domN svc e va known
      (dieOfGroup h = dieOfCore (coreOf k) → svc = false → s.inPart t.partN h = false →
        at_ = .ok ⟨va, dramLoc h va, some causePROT⟩) ∧
      (dieOfGroup h ≠ dieOfCore (coreOf k) → (s.die (dieOfGroup h)).fenced = true →
        at_ = .ok ⟨va, dramLoc h va, some causeFENCED⟩) ∧
      (svc = false → s.inPart t.partN h = true → (∀ d, (s.die d).fenced = false) →
        (∀ loc, known = some loc ∨ (known = none ∧ s.vaultPlace t.domN h va = some loc) → at_ = .ok ⟨va, loc, none⟩) ∧
        (∀ pa, known = none → s.vaultPlace t.domN h va = none → s.translate t.domN h va e.span4 = .ok pa →
          at_ = .ok ⟨va, dramLoc h pa, none⟩)))) ∧
  (∀ (o : Op) (s : State) (t : Thread) (h : Halt), (isService (coreOf s.cur) = true → regionOf (sumAddr s t o) ≠ 0xF1) →
    let ends (i : Instr) : Prop := exec i s = .next (s.stopped s.cur t h)
    let two := o.sx s.q ++ o.tx s.q
    let a := sumAddr s t o
    (∀ x ∈ [(Instr.ldb o, 1), (.ldbu o, 1), (.ldh o, 2), (.ldhu o, 2), (.ldw o, 4), (.ldwu o, 4), (.ldd o, 8)],
      Executes s t false two [.x o.dn] → s.access s.cur t a x.2 x.2 .rd false = .error h → ends x.1) ∧
    (∀ x ∈ [(Instr.stb o, 1), (.sth o, 2), (.stw o, 4), (.std o, 8)],
      Executes s t false (two ++ o.dx s.q) [] → s.access s.cur t a x.2 x.2 .wr true = .error h → ends x.1) ∧
    (∀ i ∈ [Instr.aadd o, .aand o, .aor o, .axor o, .amin o, .amax o, .aminu o, .amaxu o, .aswap o],
      Executes s t false two [.x o.dn] → s.access s.cur t (baseAddr s t o) 8 8 .rw false = .error h → ends i) ∧
    (Executes s t false two [.x o.dn] → s.access s.cur t a 8 8 .rd false = .error h → ends (.lda o))) ∧
  (∀ (s : State) (t : Thread), s.thread s.cur = some t →
    (∀ c a, s.stopped s.cur t ⟨.trap c a 0, id⟩ = s.takeTrap s.cur c a 0) ∧
    (∀ p, s.stopped s.cur t ⟨.park p, id⟩ = s.parkThread s.cur p p.limited) ∧
    (∀ va w, ∃ s', s.stopped s.cur t ⟨.drop va w, id⟩ = s' ∧ s'.mem = s.mem ∧
      s'.thread s.cur = some { t with run := .dropped (addr va) w none } ∧ (∀ k, k ≠ s.cur → s'.thread k = s.thread k) ∧
      (s'.core s.io.evCore).evq.length = (s.core s.io.evCore).evq.length + 3))

/-- R34, R36, R39 to R41, R51: where a slot may use its core's turn of this cycle, the step runs what the bytes at its pc decode to: exec of
that instruction in the state that has noted the turn (log 2: `lastIssue`, `cursor`), the use of its lines and PLB entries, the instruction's
length and its SRC fields. The bytes come from the line of the core's instruction cache that holds the pc, and from the next line where
the instruction reaches into it. Where no slot may, the first event that is due runs, an alarm or timer before what the cycle itself made due,
and with none due the cycle ends. -/
def Obligations.StepRunsTheDecodedInstruction : Prop :=
  (∀ (s : State) (k : Key) (t : Thread) (d : Decoded),
    s.nextSlot s.threads = some k → s.thread k = some t → t.boundary = none → t.declined = none →
    let u := { t with lastIssue := some s.cycle, run := if t.run = .again then .ready else t.run }
    let s1 : State := { s with cur := k, cursor := coreOf k + 1, threads := mput s.threads k u }
    let s2 := s1.usedLines k t d.len
    s1.fetch k t = .ok d → s1.thread k = some u ∧ step s = exec d.i { s2 with ilen := d.len, q := d.q } ∧
      s2.mem = s.mem ∧ s2.threads = s1.threads ∧ s2.reqs = s.reqs ∧
      ∀ c l, l ∈ (s2.core c).icache ↔ l ∈ (s.core c).icache) ∧
  (∀ (s : State) (k : Key) (t : Thread) (e : Range) (l : BitVec 256) (d : Decoded), let va := t.pc.toNat
    va / 2 ^ 48 < 0xF0 → va % 2 = 0 →
    (s.core (coreOf k)).plb.find? (fun r => r.dom == t.domN && r.covers va 2) = some e → e.x = true →
    s.iLine (coreOf k) t.domN va = some l →
    let bytes := (List.range (32 - va % 32)).map (fun i => BitVec.ofNat 8 (l.toNat / 256 ^ (va % 32 + i)))
    (decodeBytes bytes = .ok d → s.fetch k t = .ok d) ∧
    (∀ err, decodeBytes bytes = .error err → err ≠ .truncated → s.fetch k t = trapWith causeILLEGAL 0) ∧
    (∀ (e2 : Range) (l2 : BitVec 256), let next := va / 32 * 32 + 32
      decodeBytes bytes = .error .truncated → next / 2 ^ 48 < 0xF0 →
      (s.core (coreOf k)).plb.find? (fun r => r.dom == t.domN && r.covers next 2) = some e2 → e2.x = true →
      s.iLine (coreOf k) t.domN next = some l2 →
      let more := bytes ++ (List.range 32).map (fun i => BitVec.ofNat 8 (l2.toNat / 256 ^ i))
      (decodeBytes more = .ok d → s.fetch k t = .ok d) ∧
      (∀ err, decodeBytes more = .error err → s.fetch k t = trapWith causeILLEGAL 0))) ∧
  (∀ (s : State) (e : Ev), s.nextSlot s.threads = none →
    let early : Prop := (∀ x ∈ s.alarms.head?, s.rtime < x.1) ∧ ∀ x ∈ s.timers.head?, s.cycle < x.1
    (∀ r l, s.alarms = (r, e) :: l → r ≤ s.rtime → step s = exec e.i { s with alarms := l, arg := e.arg, cursor := cursorEnd }) ∧
    (∀ c l, (∀ x ∈ s.alarms.head?, s.rtime < x.1) → s.timers = (c, e) :: l → c ≤ s.cycle →
      step s = exec e.i { s with timers := l, arg := e.arg, cursor := cursorEnd }) ∧
    (∀ l, early → s.agenda = e :: l → step s = exec e.i { s with agenda := l, arg := e.arg, cursor := cursorEnd }) ∧
    (early → s.agenda = [] → step s = .next s.endCycle))

/-- R43, R45, R49, R50, R52: the two encodings that 03_encoding works out, its shorter chain, its illegal chain, the predicated and
the paged forms of a few words, and the order of the prefixes. -/
def Obligations.WorkedEncodingsDecode : Prop :=
  decode [0xFC68, 0xF856, 0xF4C0, 0x6885] =
    .ok ⟨⟨3, false, true, false, false⟩, .fadd { d := 4, s := 5, t := .reg 6, scale := 0, rnd := 2, et := 6 }, 4⟩ ∧
  decode [0xF3F6, 0xF361, 0x38E0] = .ok ⟨.plain, .li { d := 7, imm := BitVec.ofInt 25 (-300000) }, 3⟩ ∧
  decode [0xF01F, 0x38E8] = .ok ⟨.plain, .li { d := 7, imm := 1000 }, 2⟩ ∧
  decode [0x6885] = .ok ⟨.plain, .ldhu { d := 4, s := 5, t := .imm 0, scale := 0, rnd := 0, et := 0 }, 1⟩ ∧
  decode [0xF4C0, 0xF001, 0x7485] = .error .fieldZero ∧
  decode [0xF400, 0xF001, 0x7485] = .ok ⟨.plain, .ldd { d := 4, s := 5, t := .imm 1, scale := 0, rnd := 0, et := 0 }, 3⟩ ∧
  decode [0xF856, 0xFC68, 0xF4C0, 0x6885] = .error .chain ∧
  decode [0xA800] = .ok ⟨.plain, .nop, 1⟩ ∧ decode [0xF800, 0xA800] = .error .page ∧ decode [0xF4C0] = .error .truncated

/-- R38 to R50, R53, R58: decoding and encoding agree, for every instruction, with every operand and SRC field at every value its encoding
admits and whatever follows it in memory; and what the decoder reads is always well-formed. -/
def Obligations.DecodeAndEncodeAgree : Prop :=
  (∀ (q : Quals) (i : Instr) (rest : List Half), wfWith q i = true → decode (encode q i ++ rest) = .ok ⟨q, i, (encode q i).length⟩) ∧
  (∀ (hs : List Half) (d : Decoded), decode hs = .ok d → d.i.wf = true ∧ 1 ≤ d.len ∧ d.len ≤ 13 ∧ d.len ≤ hs.length ∧
    ∀ rest, decode (hs ++ rest) = .ok d)

/-- Memory's canonical form is kept by every step of the machine, from every state that has it: listed places rise and none holds the
zero that an unlisted place reads as (R94), and the lists of full words and of words with an uncorrectable error rise. -/
def Obligations.EveryStepKeepsMemoryCanonical : Prop :=
  ∀ s s' : State, s.mem.wf = true → step s = .next s' → s'.mem.wf = true

/-- R94, R243, R28, R400: at power-up memory has its canonical form and every byte is zero and every word empty, no thread runs, no
request is under way and boot stands at stage 0; a thread starts with its registers zero and full, p0 true and the special registers at
their values for thread start. -/
def Obligations.ResetIsAsThePowerUpRulesSay : Prop :=
  (
    let s := State.reset
    s.mem.wf = true ∧ (∀ a, s.mem.byte a = 0 ∧ s.mem.fe a = false) ∧ (∀ k, s.thread k = none) ∧ s.reqs = [] ∧ s.owed = [] ∧
    s.cycle = 0 ∧ s.rtime = 0 ∧ s.io.boot.stage = 0 ∧ s.io.boot.ready = false ∧ s.agenda.head?.map (·.i) = some .powerUp ∧
    (∀ c, (s.core c).sbuf = [] ∧ (s.core c).tvec = 0 ∧ (s.cluster c).wmask = 0) ∧ (∀ g, (s.group g).plank.queue = []) ∧
    (∀ p, (s.partn p).pcfg = 0) ∧ ∀ p, (s.rport p).lock = false ∧ (s.rport p).act.guard = 300) ∧
  (
    let t := Thread.start
    (∀ n < 24, t.gv n = 0 ∧ t.isFull (.g n) = true) ∧ (∀ n < 32, t.pv n = (n == 0) ∧ t.isFull (.p n) = true) ∧
    (∀ n < 8, t.vv n = 0 ∧ t.isFull (.v n) = true) ∧ t.ths = 0 ∧ t.fmode = 0x120 ∧ t.waitlim = 0 ∧ t.retrylim = 64 ∧ t.qmap = 0 ∧
    t.uivec = 0 ∧ t.watch = .none ∧ t.lease = .none ∧ t.trapcause = 0 ∧ t.trappc = 0 ∧ t.trapaddr = 0 ∧ ∀ n < 16, t.kb n = none)

/-- The machine goes on: every instruction and every event goes on to a next state where the current slot holds a thread, so a step
does wherever nothing but an event is due, and no ordinary data ends a run (log 11). -/
def Obligations.EveryStepGoesOn : Prop :=
  (∀ (i : Instr) (s : State) (t : Thread), s.thread s.cur = some t → ∃ s', exec i s = .next s') ∧
  (∀ (i : Instr) (s : State), i.body = none → ∃ s', exec i s = .next s') ∧
  (∀ s : State, (∀ e ∈ s.agenda, e.i.body = none) → (∀ e ∈ s.timers, e.2.i.body = none) → (∀ e ∈ s.alarms, e.2.i.body = none) →
    ∃ s', step s = .next s')
end

