-- ==== Sys2Proof/Laws/Exec.lean ====
section
/-! SUPPORT. What `exec` is for each constructor: its meaning. -/

namespace Sys2Proof.Machine

@[simp] theorem exec_add (o : Op) (s : State) : exec (.add o) s = execAdd o s := rfl
@[simp] theorem exec_sub (o : Op) (s : State) : exec (.sub o) s = execSub o s := rfl
@[simp] theorem exec_addi (o : OpI) (s : State) : exec (.addi o) s = execAddi o s := rfl
@[simp] theorem exec_and (o : Op) (s : State) : exec (.and o) s = execAnd o s := rfl
@[simp] theorem exec_or (o : Op) (s : State) : exec (.or o) s = execOr o s := rfl
@[simp] theorem exec_xor (o : Op) (s : State) : exec (.xor o) s = execXor o s := rfl
@[simp] theorem exec_andn (o : Op) (s : State) : exec (.andn o) s = execAndn o s := rfl
@[simp] theorem exec_shl (o : Op) (s : State) : exec (.shl o) s = execShl o s := rfl
@[simp] theorem exec_shr (o : Op) (s : State) : exec (.shr o) s = execShr o s := rfl
@[simp] theorem exec_sar (o : Op) (s : State) : exec (.sar o) s = execSar o s := rfl
@[simp] theorem exec_shli (o : OpI) (s : State) : exec (.shli o) s = execShli o s := rfl
@[simp] theorem exec_shri (o : OpI) (s : State) : exec (.shri o) s = execShri o s := rfl
@[simp] theorem exec_sari (o : OpI) (s : State) : exec (.sari o) s = execSari o s := rfl
@[simp] theorem exec_mov (o : Op) (s : State) : exec (.mov o) s = execMov o s := rfl
@[simp] theorem exec_li (o : OpI) (s : State) : exec (.li o) s = execLi o s := rfl
@[simp] theorem exec_lea (o : Op) (s : State) : exec (.lea o) s = execLea o s := rfl
@[simp] theorem exec_cmpeq (o : Op) (s : State) : exec (.cmpeq o) s = execCmpeq o s := rfl
@[simp] theorem exec_cmpne (o : Op) (s : State) : exec (.cmpne o) s = execCmpne o s := rfl
@[simp] theorem exec_cmplt (o : Op) (s : State) : exec (.cmplt o) s = execCmplt o s := rfl
@[simp] theorem exec_cmpltu (o : Op) (s : State) : exec (.cmpltu o) s = execCmpltu o s := rfl
@[simp] theorem exec_cmpge (o : Op) (s : State) : exec (.cmpge o) s = execCmpge o s := rfl
@[simp] theorem exec_cmpgeu (o : Op) (s : State) : exec (.cmpgeu o) s = execCmpgeu o s := rfl
@[simp] theorem exec_sel (o : Op) (s : State) : exec (.sel o) s = execSel o s := rfl
@[simp] theorem exec_ldb (o : Op) (s : State) : exec (.ldb o) s = execLdb o s := rfl
@[simp] theorem exec_ldbu (o : Op) (s : State) : exec (.ldbu o) s = execLdbu o s := rfl
@[simp] theorem exec_ldh (o : Op) (s : State) : exec (.ldh o) s = execLdh o s := rfl
@[simp] theorem exec_ldhu (o : Op) (s : State) : exec (.ldhu o) s = execLdhu o s := rfl
@[simp] theorem exec_ldw (o : Op) (s : State) : exec (.ldw o) s = execLdw o s := rfl
@[simp] theorem exec_ldwu (o : Op) (s : State) : exec (.ldwu o) s = execLdwu o s := rfl
@[simp] theorem exec_ldd (o : Op) (s : State) : exec (.ldd o) s = execLdd o s := rfl
@[simp] theorem exec_stb (o : Op) (s : State) : exec (.stb o) s = execStb o s := rfl
@[simp] theorem exec_sth (o : Op) (s : State) : exec (.sth o) s = execSth o s := rfl
@[simp] theorem exec_stw (o : Op) (s : State) : exec (.stw o) s = execStw o s := rfl
@[simp] theorem exec_std (o : Op) (s : State) : exec (.std o) s = execStd o s := rfl
@[simp] theorem exec_br (o : OpI) (s : State) : exec (.br o) s = execBr o s := rfl
@[simp] theorem exec_brp (o : OpI) (s : State) : exec (.brp o) s = execBrp o s := rfl
@[simp] theorem exec_brn (o : OpI) (s : State) : exec (.brn o) s = execBrn o s := rfl
@[simp] theorem exec_jmp (o : Op) (s : State) : exec (.jmp o) s = execJmp o s := rfl
@[simp] theorem exec_call (o : OpI) (s : State) : exec (.call o) s = execCall o s := rfl
@[simp] theorem exec_callr (o : Op) (s : State) : exec (.callr o) s = execCallr o s := rfl
@[simp] theorem exec_loop (o : OpI) (s : State) : exec (.loop o) s = execLoop o s := rfl
@[simp] theorem exec_movs (o : OpI) (s : State) : exec (.movs o) s = execMovs o s := rfl
@[simp] theorem exec_movsw (o : OpI) (s : State) : exec (.movsw o) s = execMovsw o s := rfl
@[simp] theorem exec_pand (o : Op) (s : State) : exec (.pand o) s = execPand o s := rfl
@[simp] theorem exec_por (o : Op) (s : State) : exec (.por o) s = execPor o s := rfl
@[simp] theorem exec_pxor (o : Op) (s : State) : exec (.pxor o) s = execPxor o s := rfl
@[simp] theorem exec_pnot (o : Op) (s : State) : exec (.pnot o) s = execPnot o s := rfl
@[simp] theorem exec_pmovg (o : Op) (s : State) : exec (.pmovg o) s = execPmovg o s := rfl
@[simp] theorem exec_pmovp (o : Op) (s : State) : exec (.pmovp o) s = execPmovp o s := rfl
@[simp] theorem exec_mul (o : Op) (s : State) : exec (.mul o) s = execMul o s := rfl
@[simp] theorem exec_mulh (o : Op) (s : State) : exec (.mulh o) s = execMulh o s := rfl
@[simp] theorem exec_mulhu (o : Op) (s : State) : exec (.mulhu o) s = execMulhu o s := rfl
@[simp] theorem exec_div (o : Op) (s : State) : exec (.div o) s = execDiv o s := rfl
@[simp] theorem exec_divu (o : Op) (s : State) : exec (.divu o) s = execDivu o s := rfl
@[simp] theorem exec_rem (o : Op) (s : State) : exec (.rem o) s = execRem o s := rfl
@[simp] theorem exec_remu (o : Op) (s : State) : exec (.remu o) s = execRemu o s := rfl
@[simp] theorem exec_min (o : Op) (s : State) : exec (.min o) s = execMin o s := rfl
@[simp] theorem exec_max (o : Op) (s : State) : exec (.max o) s = execMax o s := rfl
@[simp] theorem exec_minu (o : Op) (s : State) : exec (.minu o) s = execMinu o s := rfl
@[simp] theorem exec_maxu (o : Op) (s : State) : exec (.maxu o) s = execMaxu o s := rfl
@[simp] theorem exec_clz (o : Op) (s : State) : exec (.clz o) s = execClz o s := rfl
@[simp] theorem exec_ctz (o : Op) (s : State) : exec (.ctz o) s = execCtz o s := rfl
@[simp] theorem exec_popc (o : Op) (s : State) : exec (.popc o) s = execPopc o s := rfl
@[simp] theorem exec_brev (o : Op) (s : State) : exec (.brev o) s = execBrev o s := rfl
@[simp] theorem exec_bswap (o : Op) (s : State) : exec (.bswap o) s = execBswap o s := rfl
@[simp] theorem exec_rol (o : Op) (s : State) : exec (.rol o) s = execRol o s := rfl
@[simp] theorem exec_ror (o : Op) (s : State) : exec (.ror o) s = execRor o s := rfl
@[simp] theorem exec_ext (o : Op) (s : State) : exec (.ext o) s = execExt o s := rfl
@[simp] theorem exec_ins (o : Op) (s : State) : exec (.ins o) s = execIns o s := rfl
@[simp] theorem exec_sxb (o : Op) (s : State) : exec (.sxb o) s = execSxb o s := rfl
@[simp] theorem exec_sxh (o : Op) (s : State) : exec (.sxh o) s = execSxh o s := rfl
@[simp] theorem exec_sxw (o : Op) (s : State) : exec (.sxw o) s = execSxw o s := rfl
@[simp] theorem exec_zxb (o : Op) (s : State) : exec (.zxb o) s = execZxb o s := rfl
@[simp] theorem exec_zxh (o : Op) (s : State) : exec (.zxh o) s = execZxh o s := rfl
@[simp] theorem exec_zxw (o : Op) (s : State) : exec (.zxw o) s = execZxw o s := rfl
@[simp] theorem exec_fadd (o : Op) (s : State) : exec (.fadd o) s = execFadd o s := rfl
@[simp] theorem exec_fsub (o : Op) (s : State) : exec (.fsub o) s = execFsub o s := rfl
@[simp] theorem exec_fmul (o : Op) (s : State) : exec (.fmul o) s = execFmul o s := rfl
@[simp] theorem exec_fma (o : Op) (s : State) : exec (.fma o) s = execFma o s := rfl
@[simp] theorem exec_fdiv (o : Op) (s : State) : exec (.fdiv o) s = execFdiv o s := rfl
@[simp] theorem exec_fsqrt (o : Op) (s : State) : exec (.fsqrt o) s = execFsqrt o s := rfl
@[simp] theorem exec_fmin (o : Op) (s : State) : exec (.fmin o) s = execFmin o s := rfl
@[simp] theorem exec_fmax (o : Op) (s : State) : exec (.fmax o) s = execFmax o s := rfl
@[simp] theorem exec_fcmpeq (o : Op) (s : State) : exec (.fcmpeq o) s = execFcmpeq o s := rfl
@[simp] theorem exec_fcmplt (o : Op) (s : State) : exec (.fcmplt o) s = execFcmplt o s := rfl
@[simp] theorem exec_fcmple (o : Op) (s : State) : exec (.fcmple o) s = execFcmple o s := rfl
@[simp] theorem exec_fcvt (o : Op) (s : State) : exec (.fcvt o) s = execFcvt o s := rfl
@[simp] theorem exec_fclass (o : Op) (s : State) : exec (.fclass o) s = execFclass o s := rfl
@[simp] theorem exec_ldfe (o : Op) (s : State) : exec (.ldfe o) s = execLdfe o s := rfl
@[simp] theorem exec_ldff (o : Op) (s : State) : exec (.ldff o) s = execLdff o s := rfl
@[simp] theorem exec_stef (o : Op) (s : State) : exec (.stef o) s = execStef o s := rfl
@[simp] theorem exec_stff (o : Op) (s : State) : exec (.stff o) s = execStff o s := rfl
@[simp] theorem exec_sete (o : Op) (s : State) : exec (.sete o) s = execSete o s := rfl
@[simp] theorem exec_probe (o : Op) (s : State) : exec (.probe o) s = execProbe o s := rfl
@[simp] theorem exec_lda (o : Op) (s : State) : exec (.lda o) s = execLda o s := rfl
@[simp] theorem exec_strl (o : Op) (s : State) : exec (.strl o) s = execStrl o s := rfl
@[simp] theorem exec_stp (o : Op) (s : State) : exec (.stp o) s = execStp o s := rfl
@[simp] theorem exec_ldm (o : Op) (s : State) : exec (.ldm o) s = execLdm o s := rfl
@[simp] theorem exec_stm (o : Op) (s : State) : exec (.stm o) s = execStm o s := rfl
@[simp] theorem exec_aadd (o : Op) (s : State) : exec (.aadd o) s = execAadd o s := rfl
@[simp] theorem exec_aand (o : Op) (s : State) : exec (.aand o) s = execAand o s := rfl
@[simp] theorem exec_aor (o : Op) (s : State) : exec (.aor o) s = execAor o s := rfl
@[simp] theorem exec_axor (o : Op) (s : State) : exec (.axor o) s = execAxor o s := rfl
@[simp] theorem exec_amin (o : Op) (s : State) : exec (.amin o) s = execAmin o s := rfl
@[simp] theorem exec_amax (o : Op) (s : State) : exec (.amax o) s = execAmax o s := rfl
@[simp] theorem exec_aminu (o : Op) (s : State) : exec (.aminu o) s = execAminu o s := rfl
@[simp] theorem exec_amaxu (o : Op) (s : State) : exec (.amaxu o) s = execAmaxu o s := rfl
@[simp] theorem exec_aswap (o : Op) (s : State) : exec (.aswap o) s = execAswap o s := rfl
@[simp] theorem exec_acas (o : Op) (s : State) : exec (.acas o) s = execAcas o s := rfl
@[simp] theorem exec_fence (o : Op) (s : State) : exec (.fence o) s = execFence o s := rfl
@[simp] theorem exec_watch (o : Op) (s : State) : exec (.watch o) s = execWatch o s := rfl
@[simp] theorem exec_wait (o : Op) (s : State) : exec (.wait o) s = execWait o s := rfl
@[simp] theorem exec_cpy (o : Op) (s : State) : exec (.cpy o) s = execCpy o s := rfl
@[simp] theorem exec_cpyt (o : OpP) (s : State) : exec (.cpyt o) s = execCpyt o s := rfl
@[simp] theorem exec_cpyw (o : Op) (s : State) : exec (.cpyw o) s = execCpyw o s := rfl
@[simp] theorem exec_cpyc (o : Op) (s : State) : exec (.cpyc o) s = execCpyc o s := rfl
@[simp] theorem exec_uien (o : Op) (s : State) : exec (.uien o) s = execUien o s := rfl
@[simp] theorem exec_vld (o : Op) (s : State) : exec (.vld o) s = execVld o s := rfl
@[simp] theorem exec_vst (o : Op) (s : State) : exec (.vst o) s = execVst o s := rfl
@[simp] theorem exec_vlds (o : Op) (s : State) : exec (.vlds o) s = execVlds o s := rfl
@[simp] theorem exec_vsts (o : Op) (s : State) : exec (.vsts o) s = execVsts o s := rfl
@[simp] theorem exec_vgath (o : Op) (s : State) : exec (.vgath o) s = execVgath o s := rfl
@[simp] theorem exec_vscat (o : Op) (s : State) : exec (.vscat o) s = execVscat o s := rfl
@[simp] theorem exec_vadd (o : Op) (s : State) : exec (.vadd o) s = execVadd o s := rfl
@[simp] theorem exec_vsub (o : Op) (s : State) : exec (.vsub o) s = execVsub o s := rfl
@[simp] theorem exec_vmul (o : Op) (s : State) : exec (.vmul o) s = execVmul o s := rfl
@[simp] theorem exec_vfma (o : Op) (s : State) : exec (.vfma o) s = execVfma o s := rfl
@[simp] theorem exec_vmin (o : Op) (s : State) : exec (.vmin o) s = execVmin o s := rfl
@[simp] theorem exec_vmax (o : Op) (s : State) : exec (.vmax o) s = execVmax o s := rfl
@[simp] theorem exec_vabs (o : Op) (s : State) : exec (.vabs o) s = execVabs o s := rfl
@[simp] theorem exec_vneg (o : Op) (s : State) : exec (.vneg o) s = execVneg o s := rfl
@[simp] theorem exec_vand (o : Op) (s : State) : exec (.vand o) s = execVand o s := rfl
@[simp] theorem exec_vor (o : Op) (s : State) : exec (.vor o) s = execVor o s := rfl
@[simp] theorem exec_vxor (o : Op) (s : State) : exec (.vxor o) s = execVxor o s := rfl
@[simp] theorem exec_vshl (o : Op) (s : State) : exec (.vshl o) s = execVshl o s := rfl
@[simp] theorem exec_vshr (o : Op) (s : State) : exec (.vshr o) s = execVshr o s := rfl
@[simp] theorem exec_vcmp (o : Op) (s : State) : exec (.vcmp o) s = execVcmp o s := rfl
@[simp] theorem exec_vsel (o : Op) (s : State) : exec (.vsel o) s = execVsel o s := rfl
@[simp] theorem exec_vrsum (o : Op) (s : State) : exec (.vrsum o) s = execVrsum o s := rfl
@[simp] theorem exec_vrmax (o : Op) (s : State) : exec (.vrmax o) s = execVrmax o s := rfl
@[simp] theorem exec_vrmin (o : Op) (s : State) : exec (.vrmin o) s = execVrmin o s := rfl
@[simp] theorem exec_vcvt (o : Op) (s : State) : exec (.vcvt o) s = execVcvt o s := rfl
@[simp] theorem exec_vbcast (o : Op) (s : State) : exec (.vbcast o) s = execVbcast o s := rfl
@[simp] theorem exec_vperm (o : Op) (s : State) : exec (.vperm o) s = execVperm o s := rfl
@[simp] theorem exec_vext (o : Op) (s : State) : exec (.vext o) s = execVext o s := rfl
@[simp] theorem exec_vins (o : Op) (s : State) : exec (.vins o) s = execVins o s := rfl
@[simp] theorem exec_vdiv (o : Op) (s : State) : exec (.vdiv o) s = execVdiv o s := rfl
@[simp] theorem exec_vsqrt (o : Op) (s : State) : exec (.vsqrt o) s = execVsqrt o s := rfl
@[simp] theorem exec_vdota (o : Op) (s : State) : exec (.vdota o) s = execVdota o s := rfl
@[simp] theorem exec_mlease (o : Op) (s : State) : exec (.mlease o) s = execMlease o s := rfl
@[simp] theorem exec_mldw (o : OpP) (s : State) : exec (.mldw o) s = execMldw o s := rfl
@[simp] theorem exec_mmul (o : OpP) (s : State) : exec (.mmul o) s = execMmul o s := rfl
@[simp] theorem exec_mmuls (o : OpP) (s : State) : exec (.mmuls o) s = execMmuls o s := rfl
@[simp] theorem exec_mdrain (o : OpP) (s : State) : exec (.mdrain o) s = execMdrain o s := rfl
@[simp] theorem exec_mstatStatus (o : Op) (s : State) : exec (.mstatStatus o) s = execMstatStatus o s := rfl
@[simp] theorem exec_mstatGovernor (o : Op) (s : State) : exec (.mstatGovernor o) s = execMstatGovernor o s := rfl
@[simp] theorem exec_mstatCompleted (o : Op) (s : State) : exec (.mstatCompleted o) s = execMstatCompleted o s := rfl
@[simp] theorem exec_mstatSegment (o : Op) (s : State) : exec (.mstatSegment o) s = execMstatSegment o s := rfl
@[simp] theorem exec_accw (o : Op) (s : State) : exec (.accw o) s = execAccw o s := rfl
@[simp] theorem exec_accr (o : Op) (s : State) : exec (.accr o) s = execAccr o s := rfl
@[simp] theorem exec_accz (o : Op) (s : State) : exec (.accz o) s = execAccz o s := rfl
@[simp] theorem exec_bfmt (o : Op) (s : State) : exec (.bfmt o) s = execBfmt o s := rfl
@[simp] theorem exec_bfmtr (o : Op) (s : State) : exec (.bfmtr o) s = execBfmtr o s := rfl
@[simp] theorem exec_launch (o : OpP) (s : State) : exec (.launch o) s = execLaunch o s := rfl
@[simp] theorem exec_spawn (o : Op) (s : State) : exec (.spawn o) s = execSpawn o s := rfl
@[simp] theorem exec_yieldSlot (o : Op) (s : State) : exec (.yieldSlot o) s = execYieldSlot o s := rfl
@[simp] theorem exec_yieldTimed (o : Op) (s : State) : exec (.yieldTimed o) s = execYieldTimed o s := rfl
@[simp] theorem exec_migr (o : Op) (s : State) : exec (.migr o) s = execMigr o s := rfl
@[simp] theorem exec_tqpush (o : Op) (s : State) : exec (.tqpush o) s = execTqpush o s := rfl
@[simp] theorem exec_tqpop (o : Op) (s : State) : exec (.tqpop o) s = execTqpop o s := rfl
@[simp] theorem exec_tqsteal (o : Op) (s : State) : exec (.tqsteal o) s = execTqsteal o s := rfl
@[simp] theorem exec_ccinitPhase (o : Op) (s : State) : exec (.ccinitPhase o) s = execCcinitPhase o s := rfl
@[simp] theorem exec_ccinitJob (o : Op) (s : State) : exec (.ccinitJob o) s = execCcinitJob o s := rfl
@[simp] theorem exec_ccadd (o : Op) (s : State) : exec (.ccadd o) s = execCcadd o s := rfl
@[simp] theorem exec_ccwait (o : Op) (s : State) : exec (.ccwait o) s = execCcwait o s := rfl
@[simp] theorem exec_ccan (o : Op) (s : State) : exec (.ccan o) s = execCcan o s := rfl
@[simp] theorem exec_bsetRead (o : Op) (s : State) : exec (.bsetRead o) s = execBsetRead o s := rfl
@[simp] theorem exec_bsetWrite (o : Op) (s : State) : exec (.bsetWrite o) s = execBsetWrite o s := rfl
@[simp] theorem exec_bar (o : Op) (s : State) : exec (.bar o) s = execBar o s := rfl
@[simp] theorem exec_barw (o : Op) (s : State) : exec (.barw o) s = execBarw o s := rfl
@[simp] theorem exec_graph (o : OpP) (s : State) : exec (.graph o) s = execGraph o s := rfl
@[simp] theorem exec_pbind (o : Op) (s : State) : exec (.pbind o) s = execPbind o s := rfl
@[simp] theorem exec_punb (o : Op) (s : State) : exec (.punb o) s = execPunb o s := rfl
@[simp] theorem exec_pput (o : Op) (s : State) : exec (.pput o) s = execPput o s := rfl
@[simp] theorem exec_pget (o : Op) (s : State) : exec (.pget o) s = execPget o s := rfl
@[simp] theorem exec_pputv (o : Op) (s : State) : exec (.pputv o) s = execPputv o s := rfl
@[simp] theorem exec_pgetv (o : Op) (s : State) : exec (.pgetv o) s = execPgetv o s := rfl
@[simp] theorem exec_ptry (o : Op) (s : State) : exec (.ptry o) s = execPtry o s := rfl
@[simp] theorem exec_pwdr (o : Op) (s : State) : exec (.pwdr o) s = execPwdr o s := rfl
@[simp] theorem exec_cload (o : Op) (s : State) : exec (.cload o) s = execCload o s := rfl
@[simp] theorem exec_cstart (o : Op) (s : State) : exec (.cstart o) s = execCstart o s := rfl
@[simp] theorem exec_cstopStop (o : Op) (s : State) : exec (.cstopStop o) s = execCstopStop o s := rfl
@[simp] theorem exec_cstopFree (o : Op) (s : State) : exec (.cstopFree o) s = execCstopFree o s := rfl
@[simp] theorem exec_cstatConnector (o : Op) (s : State) : exec (.cstatConnector o) s = execCstatConnector o s := rfl
@[simp] theorem exec_cstatRegion (o : Op) (s : State) : exec (.cstatRegion o) s = execCstatRegion o s := rfl
@[simp] theorem exec_cstatPort (o : Op) (s : State) : exec (.cstatPort o) s = execCstatPort o s := rfl
@[simp] theorem exec_cstatBinding (o : Op) (s : State) : exec (.cstatBinding o) s = execCstatBinding o s := rfl
@[simp] theorem exec_wmark (o : Op) (s : State) : exec (.wmark o) s = execWmark o s := rfl
@[simp] theorem exec_widle (o : Op) (s : State) : exec (.widle o) s = execWidle o s := rfl
@[simp] theorem exec_wbind (o : Op) (s : State) : exec (.wbind o) s = execWbind o s := rfl
@[simp] theorem exec_wnext (o : Op) (s : State) : exec (.wnext o) s = execWnext o s := rfl
@[simp] theorem exec_wpub (o : Op) (s : State) : exec (.wpub o) s = execWpub o s := rfl
@[simp] theorem exec_wamend (o : Op) (s : State) : exec (.wamend o) s = execWamend o s := rfl
@[simp] theorem exec_wcloseDrain (o : Op) (s : State) : exec (.wcloseDrain o) s = execWcloseDrain o s := rfl
@[simp] theorem exec_wcloseDiscard (o : Op) (s : State) : exec (.wcloseDiscard o) s = execWcloseDiscard o s := rfl
@[simp] theorem exec_wcloseStatus (o : Op) (s : State) : exec (.wcloseStatus o) s = execWcloseStatus o s := rfl
@[simp] theorem exec_wcloseWatermark (o : Op) (s : State) : exec (.wcloseWatermark o) s = execWcloseWatermark o s := rfl
@[simp] theorem exec_osend (o : Op) (s : State) : exec (.osend o) s = execOsend o s := rfl
@[simp] theorem exec_oqcfgRead (o : Op) (s : State) : exec (.oqcfgRead o) s = execOqcfgRead o s := rfl
@[simp] theorem exec_oqcfgWrite (o : Op) (s : State) : exec (.oqcfgWrite o) s = execOqcfgWrite o s := rfl
@[simp] theorem exec_ostatQueue (o : Op) (s : State) : exec (.ostatQueue o) s = execOstatQueue o s := rfl
@[simp] theorem exec_ostatPort (o : Op) (s : State) : exec (.ostatPort o) s = execOstatPort o s := rfl
@[simp] theorem exec_ostatRelay (o : Op) (s : State) : exec (.ostatRelay o) s = execOstatRelay o s := rfl
@[simp] theorem exec_ocalRead (o : Op) (s : State) : exec (.ocalRead o) s = execOcalRead o s := rfl
@[simp] theorem exec_ocalWrite (o : Op) (s : State) : exec (.ocalWrite o) s = execOcalWrite o s := rfl
@[simp] theorem exec_owaitTime (o : Op) (s : State) : exec (.owaitTime o) s = execOwaitTime o s := rfl
@[simp] theorem exec_owaitSlot (o : Op) (s : State) : exec (.owaitSlot o) s = execOwaitSlot o s := rfl
@[simp] theorem exec_trap (o : Op) (s : State) : exec (.trap o) s = execTrap o s := rfl
@[simp] theorem exec_tretReissue (o : Op) (s : State) : exec (.tretReissue o) s = execTretReissue o s := rfl
@[simp] theorem exec_tretSkip (o : Op) (s : State) : exec (.tretSkip o) s = execTretSkip o s := rfl
@[simp] theorem exec_jrnl (o : Op) (s : State) : exec (.jrnl o) s = execJrnl o s := rfl
@[simp] theorem exec_jrclFree (o : Op) (s : State) : exec (.jrclFree o) s = execJrclFree o s := rfl
@[simp] theorem exec_jrclReplay (o : Op) (s : State) : exec (.jrclReplay o) s = execJrclReplay o s := rfl
@[simp] theorem exec_jrclRedirect (o : Op) (s : State) : exec (.jrclRedirect o) s = execJrclRedirect o s := rfl
@[simp] theorem exec_plbiAddress (o : Op) (s : State) : exec (.plbiAddress o) s = execPlbiAddress o s := rfl
@[simp] theorem exec_plbiCore (o : Op) (s : State) : exec (.plbiCore o) s = execPlbiCore o s := rfl
@[simp] theorem exec_plbiModule (o : Op) (s : State) : exec (.plbiModule o) s = execPlbiModule o s := rfl
@[simp] theorem exec_ctxs (o : Op) (s : State) : exec (.ctxs o) s = execCtxs o s := rfl
@[simp] theorem exec_ctxl (o : Op) (s : State) : exec (.ctxl o) s = execCtxl o s := rfl
@[simp] theorem exec_haltSelf (o : Op) (s : State) : exec (.haltSelf o) s = execHaltSelf o s := rfl
@[simp] theorem exec_haltFence (o : Op) (s : State) : exec (.haltFence o) s = execHaltFence o s := rfl
@[simp] theorem exec_haltUnfence (o : Op) (s : State) : exec (.haltUnfence o) s = execHaltUnfence o s := rfl
@[simp] theorem exec_domsw (o : Op) (s : State) : exec (.domsw o) s = execDomsw o s := rfl
@[simp] theorem exec_waymRead (o : Op) (s : State) : exec (.waymRead o) s = execWaymRead o s := rfl
@[simp] theorem exec_waymRequest (o : Op) (s : State) : exec (.waymRequest o) s = execWaymRequest o s := rfl
@[simp] theorem exec_scrub (o : Op) (s : State) : exec (.scrub o) s = execScrub o s := rfl
@[simp] theorem exec_preemptReady (o : Op) (s : State) : exec (.preemptReady o) s = execPreemptReady o s := rfl
@[simp] theorem exec_preemptHold (o : Op) (s : State) : exec (.preemptHold o) s = execPreemptHold o s := rfl
@[simp] theorem exec_preemptRelease (o : Op) (s : State) : exec (.preemptRelease o) s = execPreemptRelease o s := rfl
@[simp] theorem exec_ret (s : State) : exec (.ret) s = execRet s := rfl
@[simp] theorem exec_nop (s : State) : exec (.nop) s = execNop s := rfl
@[simp] theorem exec_uiret (s : State) : exec (.uiret) s = execUiret s := rfl
@[simp] theorem exec_mrels (s : State) : exec (.mrels) s = execMrels s := rfl
@[simp] theorem exec_mzero (s : State) : exec (.mzero) s = execMzero s := rfl
@[simp] theorem exec_exit (s : State) : exec (.exit) s = execExit s := rfl
@[simp] theorem exec_brk (s : State) : exec (.brk) s = execBrk s := rfl
@[simp] theorem exec_powerUp (s : State) : exec (.powerUp) s = execPowerUp s := rfl
@[simp] theorem exec_rootSelfTest (s : State) : exec (.rootSelfTest) s = execRootSelfTest s := rfl
@[simp] theorem exec_loaderCopy (s : State) : exec (.loaderCopy) s = execLoaderCopy s := rfl
@[simp] theorem exec_linkTraining (s : State) : exec (.linkTraining) s = execLinkTraining s := rfl
@[simp] theorem exec_plynvasLoad (s : State) : exec (.plynvasLoad) s = execPlynvasLoad s := rfl
@[simp] theorem exec_readyReport (s : State) : exec (.readyReport) s = execReadyReport s := rfl
@[simp] theorem exec_instructionFill (s : State) : exec (.instructionFill) s = execInstructionFill s := rfl
@[simp] theorem exec_owedResultWrite (s : State) : exec (.owedResultWrite) s = execOwedResultWrite s := rfl
@[simp] theorem exec_loadReturn (s : State) : exec (.loadReturn) s = execLoadReturn s := rfl
@[simp] theorem exec_storeDrain (s : State) : exec (.storeDrain) s = execStoreDrain s := rfl
@[simp] theorem exec_storePerform (s : State) : exec (.storePerform) s = execStorePerform s := rfl
@[simp] theorem exec_atomicPerform (s : State) : exec (.atomicPerform) s = execAtomicPerform s := rfl
@[simp] theorem exec_clockPacketArrival (s : State) : exec (.clockPacketArrival) s = execClockPacketArrival s := rfl
@[simp] theorem exec_clockProbe (s : State) : exec (.clockProbe) s = execClockProbe s := rfl
@[simp] theorem exec_syncAccessAtHome (s : State) : exec (.syncAccessAtHome) s = execSyncAccessAtHome s := rfl
@[simp] theorem exec_syncTryFailReturn (s : State) : exec (.syncTryFailReturn) s = execSyncTryFailReturn s := rfl
@[simp] theorem exec_syncResend (s : State) : exec (.syncResend) s = execSyncResend s := rfl
@[simp] theorem exec_withdrawalAtHome (s : State) : exec (.withdrawalAtHome) s = execWithdrawalAtHome s := rfl
@[simp] theorem exec_waitlimExpiry (s : State) : exec (.waitlimExpiry) s = execWaitlimExpiry s := rfl
@[simp] theorem exec_burstWindowClose (s : State) : exec (.burstWindowClose) s = execBurstWindowClose s := rfl
@[simp] theorem exec_burstFill (s : State) : exec (.burstFill) s = execBurstFill s := rfl
@[simp] theorem exec_controllerRequest (s : State) : exec (.controllerRequest) s = execControllerRequest s := rfl
@[simp] theorem exec_wayChangeover (s : State) : exec (.wayChangeover) s = execWayChangeover s := rfl
@[simp] theorem exec_plbFill (s : State) : exec (.plbFill) s = execPlbFill s := rfl
@[simp] theorem exec_copyAccept (s : State) : exec (.copyAccept) s = execCopyAccept s := rfl
@[simp] theorem exec_copyUnitWrite (s : State) : exec (.copyUnitWrite) s = execCopyUnitWrite s := rfl
@[simp] theorem exec_copyComplete (s : State) : exec (.copyComplete) s = execCopyComplete s := rfl
@[simp] theorem exec_copyUnitTimeout (s : State) : exec (.copyUnitTimeout) s = execCopyUnitTimeout s := rfl
@[simp] theorem exec_watchArmAtHome (s : State) : exec (.watchArmAtHome) s = execWatchArmAtHome s := rfl
@[simp] theorem exec_watchWakeArrival (s : State) : exec (.watchWakeArrival) s = execWatchWakeArrival s := rfl
@[simp] theorem exec_uiEntry (s : State) : exec (.uiEntry) s = execUiEntry s := rfl
@[simp] theorem exec_asyncTrapEntry (s : State) : exec (.asyncTrapEntry) s = execAsyncTrapEntry s := rfl
@[simp] theorem exec_wakeDuty (s : State) : exec (.wakeDuty) s = execWakeDuty s := rfl
@[simp] theorem exec_cancelAtBoundary (s : State) : exec (.cancelAtBoundary) s = execCancelAtBoundary s := rfl
@[simp] theorem exec_journalAck (s : State) : exec (.journalAck) s = execJournalAck s := rfl
@[simp] theorem exec_journalRefusal (s : State) : exec (.journalRefusal) s = execJournalRefusal s := rfl
@[simp] theorem exec_storeRefusal (s : State) : exec (.storeRefusal) s = execStoreRefusal s := rfl
@[simp] theorem exec_faultReportArrival (s : State) : exec (.faultReportArrival) s = execFaultReportArrival s := rfl
@[simp] theorem exec_mapMessage (s : State) : exec (.mapMessage) s = execMapMessage s := rfl
@[simp] theorem exec_declineMessage (s : State) : exec (.declineMessage) s = execDeclineMessage s := rfl
@[simp] theorem exec_wakeMessage (s : State) : exec (.wakeMessage) s = execWakeMessage s := rfl
@[simp] theorem exec_serviceResponse (s : State) : exec (.serviceResponse) s = execServiceResponse s := rfl
@[simp] theorem exec_svcStatus (s : State) : exec (.svcStatus) s = execSvcStatus s := rfl
@[simp] theorem exec_svcPartitionConfig (s : State) : exec (.svcPartitionConfig) s = execSvcPartitionConfig s := rfl
@[simp] theorem exec_svcJobLoad (s : State) : exec (.svcJobLoad) s = execSvcJobLoad s := rfl
@[simp] theorem exec_svcJobStart (s : State) : exec (.svcJobStart) s = execSvcJobStart s := rfl
@[simp] theorem exec_svcJobCancel (s : State) : exec (.svcJobCancel) s = execSvcJobCancel s := rfl
@[simp] theorem exec_svcFaultRecords (s : State) : exec (.svcFaultRecords) s = execSvcFaultRecords s := rfl
@[simp] theorem exec_svcAttest (s : State) : exec (.svcAttest) s = execSvcAttest s := rfl
@[simp] theorem exec_svcFirmwareUpdate (s : State) : exec (.svcFirmwareUpdate) s = execSvcFirmwareUpdate s := rfl
@[simp] theorem exec_launchStart (s : State) : exec (.launchStart) s = execLaunchStart s := rfl
@[simp] theorem exec_releaseFlushDone (s : State) : exec (.releaseFlushDone) s = execReleaseFlushDone s := rfl
@[simp] theorem exec_slotAssign (s : State) : exec (.slotAssign) s = execSlotAssign s := rfl
@[simp] theorem exec_threadStart (s : State) : exec (.threadStart) s = execThreadStart s := rfl
@[simp] theorem exec_contextSwapOut (s : State) : exec (.contextSwapOut) s = execContextSwapOut s := rfl
@[simp] theorem exec_contextRestore (s : State) : exec (.contextRestore) s = execContextRestore s := rfl
@[simp] theorem exec_migrationReservation (s : State) : exec (.migrationReservation) s = execMigrationReservation s := rfl
@[simp] theorem exec_migrationArrival (s : State) : exec (.migrationArrival) s = execMigrationArrival s := rfl
@[simp] theorem exec_barrierRowCompletion (s : State) : exec (.barrierRowCompletion) s = execBarrierRowCompletion s := rfl
@[simp] theorem exec_barrierColumnCompletion (s : State) : exec (.barrierColumnCompletion) s = execBarrierColumnCompletion s := rfl
@[simp] theorem exec_barrierRelease (s : State) : exec (.barrierRelease) s = execBarrierRelease s := rfl
@[simp] theorem exec_yieldDeadline (s : State) : exec (.yieldDeadline) s = execYieldDeadline s := rfl
@[simp] theorem exec_yieldReadyTimeout (s : State) : exec (.yieldReadyTimeout) s = execYieldReadyTimeout s := rfl
@[simp] theorem exec_leaseGrant (s : State) : exec (.leaseGrant) s = execLeaseGrant s := rfl
@[simp] theorem exec_leaseCycleLimit (s : State) : exec (.leaseCycleLimit) s = execLeaseCycleLimit s := rfl
@[simp] theorem exec_plankAccept (s : State) : exec (.plankAccept) s = execPlankAccept s := rfl
@[simp] theorem exec_governorStart (s : State) : exec (.governorStart) s = execGovernorStart s := rfl
@[simp] theorem exec_plankCommandEnd (s : State) : exec (.plankCommandEnd) s = execPlankCommandEnd s := rfl
@[simp] theorem exec_portRequestArrival (s : State) : exec (.portRequestArrival) s = execPortRequestArrival s := rfl
@[simp] theorem exec_carderStep (s : State) : exec (.carderStep) s = execCarderStep s := rfl
@[simp] theorem exec_idleTimeout (s : State) : exec (.idleTimeout) s = execIdleTimeout s := rfl
@[simp] theorem exec_portCompletionArrival (s : State) : exec (.portCompletionArrival) s = execPortCompletionArrival s := rfl
@[simp] theorem exec_carderCompletionTimeout (s : State) : exec (.carderCompletionTimeout) s = execCarderCompletionTimeout s := rfl
@[simp] theorem exec_bufferItemArrival (s : State) : exec (.bufferItemArrival) s = execBufferItemArrival s := rfl
@[simp] theorem exec_creditArrival (s : State) : exec (.creditArrival) s = execCreditArrival s := rfl
@[simp] theorem exec_watermarkTokenArrival (s : State) : exec (.watermarkTokenArrival) s = execWatermarkTokenArrival s := rfl
@[simp] theorem exec_brimRecord (s : State) : exec (.brimRecord) s = execBrimRecord s := rfl
@[simp] theorem exec_brimWatermarkMessage (s : State) : exec (.brimWatermarkMessage) s = execBrimWatermarkMessage s := rfl
@[simp] theorem exec_frameMarker (s : State) : exec (.frameMarker) s = execFrameMarker s := rfl
@[simp] theorem exec_frameSend (s : State) : exec (.frameSend) s = execFrameSend s := rfl
@[simp] theorem exec_frameReceive (s : State) : exec (.frameReceive) s = execFrameReceive s := rfl
@[simp] theorem exec_ackFrameReceive (s : State) : exec (.ackFrameReceive) s = execAckFrameReceive s := rfl
@[simp] theorem exec_completionAckArrival (s : State) : exec (.completionAckArrival) s = execCompletionAckArrival s := rfl
@[simp] theorem exec_frameResendDue (s : State) : exec (.frameResendDue) s = execFrameResendDue s := rfl
@[simp] theorem exec_relayDiscard (s : State) : exec (.relayDiscard) s = execRelayDiscard s := rfl
@[simp] theorem exec_queueResetArrival (s : State) : exec (.queueResetArrival) s = execQueueResetArrival s := rfl
@[simp] theorem exec_osendBytesHeld (s : State) : exec (.osendBytesHeld) s = execOsendBytesHeld s := rfl
@[simp] theorem exec_gangTick (s : State) : exec (.gangTick) s = execGangTick s := rfl
@[simp] theorem exec_bandboxExchangeDone (s : State) : exec (.bandboxExchangeDone) s = execBandboxExchangeDone s := rfl
@[simp] theorem exec_saveDeadline (s : State) : exec (.saveDeadline) s = execSaveDeadline s := rfl
@[simp] theorem exec_gangLateTimeout (s : State) : exec (.gangLateTimeout) s = execGangLateTimeout s := rfl
@[simp] theorem exec_gschedTakeEffect (s : State) : exec (.gschedTakeEffect) s = execGschedTakeEffect s := rfl
@[simp] theorem exec_faultEvent (s : State) : exec (.faultEvent) s = execFaultEvent s := rfl
@[simp] theorem exec_unitReplacementDone (s : State) : exec (.unitReplacementDone) s = execUnitReplacementDone s := rfl
@[simp] theorem exec_linkCheckFailure (s : State) : exec (.linkCheckFailure) s = execLinkCheckFailure s := rfl
@[simp] theorem exec_laneFailure (s : State) : exec (.laneFailure) s = execLaneFailure s := rfl
@[simp] theorem exec_plankStateError (s : State) : exec (.plankStateError) s = execPlankStateError s := rfl
@[simp] theorem exec_ethIncomingWrite (s : State) : exec (.ethIncomingWrite) s = execEthIncomingWrite s := rfl
@[simp] theorem exec_ethIncomingSend (s : State) : exec (.ethIncomingSend) s = execEthIncomingSend s := rfl
@[simp] theorem exec_ethTailNotify (s : State) : exec (.ethTailNotify) s = execEthTailNotify s := rfl
@[simp] theorem exec_ethOperationEnd (s : State) : exec (.ethOperationEnd) s = execEthOperationEnd s := rfl
@[simp] theorem exec_ingressSend (s : State) : exec (.ingressSend) s = execIngressSend s := rfl
@[simp] theorem exec_ingressOpComplete (s : State) : exec (.ingressOpComplete) s = execIngressOpComplete s := rfl
@[simp] theorem exec_ingressBind (s : State) : exec (.ingressBind) s = execIngressBind s := rfl
@[simp] theorem exec_ingressUnbind (s : State) : exec (.ingressUnbind) s = execIngressUnbind s := rfl
@[simp] theorem exec_thermalOverTemp (s : State) : exec (.thermalOverTemp) s = execThermalOverTemp s := rfl
@[simp] theorem exec_thermalTrip (s : State) : exec (.thermalTrip) s = execThermalTrip s := rfl
@[simp] theorem exec_pcfgWrite (s : State) : exec (.pcfgWrite) s = execPcfgWrite s := rfl
@[simp] theorem exec_pgrpWrite (s : State) : exec (.pgrpWrite) s = execPgrpWrite s := rfl
@[simp] theorem exec_pnextWrite (s : State) : exec (.pnextWrite) s = execPnextWrite s := rfl
@[simp] theorem exec_gschedWrite (s : State) : exec (.gschedWrite) s = execGschedWrite s := rfl
@[simp] theorem exec_wshareWrite (s : State) : exec (.wshareWrite) s = execWshareWrite s := rfl
@[simp] theorem exec_frelWrite (s : State) : exec (.frelWrite) s = execFrelWrite s := rfl
@[simp] theorem exec_configWrite (s : State) : exec (.configWrite) s = execConfigWrite s := rfl
@[simp] theorem exec_kSourceTake (s : State) : exec (.kSourceTake) s = execKSourceTake s := rfl
@[simp] theorem exec_kDestinationOffer (s : State) : exec (.kDestinationOffer) s = execKDestinationOffer s := rfl
@[simp] theorem exec_qPop (s : State) : exec (.qPop) s = execQPop s := rfl
@[simp] theorem exec_qEnginePush (s : State) : exec (.qEnginePush) s = execQEnginePush s := rfl
@[simp] theorem exec_evqPop (s : State) : exec (.evqPop) s = execEvqPop s := rfl
@[simp] theorem exec_msgWrite (s : State) : exec (.msgWrite) s = execMsgWrite s := rfl
@[simp] theorem exec_missingMarker (s : State) : exec (.missingMarker) s = execMissingMarker s := rfl
@[simp] theorem exec_rotorEvent (s : State) : exec (.rotorEvent) s = execRotorEvent s := rfl
@[simp] theorem exec_ccwaitResend (s : State) : exec (.ccwaitResend) s = execCcwaitResend s := rfl
@[simp] theorem exec_writeQueueDrain (s : State) : exec (.writeQueueDrain) s = execWriteQueueDrain s := rfl
@[simp] theorem exec_writeAcknowledgement (s : State) : exec (.writeAcknowledgement) s = execWriteAcknowledgement s := rfl
@[simp] theorem exec_waiterWakeArrival (s : State) : exec (.waiterWakeArrival) s = execWaiterWakeArrival s := rfl
@[simp] theorem exec_powerLoss (s : State) : exec (.powerLoss) s = execPowerLoss s := rfl
@[simp] theorem exec_connectionSetup (s : State) : exec (.connectionSetup) s = execConnectionSetup s := rfl
@[simp] theorem exec_ethIncomingRead (s : State) : exec (.ethIncomingRead) s = execEthIncomingRead s := rfl
@[simp] theorem exec_remoteAtomicOperation (s : State) : exec (.remoteAtomicOperation) s = execRemoteAtomicOperation s := rfl

end Sys2Proof.Machine
end

