-- ==== Sys2Proof/Laws/State.lean ====
section
/-! SUPPORT. What an update of the state leaves as it was: one lemma per update and field, so that no proof unfolds a record
update. -/

namespace Sys2Proof.Machine

/-! ### modCore -/

@[simp] theorem State.modCore_mem (s : State) (c : Key) (f : Core → Core) : (s.modCore c f).mem = s.mem := rfl
@[simp] theorem State.modCore_threads (s : State) (c : Key) (f : Core → Core) : (s.modCore c f).threads = s.threads := rfl
@[simp] theorem State.modCore_clusters (s : State) (c : Key) (f : Core → Core) : (s.modCore c f).clusters = s.clusters := rfl
@[simp] theorem State.modCore_groups (s : State) (c : Key) (f : Core → Core) : (s.modCore c f).groups = s.groups := rfl
@[simp] theorem State.modCore_dies (s : State) (c : Key) (f : Core → Core) : (s.modCore c f).dies = s.dies := rfl
@[simp] theorem State.modCore_parts (s : State) (c : Key) (f : Core → Core) : (s.modCore c f).parts = s.parts := rfl
@[simp] theorem State.modCore_io (s : State) (c : Key) (f : Core → Core) : (s.modCore c f).io = s.io := rfl
@[simp] theorem State.modCore_reqs (s : State) (c : Key) (f : Core → Core) : (s.modCore c f).reqs = s.reqs := rfl
@[simp] theorem State.modCore_acks (s : State) (c : Key) (f : Core → Core) : (s.modCore c f).acks = s.acks := rfl
@[simp] theorem State.modCore_flushes (s : State) (c : Key) (f : Core → Core) : (s.modCore c f).flushes = s.flushes := rfl
@[simp] theorem State.modCore_owed (s : State) (c : Key) (f : Core → Core) : (s.modCore c f).owed = s.owed := rfl
@[simp] theorem State.modCore_agenda (s : State) (c : Key) (f : Core → Core) : (s.modCore c f).agenda = s.agenda := rfl
@[simp] theorem State.modCore_timers (s : State) (c : Key) (f : Core → Core) : (s.modCore c f).timers = s.timers := rfl
@[simp] theorem State.modCore_cycle (s : State) (c : Key) (f : Core → Core) : (s.modCore c f).cycle = s.cycle := rfl
@[simp] theorem State.modCore_rtime (s : State) (c : Key) (f : Core → Core) : (s.modCore c f).rtime = s.rtime := rfl
@[simp] theorem State.modCore_frac (s : State) (c : Key) (f : Core → Core) : (s.modCore c f).frac = s.frac := rfl
@[simp] theorem State.modCore_alarms (s : State) (c : Key) (f : Core → Core) : (s.modCore c f).alarms = s.alarms := rfl
@[simp] theorem State.modCore_fabric (s : State) (c : Key) (f : Core → Core) : (s.modCore c f).fabric = s.fabric := rfl
@[simp] theorem State.modCore_outs (s : State) (c : Key) (f : Core → Core) : (s.modCore c f).outs = s.outs := rfl
@[simp] theorem State.modCore_slew (s : State) (c : Key) (f : Core → Core) : (s.modCore c f).slew = s.slew := rfl
@[simp] theorem State.modCore_cursor (s : State) (c : Key) (f : Core → Core) : (s.modCore c f).cursor = s.cursor := rfl
@[simp] theorem State.modCore_nextId (s : State) (c : Key) (f : Core → Core) : (s.modCore c f).nextId = s.nextId := rfl
@[simp] theorem State.modCore_free (s : State) (c : Key) (f : Core → Core) : (s.modCore c f).free = s.free := rfl
@[simp] theorem State.modCore_cur (s : State) (c : Key) (f : Core → Core) : (s.modCore c f).cur = s.cur := rfl
@[simp] theorem State.modCore_ilen (s : State) (c : Key) (f : Core → Core) : (s.modCore c f).ilen = s.ilen := rfl
@[simp] theorem State.modCore_q (s : State) (c : Key) (f : Core → Core) : (s.modCore c f).q = s.q := rfl
@[simp] theorem State.modCore_arg (s : State) (c : Key) (f : Core → Core) : (s.modCore c f).arg = s.arg := rfl

/-! ### modCluster -/

@[simp] theorem State.modCluster_mem (s : State) (c : Key) (f : Cluster → Cluster) : (s.modCluster c f).mem = s.mem := rfl
@[simp] theorem State.modCluster_threads (s : State) (c : Key) (f : Cluster → Cluster) : (s.modCluster c f).threads = s.threads := rfl
@[simp] theorem State.modCluster_cores (s : State) (c : Key) (f : Cluster → Cluster) : (s.modCluster c f).cores = s.cores := rfl
@[simp] theorem State.modCluster_groups (s : State) (c : Key) (f : Cluster → Cluster) : (s.modCluster c f).groups = s.groups := rfl
@[simp] theorem State.modCluster_dies (s : State) (c : Key) (f : Cluster → Cluster) : (s.modCluster c f).dies = s.dies := rfl
@[simp] theorem State.modCluster_parts (s : State) (c : Key) (f : Cluster → Cluster) : (s.modCluster c f).parts = s.parts := rfl
@[simp] theorem State.modCluster_io (s : State) (c : Key) (f : Cluster → Cluster) : (s.modCluster c f).io = s.io := rfl
@[simp] theorem State.modCluster_reqs (s : State) (c : Key) (f : Cluster → Cluster) : (s.modCluster c f).reqs = s.reqs := rfl
@[simp] theorem State.modCluster_acks (s : State) (c : Key) (f : Cluster → Cluster) : (s.modCluster c f).acks = s.acks := rfl
@[simp] theorem State.modCluster_flushes (s : State) (c : Key) (f : Cluster → Cluster) : (s.modCluster c f).flushes = s.flushes := rfl
@[simp] theorem State.modCluster_owed (s : State) (c : Key) (f : Cluster → Cluster) : (s.modCluster c f).owed = s.owed := rfl
@[simp] theorem State.modCluster_agenda (s : State) (c : Key) (f : Cluster → Cluster) : (s.modCluster c f).agenda = s.agenda := rfl
@[simp] theorem State.modCluster_timers (s : State) (c : Key) (f : Cluster → Cluster) : (s.modCluster c f).timers = s.timers := rfl
@[simp] theorem State.modCluster_cycle (s : State) (c : Key) (f : Cluster → Cluster) : (s.modCluster c f).cycle = s.cycle := rfl
@[simp] theorem State.modCluster_rtime (s : State) (c : Key) (f : Cluster → Cluster) : (s.modCluster c f).rtime = s.rtime := rfl
@[simp] theorem State.modCluster_frac (s : State) (c : Key) (f : Cluster → Cluster) : (s.modCluster c f).frac = s.frac := rfl
@[simp] theorem State.modCluster_alarms (s : State) (c : Key) (f : Cluster → Cluster) : (s.modCluster c f).alarms = s.alarms := rfl
@[simp] theorem State.modCluster_fabric (s : State) (c : Key) (f : Cluster → Cluster) : (s.modCluster c f).fabric = s.fabric := rfl
@[simp] theorem State.modCluster_outs (s : State) (c : Key) (f : Cluster → Cluster) : (s.modCluster c f).outs = s.outs := rfl
@[simp] theorem State.modCluster_slew (s : State) (c : Key) (f : Cluster → Cluster) : (s.modCluster c f).slew = s.slew := rfl
@[simp] theorem State.modCluster_cursor (s : State) (c : Key) (f : Cluster → Cluster) : (s.modCluster c f).cursor = s.cursor := rfl
@[simp] theorem State.modCluster_nextId (s : State) (c : Key) (f : Cluster → Cluster) : (s.modCluster c f).nextId = s.nextId := rfl
@[simp] theorem State.modCluster_free (s : State) (c : Key) (f : Cluster → Cluster) : (s.modCluster c f).free = s.free := rfl
@[simp] theorem State.modCluster_cur (s : State) (c : Key) (f : Cluster → Cluster) : (s.modCluster c f).cur = s.cur := rfl
@[simp] theorem State.modCluster_ilen (s : State) (c : Key) (f : Cluster → Cluster) : (s.modCluster c f).ilen = s.ilen := rfl
@[simp] theorem State.modCluster_q (s : State) (c : Key) (f : Cluster → Cluster) : (s.modCluster c f).q = s.q := rfl
@[simp] theorem State.modCluster_arg (s : State) (c : Key) (f : Cluster → Cluster) : (s.modCluster c f).arg = s.arg := rfl

/-! ### modGroup -/

@[simp] theorem State.modGroup_mem (s : State) (g : Key) (f : Group → Group) : (s.modGroup g f).mem = s.mem := rfl
@[simp] theorem State.modGroup_threads (s : State) (g : Key) (f : Group → Group) : (s.modGroup g f).threads = s.threads := rfl
@[simp] theorem State.modGroup_cores (s : State) (g : Key) (f : Group → Group) : (s.modGroup g f).cores = s.cores := rfl
@[simp] theorem State.modGroup_clusters (s : State) (g : Key) (f : Group → Group) : (s.modGroup g f).clusters = s.clusters := rfl
@[simp] theorem State.modGroup_dies (s : State) (g : Key) (f : Group → Group) : (s.modGroup g f).dies = s.dies := rfl
@[simp] theorem State.modGroup_parts (s : State) (g : Key) (f : Group → Group) : (s.modGroup g f).parts = s.parts := rfl
@[simp] theorem State.modGroup_io (s : State) (g : Key) (f : Group → Group) : (s.modGroup g f).io = s.io := rfl
@[simp] theorem State.modGroup_reqs (s : State) (g : Key) (f : Group → Group) : (s.modGroup g f).reqs = s.reqs := rfl
@[simp] theorem State.modGroup_acks (s : State) (g : Key) (f : Group → Group) : (s.modGroup g f).acks = s.acks := rfl
@[simp] theorem State.modGroup_flushes (s : State) (g : Key) (f : Group → Group) : (s.modGroup g f).flushes = s.flushes := rfl
@[simp] theorem State.modGroup_owed (s : State) (g : Key) (f : Group → Group) : (s.modGroup g f).owed = s.owed := rfl
@[simp] theorem State.modGroup_agenda (s : State) (g : Key) (f : Group → Group) : (s.modGroup g f).agenda = s.agenda := rfl
@[simp] theorem State.modGroup_timers (s : State) (g : Key) (f : Group → Group) : (s.modGroup g f).timers = s.timers := rfl
@[simp] theorem State.modGroup_cycle (s : State) (g : Key) (f : Group → Group) : (s.modGroup g f).cycle = s.cycle := rfl
@[simp] theorem State.modGroup_rtime (s : State) (g : Key) (f : Group → Group) : (s.modGroup g f).rtime = s.rtime := rfl
@[simp] theorem State.modGroup_frac (s : State) (g : Key) (f : Group → Group) : (s.modGroup g f).frac = s.frac := rfl
@[simp] theorem State.modGroup_alarms (s : State) (g : Key) (f : Group → Group) : (s.modGroup g f).alarms = s.alarms := rfl
@[simp] theorem State.modGroup_fabric (s : State) (g : Key) (f : Group → Group) : (s.modGroup g f).fabric = s.fabric := rfl
@[simp] theorem State.modGroup_outs (s : State) (g : Key) (f : Group → Group) : (s.modGroup g f).outs = s.outs := rfl
@[simp] theorem State.modGroup_slew (s : State) (g : Key) (f : Group → Group) : (s.modGroup g f).slew = s.slew := rfl
@[simp] theorem State.modGroup_cursor (s : State) (g : Key) (f : Group → Group) : (s.modGroup g f).cursor = s.cursor := rfl
@[simp] theorem State.modGroup_nextId (s : State) (g : Key) (f : Group → Group) : (s.modGroup g f).nextId = s.nextId := rfl
@[simp] theorem State.modGroup_free (s : State) (g : Key) (f : Group → Group) : (s.modGroup g f).free = s.free := rfl
@[simp] theorem State.modGroup_cur (s : State) (g : Key) (f : Group → Group) : (s.modGroup g f).cur = s.cur := rfl
@[simp] theorem State.modGroup_ilen (s : State) (g : Key) (f : Group → Group) : (s.modGroup g f).ilen = s.ilen := rfl
@[simp] theorem State.modGroup_q (s : State) (g : Key) (f : Group → Group) : (s.modGroup g f).q = s.q := rfl
@[simp] theorem State.modGroup_arg (s : State) (g : Key) (f : Group → Group) : (s.modGroup g f).arg = s.arg := rfl

/-! ### modPlank -/

@[simp] theorem State.modPlank_mem (s : State) (g : Key) (f : Plank → Plank) : (s.modPlank g f).mem = s.mem := rfl
@[simp] theorem State.modPlank_threads (s : State) (g : Key) (f : Plank → Plank) : (s.modPlank g f).threads = s.threads := rfl
@[simp] theorem State.modPlank_cores (s : State) (g : Key) (f : Plank → Plank) : (s.modPlank g f).cores = s.cores := rfl
@[simp] theorem State.modPlank_clusters (s : State) (g : Key) (f : Plank → Plank) : (s.modPlank g f).clusters = s.clusters := rfl
@[simp] theorem State.modPlank_dies (s : State) (g : Key) (f : Plank → Plank) : (s.modPlank g f).dies = s.dies := rfl
@[simp] theorem State.modPlank_parts (s : State) (g : Key) (f : Plank → Plank) : (s.modPlank g f).parts = s.parts := rfl
@[simp] theorem State.modPlank_io (s : State) (g : Key) (f : Plank → Plank) : (s.modPlank g f).io = s.io := rfl
@[simp] theorem State.modPlank_reqs (s : State) (g : Key) (f : Plank → Plank) : (s.modPlank g f).reqs = s.reqs := rfl
@[simp] theorem State.modPlank_acks (s : State) (g : Key) (f : Plank → Plank) : (s.modPlank g f).acks = s.acks := rfl
@[simp] theorem State.modPlank_flushes (s : State) (g : Key) (f : Plank → Plank) : (s.modPlank g f).flushes = s.flushes := rfl
@[simp] theorem State.modPlank_owed (s : State) (g : Key) (f : Plank → Plank) : (s.modPlank g f).owed = s.owed := rfl
@[simp] theorem State.modPlank_agenda (s : State) (g : Key) (f : Plank → Plank) : (s.modPlank g f).agenda = s.agenda := rfl
@[simp] theorem State.modPlank_timers (s : State) (g : Key) (f : Plank → Plank) : (s.modPlank g f).timers = s.timers := rfl
@[simp] theorem State.modPlank_cycle (s : State) (g : Key) (f : Plank → Plank) : (s.modPlank g f).cycle = s.cycle := rfl
@[simp] theorem State.modPlank_rtime (s : State) (g : Key) (f : Plank → Plank) : (s.modPlank g f).rtime = s.rtime := rfl
@[simp] theorem State.modPlank_frac (s : State) (g : Key) (f : Plank → Plank) : (s.modPlank g f).frac = s.frac := rfl
@[simp] theorem State.modPlank_alarms (s : State) (g : Key) (f : Plank → Plank) : (s.modPlank g f).alarms = s.alarms := rfl
@[simp] theorem State.modPlank_fabric (s : State) (g : Key) (f : Plank → Plank) : (s.modPlank g f).fabric = s.fabric := rfl
@[simp] theorem State.modPlank_outs (s : State) (g : Key) (f : Plank → Plank) : (s.modPlank g f).outs = s.outs := rfl
@[simp] theorem State.modPlank_slew (s : State) (g : Key) (f : Plank → Plank) : (s.modPlank g f).slew = s.slew := rfl
@[simp] theorem State.modPlank_cursor (s : State) (g : Key) (f : Plank → Plank) : (s.modPlank g f).cursor = s.cursor := rfl
@[simp] theorem State.modPlank_nextId (s : State) (g : Key) (f : Plank → Plank) : (s.modPlank g f).nextId = s.nextId := rfl
@[simp] theorem State.modPlank_free (s : State) (g : Key) (f : Plank → Plank) : (s.modPlank g f).free = s.free := rfl
@[simp] theorem State.modPlank_cur (s : State) (g : Key) (f : Plank → Plank) : (s.modPlank g f).cur = s.cur := rfl
@[simp] theorem State.modPlank_ilen (s : State) (g : Key) (f : Plank → Plank) : (s.modPlank g f).ilen = s.ilen := rfl
@[simp] theorem State.modPlank_q (s : State) (g : Key) (f : Plank → Plank) : (s.modPlank g f).q = s.q := rfl
@[simp] theorem State.modPlank_arg (s : State) (g : Key) (f : Plank → Plank) : (s.modPlank g f).arg = s.arg := rfl

/-! ### modDie -/

@[simp] theorem State.modDie_mem (s : State) (d : Nat) (f : Die → Die) : (s.modDie d f).mem = s.mem := rfl
@[simp] theorem State.modDie_threads (s : State) (d : Nat) (f : Die → Die) : (s.modDie d f).threads = s.threads := rfl
@[simp] theorem State.modDie_cores (s : State) (d : Nat) (f : Die → Die) : (s.modDie d f).cores = s.cores := rfl
@[simp] theorem State.modDie_clusters (s : State) (d : Nat) (f : Die → Die) : (s.modDie d f).clusters = s.clusters := rfl
@[simp] theorem State.modDie_groups (s : State) (d : Nat) (f : Die → Die) : (s.modDie d f).groups = s.groups := rfl
@[simp] theorem State.modDie_parts (s : State) (d : Nat) (f : Die → Die) : (s.modDie d f).parts = s.parts := rfl
@[simp] theorem State.modDie_io (s : State) (d : Nat) (f : Die → Die) : (s.modDie d f).io = s.io := rfl
@[simp] theorem State.modDie_reqs (s : State) (d : Nat) (f : Die → Die) : (s.modDie d f).reqs = s.reqs := rfl
@[simp] theorem State.modDie_acks (s : State) (d : Nat) (f : Die → Die) : (s.modDie d f).acks = s.acks := rfl
@[simp] theorem State.modDie_flushes (s : State) (d : Nat) (f : Die → Die) : (s.modDie d f).flushes = s.flushes := rfl
@[simp] theorem State.modDie_owed (s : State) (d : Nat) (f : Die → Die) : (s.modDie d f).owed = s.owed := rfl
@[simp] theorem State.modDie_agenda (s : State) (d : Nat) (f : Die → Die) : (s.modDie d f).agenda = s.agenda := rfl
@[simp] theorem State.modDie_timers (s : State) (d : Nat) (f : Die → Die) : (s.modDie d f).timers = s.timers := rfl
@[simp] theorem State.modDie_cycle (s : State) (d : Nat) (f : Die → Die) : (s.modDie d f).cycle = s.cycle := rfl
@[simp] theorem State.modDie_rtime (s : State) (d : Nat) (f : Die → Die) : (s.modDie d f).rtime = s.rtime := rfl
@[simp] theorem State.modDie_frac (s : State) (d : Nat) (f : Die → Die) : (s.modDie d f).frac = s.frac := rfl
@[simp] theorem State.modDie_alarms (s : State) (d : Nat) (f : Die → Die) : (s.modDie d f).alarms = s.alarms := rfl
@[simp] theorem State.modDie_fabric (s : State) (d : Nat) (f : Die → Die) : (s.modDie d f).fabric = s.fabric := rfl
@[simp] theorem State.modDie_outs (s : State) (d : Nat) (f : Die → Die) : (s.modDie d f).outs = s.outs := rfl
@[simp] theorem State.modDie_slew (s : State) (d : Nat) (f : Die → Die) : (s.modDie d f).slew = s.slew := rfl
@[simp] theorem State.modDie_cursor (s : State) (d : Nat) (f : Die → Die) : (s.modDie d f).cursor = s.cursor := rfl
@[simp] theorem State.modDie_nextId (s : State) (d : Nat) (f : Die → Die) : (s.modDie d f).nextId = s.nextId := rfl
@[simp] theorem State.modDie_free (s : State) (d : Nat) (f : Die → Die) : (s.modDie d f).free = s.free := rfl
@[simp] theorem State.modDie_cur (s : State) (d : Nat) (f : Die → Die) : (s.modDie d f).cur = s.cur := rfl
@[simp] theorem State.modDie_ilen (s : State) (d : Nat) (f : Die → Die) : (s.modDie d f).ilen = s.ilen := rfl
@[simp] theorem State.modDie_q (s : State) (d : Nat) (f : Die → Die) : (s.modDie d f).q = s.q := rfl
@[simp] theorem State.modDie_arg (s : State) (d : Nat) (f : Die → Die) : (s.modDie d f).arg = s.arg := rfl

/-! ### modPart -/

@[simp] theorem State.modPart_mem (s : State) (p : Nat) (f : Partition → Partition) : (s.modPart p f).mem = s.mem := rfl
@[simp] theorem State.modPart_threads (s : State) (p : Nat) (f : Partition → Partition) : (s.modPart p f).threads = s.threads := rfl
@[simp] theorem State.modPart_cores (s : State) (p : Nat) (f : Partition → Partition) : (s.modPart p f).cores = s.cores := rfl
@[simp] theorem State.modPart_clusters (s : State) (p : Nat) (f : Partition → Partition) : (s.modPart p f).clusters = s.clusters := rfl
@[simp] theorem State.modPart_groups (s : State) (p : Nat) (f : Partition → Partition) : (s.modPart p f).groups = s.groups := rfl
@[simp] theorem State.modPart_dies (s : State) (p : Nat) (f : Partition → Partition) : (s.modPart p f).dies = s.dies := rfl
@[simp] theorem State.modPart_io (s : State) (p : Nat) (f : Partition → Partition) : (s.modPart p f).io = s.io := rfl
@[simp] theorem State.modPart_reqs (s : State) (p : Nat) (f : Partition → Partition) : (s.modPart p f).reqs = s.reqs := rfl
@[simp] theorem State.modPart_acks (s : State) (p : Nat) (f : Partition → Partition) : (s.modPart p f).acks = s.acks := rfl
@[simp] theorem State.modPart_flushes (s : State) (p : Nat) (f : Partition → Partition) : (s.modPart p f).flushes = s.flushes := rfl
@[simp] theorem State.modPart_owed (s : State) (p : Nat) (f : Partition → Partition) : (s.modPart p f).owed = s.owed := rfl
@[simp] theorem State.modPart_agenda (s : State) (p : Nat) (f : Partition → Partition) : (s.modPart p f).agenda = s.agenda := rfl
@[simp] theorem State.modPart_timers (s : State) (p : Nat) (f : Partition → Partition) : (s.modPart p f).timers = s.timers := rfl
@[simp] theorem State.modPart_cycle (s : State) (p : Nat) (f : Partition → Partition) : (s.modPart p f).cycle = s.cycle := rfl
@[simp] theorem State.modPart_rtime (s : State) (p : Nat) (f : Partition → Partition) : (s.modPart p f).rtime = s.rtime := rfl
@[simp] theorem State.modPart_frac (s : State) (p : Nat) (f : Partition → Partition) : (s.modPart p f).frac = s.frac := rfl
@[simp] theorem State.modPart_alarms (s : State) (p : Nat) (f : Partition → Partition) : (s.modPart p f).alarms = s.alarms := rfl
@[simp] theorem State.modPart_fabric (s : State) (p : Nat) (f : Partition → Partition) : (s.modPart p f).fabric = s.fabric := rfl
@[simp] theorem State.modPart_outs (s : State) (p : Nat) (f : Partition → Partition) : (s.modPart p f).outs = s.outs := rfl
@[simp] theorem State.modPart_slew (s : State) (p : Nat) (f : Partition → Partition) : (s.modPart p f).slew = s.slew := rfl
@[simp] theorem State.modPart_cursor (s : State) (p : Nat) (f : Partition → Partition) : (s.modPart p f).cursor = s.cursor := rfl
@[simp] theorem State.modPart_nextId (s : State) (p : Nat) (f : Partition → Partition) : (s.modPart p f).nextId = s.nextId := rfl
@[simp] theorem State.modPart_free (s : State) (p : Nat) (f : Partition → Partition) : (s.modPart p f).free = s.free := rfl
@[simp] theorem State.modPart_cur (s : State) (p : Nat) (f : Partition → Partition) : (s.modPart p f).cur = s.cur := rfl
@[simp] theorem State.modPart_ilen (s : State) (p : Nat) (f : Partition → Partition) : (s.modPart p f).ilen = s.ilen := rfl
@[simp] theorem State.modPart_q (s : State) (p : Nat) (f : Partition → Partition) : (s.modPart p f).q = s.q := rfl
@[simp] theorem State.modPart_arg (s : State) (p : Nat) (f : Partition → Partition) : (s.modPart p f).arg = s.arg := rfl

/-! ### modImage -/

@[simp] theorem State.modImage_mem (s : State) (p : Nat) (g : Key) (f : GImage → GImage) : (s.modImage p g f).mem = s.mem := rfl
@[simp] theorem State.modImage_threads (s : State) (p : Nat) (g : Key) (f : GImage → GImage) : (s.modImage p g f).threads = s.threads := rfl
@[simp] theorem State.modImage_cores (s : State) (p : Nat) (g : Key) (f : GImage → GImage) : (s.modImage p g f).cores = s.cores := rfl
@[simp] theorem State.modImage_clusters (s : State) (p : Nat) (g : Key) (f : GImage → GImage) : (s.modImage p g f).clusters = s.clusters := rfl
@[simp] theorem State.modImage_groups (s : State) (p : Nat) (g : Key) (f : GImage → GImage) : (s.modImage p g f).groups = s.groups := rfl
@[simp] theorem State.modImage_dies (s : State) (p : Nat) (g : Key) (f : GImage → GImage) : (s.modImage p g f).dies = s.dies := rfl
@[simp] theorem State.modImage_io (s : State) (p : Nat) (g : Key) (f : GImage → GImage) : (s.modImage p g f).io = s.io := rfl
@[simp] theorem State.modImage_reqs (s : State) (p : Nat) (g : Key) (f : GImage → GImage) : (s.modImage p g f).reqs = s.reqs := rfl
@[simp] theorem State.modImage_acks (s : State) (p : Nat) (g : Key) (f : GImage → GImage) : (s.modImage p g f).acks = s.acks := rfl
@[simp] theorem State.modImage_flushes (s : State) (p : Nat) (g : Key) (f : GImage → GImage) : (s.modImage p g f).flushes = s.flushes := rfl
@[simp] theorem State.modImage_owed (s : State) (p : Nat) (g : Key) (f : GImage → GImage) : (s.modImage p g f).owed = s.owed := rfl
@[simp] theorem State.modImage_agenda (s : State) (p : Nat) (g : Key) (f : GImage → GImage) : (s.modImage p g f).agenda = s.agenda := rfl
@[simp] theorem State.modImage_timers (s : State) (p : Nat) (g : Key) (f : GImage → GImage) : (s.modImage p g f).timers = s.timers := rfl
@[simp] theorem State.modImage_cycle (s : State) (p : Nat) (g : Key) (f : GImage → GImage) : (s.modImage p g f).cycle = s.cycle := rfl
@[simp] theorem State.modImage_rtime (s : State) (p : Nat) (g : Key) (f : GImage → GImage) : (s.modImage p g f).rtime = s.rtime := rfl
@[simp] theorem State.modImage_frac (s : State) (p : Nat) (g : Key) (f : GImage → GImage) : (s.modImage p g f).frac = s.frac := rfl
@[simp] theorem State.modImage_alarms (s : State) (p : Nat) (g : Key) (f : GImage → GImage) : (s.modImage p g f).alarms = s.alarms := rfl
@[simp] theorem State.modImage_fabric (s : State) (p : Nat) (g : Key) (f : GImage → GImage) : (s.modImage p g f).fabric = s.fabric := rfl
@[simp] theorem State.modImage_outs (s : State) (p : Nat) (g : Key) (f : GImage → GImage) : (s.modImage p g f).outs = s.outs := rfl
@[simp] theorem State.modImage_slew (s : State) (p : Nat) (g : Key) (f : GImage → GImage) : (s.modImage p g f).slew = s.slew := rfl
@[simp] theorem State.modImage_cursor (s : State) (p : Nat) (g : Key) (f : GImage → GImage) : (s.modImage p g f).cursor = s.cursor := rfl
@[simp] theorem State.modImage_nextId (s : State) (p : Nat) (g : Key) (f : GImage → GImage) : (s.modImage p g f).nextId = s.nextId := rfl
@[simp] theorem State.modImage_free (s : State) (p : Nat) (g : Key) (f : GImage → GImage) : (s.modImage p g f).free = s.free := rfl
@[simp] theorem State.modImage_cur (s : State) (p : Nat) (g : Key) (f : GImage → GImage) : (s.modImage p g f).cur = s.cur := rfl
@[simp] theorem State.modImage_ilen (s : State) (p : Nat) (g : Key) (f : GImage → GImage) : (s.modImage p g f).ilen = s.ilen := rfl
@[simp] theorem State.modImage_q (s : State) (p : Nat) (g : Key) (f : GImage → GImage) : (s.modImage p g f).q = s.q := rfl
@[simp] theorem State.modImage_arg (s : State) (p : Nat) (g : Key) (f : GImage → GImage) : (s.modImage p g f).arg = s.arg := rfl

/-! ### modIo -/

@[simp] theorem State.modIo_mem (s : State) (f : Io → Io) : (s.modIo f).mem = s.mem := rfl
@[simp] theorem State.modIo_threads (s : State) (f : Io → Io) : (s.modIo f).threads = s.threads := rfl
@[simp] theorem State.modIo_cores (s : State) (f : Io → Io) : (s.modIo f).cores = s.cores := rfl
@[simp] theorem State.modIo_clusters (s : State) (f : Io → Io) : (s.modIo f).clusters = s.clusters := rfl
@[simp] theorem State.modIo_groups (s : State) (f : Io → Io) : (s.modIo f).groups = s.groups := rfl
@[simp] theorem State.modIo_dies (s : State) (f : Io → Io) : (s.modIo f).dies = s.dies := rfl
@[simp] theorem State.modIo_parts (s : State) (f : Io → Io) : (s.modIo f).parts = s.parts := rfl
@[simp] theorem State.modIo_reqs (s : State) (f : Io → Io) : (s.modIo f).reqs = s.reqs := rfl
@[simp] theorem State.modIo_acks (s : State) (f : Io → Io) : (s.modIo f).acks = s.acks := rfl
@[simp] theorem State.modIo_flushes (s : State) (f : Io → Io) : (s.modIo f).flushes = s.flushes := rfl
@[simp] theorem State.modIo_owed (s : State) (f : Io → Io) : (s.modIo f).owed = s.owed := rfl
@[simp] theorem State.modIo_agenda (s : State) (f : Io → Io) : (s.modIo f).agenda = s.agenda := rfl
@[simp] theorem State.modIo_timers (s : State) (f : Io → Io) : (s.modIo f).timers = s.timers := rfl
@[simp] theorem State.modIo_cycle (s : State) (f : Io → Io) : (s.modIo f).cycle = s.cycle := rfl
@[simp] theorem State.modIo_rtime (s : State) (f : Io → Io) : (s.modIo f).rtime = s.rtime := rfl
@[simp] theorem State.modIo_frac (s : State) (f : Io → Io) : (s.modIo f).frac = s.frac := rfl
@[simp] theorem State.modIo_alarms (s : State) (f : Io → Io) : (s.modIo f).alarms = s.alarms := rfl
@[simp] theorem State.modIo_fabric (s : State) (f : Io → Io) : (s.modIo f).fabric = s.fabric := rfl
@[simp] theorem State.modIo_outs (s : State) (f : Io → Io) : (s.modIo f).outs = s.outs := rfl
@[simp] theorem State.modIo_slew (s : State) (f : Io → Io) : (s.modIo f).slew = s.slew := rfl
@[simp] theorem State.modIo_cursor (s : State) (f : Io → Io) : (s.modIo f).cursor = s.cursor := rfl
@[simp] theorem State.modIo_nextId (s : State) (f : Io → Io) : (s.modIo f).nextId = s.nextId := rfl
@[simp] theorem State.modIo_free (s : State) (f : Io → Io) : (s.modIo f).free = s.free := rfl
@[simp] theorem State.modIo_cur (s : State) (f : Io → Io) : (s.modIo f).cur = s.cur := rfl
@[simp] theorem State.modIo_ilen (s : State) (f : Io → Io) : (s.modIo f).ilen = s.ilen := rfl
@[simp] theorem State.modIo_q (s : State) (f : Io → Io) : (s.modIo f).q = s.q := rfl
@[simp] theorem State.modIo_arg (s : State) (f : Io → Io) : (s.modIo f).arg = s.arg := rfl

/-! ### modMem -/

@[simp] theorem State.modMem_threads (s : State) (f : Mem → Mem) : (s.modMem f).threads = s.threads := rfl
@[simp] theorem State.modMem_cores (s : State) (f : Mem → Mem) : (s.modMem f).cores = s.cores := rfl
@[simp] theorem State.modMem_clusters (s : State) (f : Mem → Mem) : (s.modMem f).clusters = s.clusters := rfl
@[simp] theorem State.modMem_groups (s : State) (f : Mem → Mem) : (s.modMem f).groups = s.groups := rfl
@[simp] theorem State.modMem_dies (s : State) (f : Mem → Mem) : (s.modMem f).dies = s.dies := rfl
@[simp] theorem State.modMem_parts (s : State) (f : Mem → Mem) : (s.modMem f).parts = s.parts := rfl
@[simp] theorem State.modMem_io (s : State) (f : Mem → Mem) : (s.modMem f).io = s.io := rfl
@[simp] theorem State.modMem_reqs (s : State) (f : Mem → Mem) : (s.modMem f).reqs = s.reqs := rfl
@[simp] theorem State.modMem_acks (s : State) (f : Mem → Mem) : (s.modMem f).acks = s.acks := rfl
@[simp] theorem State.modMem_flushes (s : State) (f : Mem → Mem) : (s.modMem f).flushes = s.flushes := rfl
@[simp] theorem State.modMem_owed (s : State) (f : Mem → Mem) : (s.modMem f).owed = s.owed := rfl
@[simp] theorem State.modMem_agenda (s : State) (f : Mem → Mem) : (s.modMem f).agenda = s.agenda := rfl
@[simp] theorem State.modMem_timers (s : State) (f : Mem → Mem) : (s.modMem f).timers = s.timers := rfl
@[simp] theorem State.modMem_cycle (s : State) (f : Mem → Mem) : (s.modMem f).cycle = s.cycle := rfl
@[simp] theorem State.modMem_rtime (s : State) (f : Mem → Mem) : (s.modMem f).rtime = s.rtime := rfl
@[simp] theorem State.modMem_frac (s : State) (f : Mem → Mem) : (s.modMem f).frac = s.frac := rfl
@[simp] theorem State.modMem_alarms (s : State) (f : Mem → Mem) : (s.modMem f).alarms = s.alarms := rfl
@[simp] theorem State.modMem_fabric (s : State) (f : Mem → Mem) : (s.modMem f).fabric = s.fabric := rfl
@[simp] theorem State.modMem_outs (s : State) (f : Mem → Mem) : (s.modMem f).outs = s.outs := rfl
@[simp] theorem State.modMem_slew (s : State) (f : Mem → Mem) : (s.modMem f).slew = s.slew := rfl
@[simp] theorem State.modMem_cursor (s : State) (f : Mem → Mem) : (s.modMem f).cursor = s.cursor := rfl
@[simp] theorem State.modMem_nextId (s : State) (f : Mem → Mem) : (s.modMem f).nextId = s.nextId := rfl
@[simp] theorem State.modMem_free (s : State) (f : Mem → Mem) : (s.modMem f).free = s.free := rfl
@[simp] theorem State.modMem_cur (s : State) (f : Mem → Mem) : (s.modMem f).cur = s.cur := rfl
@[simp] theorem State.modMem_ilen (s : State) (f : Mem → Mem) : (s.modMem f).ilen = s.ilen := rfl
@[simp] theorem State.modMem_q (s : State) (f : Mem → Mem) : (s.modMem f).q = s.q := rfl
@[simp] theorem State.modMem_arg (s : State) (f : Mem → Mem) : (s.modMem f).arg = s.arg := rfl

/-! ### modReq -/

@[simp] theorem State.modReq_mem (s : State) (i : Nat) (f : Req → Req) : (s.modReq i f).mem = s.mem := rfl
@[simp] theorem State.modReq_threads (s : State) (i : Nat) (f : Req → Req) : (s.modReq i f).threads = s.threads := rfl
@[simp] theorem State.modReq_cores (s : State) (i : Nat) (f : Req → Req) : (s.modReq i f).cores = s.cores := rfl
@[simp] theorem State.modReq_clusters (s : State) (i : Nat) (f : Req → Req) : (s.modReq i f).clusters = s.clusters := rfl
@[simp] theorem State.modReq_groups (s : State) (i : Nat) (f : Req → Req) : (s.modReq i f).groups = s.groups := rfl
@[simp] theorem State.modReq_dies (s : State) (i : Nat) (f : Req → Req) : (s.modReq i f).dies = s.dies := rfl
@[simp] theorem State.modReq_parts (s : State) (i : Nat) (f : Req → Req) : (s.modReq i f).parts = s.parts := rfl
@[simp] theorem State.modReq_io (s : State) (i : Nat) (f : Req → Req) : (s.modReq i f).io = s.io := rfl
@[simp] theorem State.modReq_acks (s : State) (i : Nat) (f : Req → Req) : (s.modReq i f).acks = s.acks := rfl
@[simp] theorem State.modReq_flushes (s : State) (i : Nat) (f : Req → Req) : (s.modReq i f).flushes = s.flushes := rfl
@[simp] theorem State.modReq_owed (s : State) (i : Nat) (f : Req → Req) : (s.modReq i f).owed = s.owed := rfl
@[simp] theorem State.modReq_agenda (s : State) (i : Nat) (f : Req → Req) : (s.modReq i f).agenda = s.agenda := rfl
@[simp] theorem State.modReq_timers (s : State) (i : Nat) (f : Req → Req) : (s.modReq i f).timers = s.timers := rfl
@[simp] theorem State.modReq_cycle (s : State) (i : Nat) (f : Req → Req) : (s.modReq i f).cycle = s.cycle := rfl
@[simp] theorem State.modReq_rtime (s : State) (i : Nat) (f : Req → Req) : (s.modReq i f).rtime = s.rtime := rfl
@[simp] theorem State.modReq_frac (s : State) (i : Nat) (f : Req → Req) : (s.modReq i f).frac = s.frac := rfl
@[simp] theorem State.modReq_alarms (s : State) (i : Nat) (f : Req → Req) : (s.modReq i f).alarms = s.alarms := rfl
@[simp] theorem State.modReq_fabric (s : State) (i : Nat) (f : Req → Req) : (s.modReq i f).fabric = s.fabric := rfl
@[simp] theorem State.modReq_outs (s : State) (i : Nat) (f : Req → Req) : (s.modReq i f).outs = s.outs := rfl
@[simp] theorem State.modReq_slew (s : State) (i : Nat) (f : Req → Req) : (s.modReq i f).slew = s.slew := rfl
@[simp] theorem State.modReq_cursor (s : State) (i : Nat) (f : Req → Req) : (s.modReq i f).cursor = s.cursor := rfl
@[simp] theorem State.modReq_nextId (s : State) (i : Nat) (f : Req → Req) : (s.modReq i f).nextId = s.nextId := rfl
@[simp] theorem State.modReq_free (s : State) (i : Nat) (f : Req → Req) : (s.modReq i f).free = s.free := rfl
@[simp] theorem State.modReq_cur (s : State) (i : Nat) (f : Req → Req) : (s.modReq i f).cur = s.cur := rfl
@[simp] theorem State.modReq_ilen (s : State) (i : Nat) (f : Req → Req) : (s.modReq i f).ilen = s.ilen := rfl
@[simp] theorem State.modReq_q (s : State) (i : Nat) (f : Req → Req) : (s.modReq i f).q = s.q := rfl
@[simp] theorem State.modReq_arg (s : State) (i : Nat) (f : Req → Req) : (s.modReq i f).arg = s.arg := rfl

/-! ### dropReq -/

@[simp] theorem State.dropReq_mem (s : State) (i : Nat) : (s.dropReq i).mem = s.mem := rfl
@[simp] theorem State.dropReq_threads (s : State) (i : Nat) : (s.dropReq i).threads = s.threads := rfl
@[simp] theorem State.dropReq_cores (s : State) (i : Nat) : (s.dropReq i).cores = s.cores := rfl
@[simp] theorem State.dropReq_clusters (s : State) (i : Nat) : (s.dropReq i).clusters = s.clusters := rfl
@[simp] theorem State.dropReq_groups (s : State) (i : Nat) : (s.dropReq i).groups = s.groups := rfl
@[simp] theorem State.dropReq_dies (s : State) (i : Nat) : (s.dropReq i).dies = s.dies := rfl
@[simp] theorem State.dropReq_parts (s : State) (i : Nat) : (s.dropReq i).parts = s.parts := rfl
@[simp] theorem State.dropReq_io (s : State) (i : Nat) : (s.dropReq i).io = s.io := rfl
@[simp] theorem State.dropReq_acks (s : State) (i : Nat) : (s.dropReq i).acks = s.acks := rfl
@[simp] theorem State.dropReq_flushes (s : State) (i : Nat) : (s.dropReq i).flushes = s.flushes := rfl
@[simp] theorem State.dropReq_owed (s : State) (i : Nat) : (s.dropReq i).owed = s.owed := rfl
@[simp] theorem State.dropReq_agenda (s : State) (i : Nat) : (s.dropReq i).agenda = s.agenda := rfl
@[simp] theorem State.dropReq_timers (s : State) (i : Nat) : (s.dropReq i).timers = s.timers := rfl
@[simp] theorem State.dropReq_cycle (s : State) (i : Nat) : (s.dropReq i).cycle = s.cycle := rfl
@[simp] theorem State.dropReq_rtime (s : State) (i : Nat) : (s.dropReq i).rtime = s.rtime := rfl
@[simp] theorem State.dropReq_frac (s : State) (i : Nat) : (s.dropReq i).frac = s.frac := rfl
@[simp] theorem State.dropReq_alarms (s : State) (i : Nat) : (s.dropReq i).alarms = s.alarms := rfl
@[simp] theorem State.dropReq_fabric (s : State) (i : Nat) : (s.dropReq i).fabric = s.fabric := rfl
@[simp] theorem State.dropReq_outs (s : State) (i : Nat) : (s.dropReq i).outs = s.outs := rfl
@[simp] theorem State.dropReq_slew (s : State) (i : Nat) : (s.dropReq i).slew = s.slew := rfl
@[simp] theorem State.dropReq_cursor (s : State) (i : Nat) : (s.dropReq i).cursor = s.cursor := rfl
@[simp] theorem State.dropReq_nextId (s : State) (i : Nat) : (s.dropReq i).nextId = s.nextId := rfl
@[simp] theorem State.dropReq_free (s : State) (i : Nat) : (s.dropReq i).free = s.free := rfl
@[simp] theorem State.dropReq_cur (s : State) (i : Nat) : (s.dropReq i).cur = s.cur := rfl
@[simp] theorem State.dropReq_ilen (s : State) (i : Nat) : (s.dropReq i).ilen = s.ilen := rfl
@[simp] theorem State.dropReq_q (s : State) (i : Nat) : (s.dropReq i).q = s.q := rfl
@[simp] theorem State.dropReq_arg (s : State) (i : Nat) : (s.dropReq i).arg = s.arg := rfl

/-! ### modTid -/

@[simp] theorem State.modTid_mem (s : State) (i : Nat) (f : Thread → Thread) : (s.modTid i f).mem = s.mem := rfl
@[simp] theorem State.modTid_groups (s : State) (i : Nat) (f : Thread → Thread) : (s.modTid i f).groups = s.groups := rfl
@[simp] theorem State.modTid_dies (s : State) (i : Nat) (f : Thread → Thread) : (s.modTid i f).dies = s.dies := rfl
@[simp] theorem State.modTid_io (s : State) (i : Nat) (f : Thread → Thread) : (s.modTid i f).io = s.io := rfl
@[simp] theorem State.modTid_reqs (s : State) (i : Nat) (f : Thread → Thread) : (s.modTid i f).reqs = s.reqs := rfl
@[simp] theorem State.modTid_acks (s : State) (i : Nat) (f : Thread → Thread) : (s.modTid i f).acks = s.acks := rfl
@[simp] theorem State.modTid_flushes (s : State) (i : Nat) (f : Thread → Thread) : (s.modTid i f).flushes = s.flushes := rfl
@[simp] theorem State.modTid_owed (s : State) (i : Nat) (f : Thread → Thread) : (s.modTid i f).owed = s.owed := rfl
@[simp] theorem State.modTid_agenda (s : State) (i : Nat) (f : Thread → Thread) : (s.modTid i f).agenda = s.agenda := rfl
@[simp] theorem State.modTid_timers (s : State) (i : Nat) (f : Thread → Thread) : (s.modTid i f).timers = s.timers := rfl
@[simp] theorem State.modTid_cycle (s : State) (i : Nat) (f : Thread → Thread) : (s.modTid i f).cycle = s.cycle := rfl
@[simp] theorem State.modTid_rtime (s : State) (i : Nat) (f : Thread → Thread) : (s.modTid i f).rtime = s.rtime := rfl
@[simp] theorem State.modTid_frac (s : State) (i : Nat) (f : Thread → Thread) : (s.modTid i f).frac = s.frac := rfl
@[simp] theorem State.modTid_alarms (s : State) (i : Nat) (f : Thread → Thread) : (s.modTid i f).alarms = s.alarms := rfl
@[simp] theorem State.modTid_fabric (s : State) (i : Nat) (f : Thread → Thread) : (s.modTid i f).fabric = s.fabric := rfl
@[simp] theorem State.modTid_outs (s : State) (i : Nat) (f : Thread → Thread) : (s.modTid i f).outs = s.outs := rfl
@[simp] theorem State.modTid_slew (s : State) (i : Nat) (f : Thread → Thread) : (s.modTid i f).slew = s.slew := rfl
@[simp] theorem State.modTid_cursor (s : State) (i : Nat) (f : Thread → Thread) : (s.modTid i f).cursor = s.cursor := rfl
@[simp] theorem State.modTid_nextId (s : State) (i : Nat) (f : Thread → Thread) : (s.modTid i f).nextId = s.nextId := rfl
@[simp] theorem State.modTid_free (s : State) (i : Nat) (f : Thread → Thread) : (s.modTid i f).free = s.free := rfl
@[simp] theorem State.modTid_cur (s : State) (i : Nat) (f : Thread → Thread) : (s.modTid i f).cur = s.cur := rfl
@[simp] theorem State.modTid_ilen (s : State) (i : Nat) (f : Thread → Thread) : (s.modTid i f).ilen = s.ilen := rfl
@[simp] theorem State.modTid_q (s : State) (i : Nat) (f : Thread → Thread) : (s.modTid i f).q = s.q := rfl
@[simp] theorem State.modTid_arg (s : State) (i : Nat) (f : Thread → Thread) : (s.modTid i f).arg = s.arg := rfl

/-! ### push -/

@[simp] theorem State.push_mem (s : State) (i : Instr) (a : Arg) : (s.push i a).mem = s.mem := rfl
@[simp] theorem State.push_threads (s : State) (i : Instr) (a : Arg) : (s.push i a).threads = s.threads := rfl
@[simp] theorem State.push_cores (s : State) (i : Instr) (a : Arg) : (s.push i a).cores = s.cores := rfl
@[simp] theorem State.push_clusters (s : State) (i : Instr) (a : Arg) : (s.push i a).clusters = s.clusters := rfl
@[simp] theorem State.push_groups (s : State) (i : Instr) (a : Arg) : (s.push i a).groups = s.groups := rfl
@[simp] theorem State.push_dies (s : State) (i : Instr) (a : Arg) : (s.push i a).dies = s.dies := rfl
@[simp] theorem State.push_parts (s : State) (i : Instr) (a : Arg) : (s.push i a).parts = s.parts := rfl
@[simp] theorem State.push_io (s : State) (i : Instr) (a : Arg) : (s.push i a).io = s.io := rfl
@[simp] theorem State.push_reqs (s : State) (i : Instr) (a : Arg) : (s.push i a).reqs = s.reqs := rfl
@[simp] theorem State.push_acks (s : State) (i : Instr) (a : Arg) : (s.push i a).acks = s.acks := rfl
@[simp] theorem State.push_flushes (s : State) (i : Instr) (a : Arg) : (s.push i a).flushes = s.flushes := rfl
@[simp] theorem State.push_owed (s : State) (i : Instr) (a : Arg) : (s.push i a).owed = s.owed := rfl
@[simp] theorem State.push_timers (s : State) (i : Instr) (a : Arg) : (s.push i a).timers = s.timers := rfl
@[simp] theorem State.push_cycle (s : State) (i : Instr) (a : Arg) : (s.push i a).cycle = s.cycle := rfl
@[simp] theorem State.push_rtime (s : State) (i : Instr) (a : Arg) : (s.push i a).rtime = s.rtime := rfl
@[simp] theorem State.push_frac (s : State) (i : Instr) (a : Arg) : (s.push i a).frac = s.frac := rfl
@[simp] theorem State.push_alarms (s : State) (i : Instr) (a : Arg) : (s.push i a).alarms = s.alarms := rfl
@[simp] theorem State.push_fabric (s : State) (i : Instr) (a : Arg) : (s.push i a).fabric = s.fabric := rfl
@[simp] theorem State.push_outs (s : State) (i : Instr) (a : Arg) : (s.push i a).outs = s.outs := rfl
@[simp] theorem State.push_slew (s : State) (i : Instr) (a : Arg) : (s.push i a).slew = s.slew := rfl
@[simp] theorem State.push_cursor (s : State) (i : Instr) (a : Arg) : (s.push i a).cursor = s.cursor := rfl
@[simp] theorem State.push_nextId (s : State) (i : Instr) (a : Arg) : (s.push i a).nextId = s.nextId := rfl
@[simp] theorem State.push_free (s : State) (i : Instr) (a : Arg) : (s.push i a).free = s.free := rfl
@[simp] theorem State.push_cur (s : State) (i : Instr) (a : Arg) : (s.push i a).cur = s.cur := rfl
@[simp] theorem State.push_ilen (s : State) (i : Instr) (a : Arg) : (s.push i a).ilen = s.ilen := rfl
@[simp] theorem State.push_q (s : State) (i : Instr) (a : Arg) : (s.push i a).q = s.q := rfl
@[simp] theorem State.push_arg (s : State) (i : Instr) (a : Arg) : (s.push i a).arg = s.arg := rfl

/-! ### at -/

@[simp] theorem State.at_mem (s : State) (t : Nat) (i : Instr) (a : Arg) : (s.at t i a).mem = s.mem := rfl
@[simp] theorem State.at_threads (s : State) (t : Nat) (i : Instr) (a : Arg) : (s.at t i a).threads = s.threads := rfl
@[simp] theorem State.at_cores (s : State) (t : Nat) (i : Instr) (a : Arg) : (s.at t i a).cores = s.cores := rfl
@[simp] theorem State.at_clusters (s : State) (t : Nat) (i : Instr) (a : Arg) : (s.at t i a).clusters = s.clusters := rfl
@[simp] theorem State.at_groups (s : State) (t : Nat) (i : Instr) (a : Arg) : (s.at t i a).groups = s.groups := rfl
@[simp] theorem State.at_dies (s : State) (t : Nat) (i : Instr) (a : Arg) : (s.at t i a).dies = s.dies := rfl
@[simp] theorem State.at_parts (s : State) (t : Nat) (i : Instr) (a : Arg) : (s.at t i a).parts = s.parts := rfl
@[simp] theorem State.at_io (s : State) (t : Nat) (i : Instr) (a : Arg) : (s.at t i a).io = s.io := rfl
@[simp] theorem State.at_reqs (s : State) (t : Nat) (i : Instr) (a : Arg) : (s.at t i a).reqs = s.reqs := rfl
@[simp] theorem State.at_acks (s : State) (t : Nat) (i : Instr) (a : Arg) : (s.at t i a).acks = s.acks := rfl
@[simp] theorem State.at_flushes (s : State) (t : Nat) (i : Instr) (a : Arg) : (s.at t i a).flushes = s.flushes := rfl
@[simp] theorem State.at_owed (s : State) (t : Nat) (i : Instr) (a : Arg) : (s.at t i a).owed = s.owed := rfl
@[simp] theorem State.at_agenda (s : State) (t : Nat) (i : Instr) (a : Arg) : (s.at t i a).agenda = s.agenda := rfl
@[simp] theorem State.at_cycle (s : State) (t : Nat) (i : Instr) (a : Arg) : (s.at t i a).cycle = s.cycle := rfl
@[simp] theorem State.at_rtime (s : State) (t : Nat) (i : Instr) (a : Arg) : (s.at t i a).rtime = s.rtime := rfl
@[simp] theorem State.at_frac (s : State) (t : Nat) (i : Instr) (a : Arg) : (s.at t i a).frac = s.frac := rfl
@[simp] theorem State.at_alarms (s : State) (t : Nat) (i : Instr) (a : Arg) : (s.at t i a).alarms = s.alarms := rfl
@[simp] theorem State.at_fabric (s : State) (t : Nat) (i : Instr) (a : Arg) : (s.at t i a).fabric = s.fabric := rfl
@[simp] theorem State.at_outs (s : State) (t : Nat) (i : Instr) (a : Arg) : (s.at t i a).outs = s.outs := rfl
@[simp] theorem State.at_slew (s : State) (t : Nat) (i : Instr) (a : Arg) : (s.at t i a).slew = s.slew := rfl
@[simp] theorem State.at_cursor (s : State) (t : Nat) (i : Instr) (a : Arg) : (s.at t i a).cursor = s.cursor := rfl
@[simp] theorem State.at_nextId (s : State) (t : Nat) (i : Instr) (a : Arg) : (s.at t i a).nextId = s.nextId := rfl
@[simp] theorem State.at_free (s : State) (t : Nat) (i : Instr) (a : Arg) : (s.at t i a).free = s.free := rfl
@[simp] theorem State.at_cur (s : State) (t : Nat) (i : Instr) (a : Arg) : (s.at t i a).cur = s.cur := rfl
@[simp] theorem State.at_ilen (s : State) (t : Nat) (i : Instr) (a : Arg) : (s.at t i a).ilen = s.ilen := rfl
@[simp] theorem State.at_q (s : State) (t : Nat) (i : Instr) (a : Arg) : (s.at t i a).q = s.q := rfl
@[simp] theorem State.at_arg (s : State) (t : Nat) (i : Instr) (a : Arg) : (s.at t i a).arg = s.arg := rfl

/-! ### retry -/

@[simp] theorem State.retry_mem (s : State) (i : Instr) (a : Arg) : (s.retry i a).mem = s.mem := rfl
@[simp] theorem State.retry_threads (s : State) (i : Instr) (a : Arg) : (s.retry i a).threads = s.threads := rfl
@[simp] theorem State.retry_cores (s : State) (i : Instr) (a : Arg) : (s.retry i a).cores = s.cores := rfl
@[simp] theorem State.retry_clusters (s : State) (i : Instr) (a : Arg) : (s.retry i a).clusters = s.clusters := rfl
@[simp] theorem State.retry_groups (s : State) (i : Instr) (a : Arg) : (s.retry i a).groups = s.groups := rfl
@[simp] theorem State.retry_dies (s : State) (i : Instr) (a : Arg) : (s.retry i a).dies = s.dies := rfl
@[simp] theorem State.retry_parts (s : State) (i : Instr) (a : Arg) : (s.retry i a).parts = s.parts := rfl
@[simp] theorem State.retry_io (s : State) (i : Instr) (a : Arg) : (s.retry i a).io = s.io := rfl
@[simp] theorem State.retry_reqs (s : State) (i : Instr) (a : Arg) : (s.retry i a).reqs = s.reqs := rfl
@[simp] theorem State.retry_acks (s : State) (i : Instr) (a : Arg) : (s.retry i a).acks = s.acks := rfl
@[simp] theorem State.retry_flushes (s : State) (i : Instr) (a : Arg) : (s.retry i a).flushes = s.flushes := rfl
@[simp] theorem State.retry_owed (s : State) (i : Instr) (a : Arg) : (s.retry i a).owed = s.owed := rfl
@[simp] theorem State.retry_agenda (s : State) (i : Instr) (a : Arg) : (s.retry i a).agenda = s.agenda := rfl
@[simp] theorem State.retry_cycle (s : State) (i : Instr) (a : Arg) : (s.retry i a).cycle = s.cycle := rfl
@[simp] theorem State.retry_rtime (s : State) (i : Instr) (a : Arg) : (s.retry i a).rtime = s.rtime := rfl
@[simp] theorem State.retry_frac (s : State) (i : Instr) (a : Arg) : (s.retry i a).frac = s.frac := rfl
@[simp] theorem State.retry_alarms (s : State) (i : Instr) (a : Arg) : (s.retry i a).alarms = s.alarms := rfl
@[simp] theorem State.retry_fabric (s : State) (i : Instr) (a : Arg) : (s.retry i a).fabric = s.fabric := rfl
@[simp] theorem State.retry_outs (s : State) (i : Instr) (a : Arg) : (s.retry i a).outs = s.outs := rfl
@[simp] theorem State.retry_slew (s : State) (i : Instr) (a : Arg) : (s.retry i a).slew = s.slew := rfl
@[simp] theorem State.retry_cursor (s : State) (i : Instr) (a : Arg) : (s.retry i a).cursor = s.cursor := rfl
@[simp] theorem State.retry_nextId (s : State) (i : Instr) (a : Arg) : (s.retry i a).nextId = s.nextId := rfl
@[simp] theorem State.retry_free (s : State) (i : Instr) (a : Arg) : (s.retry i a).free = s.free := rfl
@[simp] theorem State.retry_cur (s : State) (i : Instr) (a : Arg) : (s.retry i a).cur = s.cur := rfl
@[simp] theorem State.retry_ilen (s : State) (i : Instr) (a : Arg) : (s.retry i a).ilen = s.ilen := rfl
@[simp] theorem State.retry_q (s : State) (i : Instr) (a : Arg) : (s.retry i a).q = s.q := rfl
@[simp] theorem State.retry_arg (s : State) (i : Instr) (a : Arg) : (s.retry i a).arg = s.arg := rfl

/-! ### modT -/

@[simp] theorem State.modT_mem (s : State) (k : Key) (f : Thread → Thread) : (s.modT k f).mem = s.mem := by
  unfold State.modT; split <;> rfl
@[simp] theorem State.modT_cores (s : State) (k : Key) (f : Thread → Thread) : (s.modT k f).cores = s.cores := by
  unfold State.modT; split <;> rfl
@[simp] theorem State.modT_clusters (s : State) (k : Key) (f : Thread → Thread) : (s.modT k f).clusters = s.clusters := by
  unfold State.modT; split <;> rfl
@[simp] theorem State.modT_groups (s : State) (k : Key) (f : Thread → Thread) : (s.modT k f).groups = s.groups := by
  unfold State.modT; split <;> rfl
@[simp] theorem State.modT_dies (s : State) (k : Key) (f : Thread → Thread) : (s.modT k f).dies = s.dies := by
  unfold State.modT; split <;> rfl
@[simp] theorem State.modT_parts (s : State) (k : Key) (f : Thread → Thread) : (s.modT k f).parts = s.parts := by
  unfold State.modT; split <;> rfl
@[simp] theorem State.modT_io (s : State) (k : Key) (f : Thread → Thread) : (s.modT k f).io = s.io := by
  unfold State.modT; split <;> rfl
@[simp] theorem State.modT_reqs (s : State) (k : Key) (f : Thread → Thread) : (s.modT k f).reqs = s.reqs := by
  unfold State.modT; split <;> rfl
@[simp] theorem State.modT_acks (s : State) (k : Key) (f : Thread → Thread) : (s.modT k f).acks = s.acks := by
  unfold State.modT; split <;> rfl
@[simp] theorem State.modT_flushes (s : State) (k : Key) (f : Thread → Thread) : (s.modT k f).flushes = s.flushes := by
  unfold State.modT; split <;> rfl
@[simp] theorem State.modT_owed (s : State) (k : Key) (f : Thread → Thread) : (s.modT k f).owed = s.owed := by
  unfold State.modT; split <;> rfl
@[simp] theorem State.modT_agenda (s : State) (k : Key) (f : Thread → Thread) : (s.modT k f).agenda = s.agenda := by
  unfold State.modT; split <;> rfl
@[simp] theorem State.modT_timers (s : State) (k : Key) (f : Thread → Thread) : (s.modT k f).timers = s.timers := by
  unfold State.modT; split <;> rfl
@[simp] theorem State.modT_cycle (s : State) (k : Key) (f : Thread → Thread) : (s.modT k f).cycle = s.cycle := by
  unfold State.modT; split <;> rfl
@[simp] theorem State.modT_rtime (s : State) (k : Key) (f : Thread → Thread) : (s.modT k f).rtime = s.rtime := by
  unfold State.modT; split <;> rfl
@[simp] theorem State.modT_frac (s : State) (k : Key) (f : Thread → Thread) : (s.modT k f).frac = s.frac := by
  unfold State.modT; split <;> rfl
@[simp] theorem State.modT_alarms (s : State) (k : Key) (f : Thread → Thread) : (s.modT k f).alarms = s.alarms := by
  unfold State.modT; split <;> rfl
@[simp] theorem State.modT_fabric (s : State) (k : Key) (f : Thread → Thread) : (s.modT k f).fabric = s.fabric := by
  unfold State.modT; split <;> rfl
@[simp] theorem State.modT_outs (s : State) (k : Key) (f : Thread → Thread) : (s.modT k f).outs = s.outs := by
  unfold State.modT; split <;> rfl
@[simp] theorem State.modT_slew (s : State) (k : Key) (f : Thread → Thread) : (s.modT k f).slew = s.slew := by
  unfold State.modT; split <;> rfl
@[simp] theorem State.modT_cursor (s : State) (k : Key) (f : Thread → Thread) : (s.modT k f).cursor = s.cursor := by
  unfold State.modT; split <;> rfl
@[simp] theorem State.modT_nextId (s : State) (k : Key) (f : Thread → Thread) : (s.modT k f).nextId = s.nextId := by
  unfold State.modT; split <;> rfl
@[simp] theorem State.modT_free (s : State) (k : Key) (f : Thread → Thread) : (s.modT k f).free = s.free := by
  unfold State.modT; split <;> rfl
@[simp] theorem State.modT_cur (s : State) (k : Key) (f : Thread → Thread) : (s.modT k f).cur = s.cur := by
  unfold State.modT; split <;> rfl
@[simp] theorem State.modT_ilen (s : State) (k : Key) (f : Thread → Thread) : (s.modT k f).ilen = s.ilen := by
  unfold State.modT; split <;> rfl
@[simp] theorem State.modT_q (s : State) (k : Key) (f : Thread → Thread) : (s.modT k f).q = s.q := by
  unfold State.modT; split <;> rfl
@[simp] theorem State.modT_arg (s : State) (k : Key) (f : Thread → Thread) : (s.modT k f).arg = s.arg := by
  unfold State.modT; split <;> rfl

/-! ### pushOnce -/

@[simp] theorem State.pushOnce_mem (s : State) (i : Instr) (a : Arg) : (s.pushOnce i a).mem = s.mem := by
  unfold State.pushOnce; split <;> rfl
@[simp] theorem State.pushOnce_threads (s : State) (i : Instr) (a : Arg) : (s.pushOnce i a).threads = s.threads := by
  unfold State.pushOnce; split <;> rfl
@[simp] theorem State.pushOnce_cores (s : State) (i : Instr) (a : Arg) : (s.pushOnce i a).cores = s.cores := by
  unfold State.pushOnce; split <;> rfl
@[simp] theorem State.pushOnce_clusters (s : State) (i : Instr) (a : Arg) : (s.pushOnce i a).clusters = s.clusters := by
  unfold State.pushOnce; split <;> rfl
@[simp] theorem State.pushOnce_groups (s : State) (i : Instr) (a : Arg) : (s.pushOnce i a).groups = s.groups := by
  unfold State.pushOnce; split <;> rfl
@[simp] theorem State.pushOnce_dies (s : State) (i : Instr) (a : Arg) : (s.pushOnce i a).dies = s.dies := by
  unfold State.pushOnce; split <;> rfl
@[simp] theorem State.pushOnce_parts (s : State) (i : Instr) (a : Arg) : (s.pushOnce i a).parts = s.parts := by
  unfold State.pushOnce; split <;> rfl
@[simp] theorem State.pushOnce_io (s : State) (i : Instr) (a : Arg) : (s.pushOnce i a).io = s.io := by
  unfold State.pushOnce; split <;> rfl
@[simp] theorem State.pushOnce_reqs (s : State) (i : Instr) (a : Arg) : (s.pushOnce i a).reqs = s.reqs := by
  unfold State.pushOnce; split <;> rfl
@[simp] theorem State.pushOnce_acks (s : State) (i : Instr) (a : Arg) : (s.pushOnce i a).acks = s.acks := by
  unfold State.pushOnce; split <;> rfl
@[simp] theorem State.pushOnce_flushes (s : State) (i : Instr) (a : Arg) : (s.pushOnce i a).flushes = s.flushes := by
  unfold State.pushOnce; split <;> rfl
@[simp] theorem State.pushOnce_owed (s : State) (i : Instr) (a : Arg) : (s.pushOnce i a).owed = s.owed := by
  unfold State.pushOnce; split <;> rfl
@[simp] theorem State.pushOnce_timers (s : State) (i : Instr) (a : Arg) : (s.pushOnce i a).timers = s.timers := by
  unfold State.pushOnce; split <;> rfl
@[simp] theorem State.pushOnce_cycle (s : State) (i : Instr) (a : Arg) : (s.pushOnce i a).cycle = s.cycle := by
  unfold State.pushOnce; split <;> rfl
@[simp] theorem State.pushOnce_rtime (s : State) (i : Instr) (a : Arg) : (s.pushOnce i a).rtime = s.rtime := by
  unfold State.pushOnce; split <;> rfl
@[simp] theorem State.pushOnce_frac (s : State) (i : Instr) (a : Arg) : (s.pushOnce i a).frac = s.frac := by
  unfold State.pushOnce; split <;> rfl
@[simp] theorem State.pushOnce_alarms (s : State) (i : Instr) (a : Arg) : (s.pushOnce i a).alarms = s.alarms := by
  unfold State.pushOnce; split <;> rfl
@[simp] theorem State.pushOnce_fabric (s : State) (i : Instr) (a : Arg) : (s.pushOnce i a).fabric = s.fabric := by
  unfold State.pushOnce; split <;> rfl
@[simp] theorem State.pushOnce_outs (s : State) (i : Instr) (a : Arg) : (s.pushOnce i a).outs = s.outs := by
  unfold State.pushOnce; split <;> rfl
@[simp] theorem State.pushOnce_slew (s : State) (i : Instr) (a : Arg) : (s.pushOnce i a).slew = s.slew := by
  unfold State.pushOnce; split <;> rfl
@[simp] theorem State.pushOnce_cursor (s : State) (i : Instr) (a : Arg) : (s.pushOnce i a).cursor = s.cursor := by
  unfold State.pushOnce; split <;> rfl
@[simp] theorem State.pushOnce_nextId (s : State) (i : Instr) (a : Arg) : (s.pushOnce i a).nextId = s.nextId := by
  unfold State.pushOnce; split <;> rfl
@[simp] theorem State.pushOnce_free (s : State) (i : Instr) (a : Arg) : (s.pushOnce i a).free = s.free := by
  unfold State.pushOnce; split <;> rfl
@[simp] theorem State.pushOnce_cur (s : State) (i : Instr) (a : Arg) : (s.pushOnce i a).cur = s.cur := by
  unfold State.pushOnce; split <;> rfl
@[simp] theorem State.pushOnce_ilen (s : State) (i : Instr) (a : Arg) : (s.pushOnce i a).ilen = s.ilen := by
  unfold State.pushOnce; split <;> rfl
@[simp] theorem State.pushOnce_q (s : State) (i : Instr) (a : Arg) : (s.pushOnce i a).q = s.q := by
  unfold State.pushOnce; split <;> rfl
@[simp] theorem State.pushOnce_arg (s : State) (i : Instr) (a : Arg) : (s.pushOnce i a).arg = s.arg := by
  unfold State.pushOnce; split <;> rfl

/-! ### modClusterFor -/

@[simp] theorem State.modClusterFor_mem (s : State) (p : Nat) (c : Key) (f : Cluster → Cluster) : (s.modClusterFor p c f).mem = s.mem := by
  unfold State.modClusterFor; split <;> rfl
@[simp] theorem State.modClusterFor_threads (s : State) (p : Nat) (c : Key) (f : Cluster → Cluster) : (s.modClusterFor p c f).threads = s.threads := by
  unfold State.modClusterFor; split <;> rfl
@[simp] theorem State.modClusterFor_cores (s : State) (p : Nat) (c : Key) (f : Cluster → Cluster) : (s.modClusterFor p c f).cores = s.cores := by
  unfold State.modClusterFor; split <;> rfl
@[simp] theorem State.modClusterFor_groups (s : State) (p : Nat) (c : Key) (f : Cluster → Cluster) : (s.modClusterFor p c f).groups = s.groups := by
  unfold State.modClusterFor; split <;> rfl
@[simp] theorem State.modClusterFor_dies (s : State) (p : Nat) (c : Key) (f : Cluster → Cluster) : (s.modClusterFor p c f).dies = s.dies := by
  unfold State.modClusterFor; split <;> rfl
@[simp] theorem State.modClusterFor_io (s : State) (p : Nat) (c : Key) (f : Cluster → Cluster) : (s.modClusterFor p c f).io = s.io := by
  unfold State.modClusterFor; split <;> rfl
@[simp] theorem State.modClusterFor_reqs (s : State) (p : Nat) (c : Key) (f : Cluster → Cluster) : (s.modClusterFor p c f).reqs = s.reqs := by
  unfold State.modClusterFor; split <;> rfl
@[simp] theorem State.modClusterFor_acks (s : State) (p : Nat) (c : Key) (f : Cluster → Cluster) : (s.modClusterFor p c f).acks = s.acks := by
  unfold State.modClusterFor; split <;> rfl
@[simp] theorem State.modClusterFor_flushes (s : State) (p : Nat) (c : Key) (f : Cluster → Cluster) : (s.modClusterFor p c f).flushes = s.flushes := by
  unfold State.modClusterFor; split <;> rfl
@[simp] theorem State.modClusterFor_owed (s : State) (p : Nat) (c : Key) (f : Cluster → Cluster) : (s.modClusterFor p c f).owed = s.owed := by
  unfold State.modClusterFor; split <;> rfl
@[simp] theorem State.modClusterFor_agenda (s : State) (p : Nat) (c : Key) (f : Cluster → Cluster) : (s.modClusterFor p c f).agenda = s.agenda := by
  unfold State.modClusterFor; split <;> rfl
@[simp] theorem State.modClusterFor_timers (s : State) (p : Nat) (c : Key) (f : Cluster → Cluster) : (s.modClusterFor p c f).timers = s.timers := by
  unfold State.modClusterFor; split <;> rfl
@[simp] theorem State.modClusterFor_cycle (s : State) (p : Nat) (c : Key) (f : Cluster → Cluster) : (s.modClusterFor p c f).cycle = s.cycle := by
  unfold State.modClusterFor; split <;> rfl
@[simp] theorem State.modClusterFor_rtime (s : State) (p : Nat) (c : Key) (f : Cluster → Cluster) : (s.modClusterFor p c f).rtime = s.rtime := by
  unfold State.modClusterFor; split <;> rfl
@[simp] theorem State.modClusterFor_frac (s : State) (p : Nat) (c : Key) (f : Cluster → Cluster) : (s.modClusterFor p c f).frac = s.frac := by
  unfold State.modClusterFor; split <;> rfl
@[simp] theorem State.modClusterFor_alarms (s : State) (p : Nat) (c : Key) (f : Cluster → Cluster) : (s.modClusterFor p c f).alarms = s.alarms := by
  unfold State.modClusterFor; split <;> rfl
@[simp] theorem State.modClusterFor_fabric (s : State) (p : Nat) (c : Key) (f : Cluster → Cluster) : (s.modClusterFor p c f).fabric = s.fabric := by
  unfold State.modClusterFor; split <;> rfl
@[simp] theorem State.modClusterFor_outs (s : State) (p : Nat) (c : Key) (f : Cluster → Cluster) : (s.modClusterFor p c f).outs = s.outs := by
  unfold State.modClusterFor; split <;> rfl
@[simp] theorem State.modClusterFor_slew (s : State) (p : Nat) (c : Key) (f : Cluster → Cluster) : (s.modClusterFor p c f).slew = s.slew := by
  unfold State.modClusterFor; split <;> rfl
@[simp] theorem State.modClusterFor_cursor (s : State) (p : Nat) (c : Key) (f : Cluster → Cluster) : (s.modClusterFor p c f).cursor = s.cursor := by
  unfold State.modClusterFor; split <;> rfl
@[simp] theorem State.modClusterFor_nextId (s : State) (p : Nat) (c : Key) (f : Cluster → Cluster) : (s.modClusterFor p c f).nextId = s.nextId := by
  unfold State.modClusterFor; split <;> rfl
@[simp] theorem State.modClusterFor_free (s : State) (p : Nat) (c : Key) (f : Cluster → Cluster) : (s.modClusterFor p c f).free = s.free := by
  unfold State.modClusterFor; split <;> rfl
@[simp] theorem State.modClusterFor_cur (s : State) (p : Nat) (c : Key) (f : Cluster → Cluster) : (s.modClusterFor p c f).cur = s.cur := by
  unfold State.modClusterFor; split <;> rfl
@[simp] theorem State.modClusterFor_ilen (s : State) (p : Nat) (c : Key) (f : Cluster → Cluster) : (s.modClusterFor p c f).ilen = s.ilen := by
  unfold State.modClusterFor; split <;> rfl
@[simp] theorem State.modClusterFor_q (s : State) (p : Nat) (c : Key) (f : Cluster → Cluster) : (s.modClusterFor p c f).q = s.q := by
  unfold State.modClusterFor; split <;> rfl
@[simp] theorem State.modClusterFor_arg (s : State) (p : Nat) (c : Key) (f : Cluster → Cluster) : (s.modClusterFor p c f).arg = s.arg := by
  unfold State.modClusterFor; split <;> rfl

/-! ### pushFor -/

@[simp] theorem State.pushFor_mem (s : State) (p : Nat) (g : Key) (i : Instr) (a : Arg) : (s.pushFor p g i a).mem = s.mem := by
  unfold State.pushFor; split <;> rfl
@[simp] theorem State.pushFor_threads (s : State) (p : Nat) (g : Key) (i : Instr) (a : Arg) : (s.pushFor p g i a).threads = s.threads := by
  unfold State.pushFor; split <;> rfl
@[simp] theorem State.pushFor_cores (s : State) (p : Nat) (g : Key) (i : Instr) (a : Arg) : (s.pushFor p g i a).cores = s.cores := by
  unfold State.pushFor; split <;> rfl
@[simp] theorem State.pushFor_clusters (s : State) (p : Nat) (g : Key) (i : Instr) (a : Arg) : (s.pushFor p g i a).clusters = s.clusters := by
  unfold State.pushFor; split <;> rfl
@[simp] theorem State.pushFor_groups (s : State) (p : Nat) (g : Key) (i : Instr) (a : Arg) : (s.pushFor p g i a).groups = s.groups := by
  unfold State.pushFor; split <;> rfl
@[simp] theorem State.pushFor_dies (s : State) (p : Nat) (g : Key) (i : Instr) (a : Arg) : (s.pushFor p g i a).dies = s.dies := by
  unfold State.pushFor; split <;> rfl
@[simp] theorem State.pushFor_io (s : State) (p : Nat) (g : Key) (i : Instr) (a : Arg) : (s.pushFor p g i a).io = s.io := by
  unfold State.pushFor; split <;> rfl
@[simp] theorem State.pushFor_reqs (s : State) (p : Nat) (g : Key) (i : Instr) (a : Arg) : (s.pushFor p g i a).reqs = s.reqs := by
  unfold State.pushFor; split <;> rfl
@[simp] theorem State.pushFor_acks (s : State) (p : Nat) (g : Key) (i : Instr) (a : Arg) : (s.pushFor p g i a).acks = s.acks := by
  unfold State.pushFor; split <;> rfl
@[simp] theorem State.pushFor_flushes (s : State) (p : Nat) (g : Key) (i : Instr) (a : Arg) : (s.pushFor p g i a).flushes = s.flushes := by
  unfold State.pushFor; split <;> rfl
@[simp] theorem State.pushFor_owed (s : State) (p : Nat) (g : Key) (i : Instr) (a : Arg) : (s.pushFor p g i a).owed = s.owed := by
  unfold State.pushFor; split <;> rfl
@[simp] theorem State.pushFor_timers (s : State) (p : Nat) (g : Key) (i : Instr) (a : Arg) : (s.pushFor p g i a).timers = s.timers := by
  unfold State.pushFor; split <;> rfl
@[simp] theorem State.pushFor_cycle (s : State) (p : Nat) (g : Key) (i : Instr) (a : Arg) : (s.pushFor p g i a).cycle = s.cycle := by
  unfold State.pushFor; split <;> rfl
@[simp] theorem State.pushFor_rtime (s : State) (p : Nat) (g : Key) (i : Instr) (a : Arg) : (s.pushFor p g i a).rtime = s.rtime := by
  unfold State.pushFor; split <;> rfl
@[simp] theorem State.pushFor_frac (s : State) (p : Nat) (g : Key) (i : Instr) (a : Arg) : (s.pushFor p g i a).frac = s.frac := by
  unfold State.pushFor; split <;> rfl
@[simp] theorem State.pushFor_alarms (s : State) (p : Nat) (g : Key) (i : Instr) (a : Arg) : (s.pushFor p g i a).alarms = s.alarms := by
  unfold State.pushFor; split <;> rfl
@[simp] theorem State.pushFor_fabric (s : State) (p : Nat) (g : Key) (i : Instr) (a : Arg) : (s.pushFor p g i a).fabric = s.fabric := by
  unfold State.pushFor; split <;> rfl
@[simp] theorem State.pushFor_outs (s : State) (p : Nat) (g : Key) (i : Instr) (a : Arg) : (s.pushFor p g i a).outs = s.outs := by
  unfold State.pushFor; split <;> rfl
@[simp] theorem State.pushFor_slew (s : State) (p : Nat) (g : Key) (i : Instr) (a : Arg) : (s.pushFor p g i a).slew = s.slew := by
  unfold State.pushFor; split <;> rfl
@[simp] theorem State.pushFor_cursor (s : State) (p : Nat) (g : Key) (i : Instr) (a : Arg) : (s.pushFor p g i a).cursor = s.cursor := by
  unfold State.pushFor; split <;> rfl
@[simp] theorem State.pushFor_nextId (s : State) (p : Nat) (g : Key) (i : Instr) (a : Arg) : (s.pushFor p g i a).nextId = s.nextId := by
  unfold State.pushFor; split <;> rfl
@[simp] theorem State.pushFor_free (s : State) (p : Nat) (g : Key) (i : Instr) (a : Arg) : (s.pushFor p g i a).free = s.free := by
  unfold State.pushFor; split <;> rfl
@[simp] theorem State.pushFor_cur (s : State) (p : Nat) (g : Key) (i : Instr) (a : Arg) : (s.pushFor p g i a).cur = s.cur := by
  unfold State.pushFor; split <;> rfl
@[simp] theorem State.pushFor_ilen (s : State) (p : Nat) (g : Key) (i : Instr) (a : Arg) : (s.pushFor p g i a).ilen = s.ilen := by
  unfold State.pushFor; split <;> rfl
@[simp] theorem State.pushFor_q (s : State) (p : Nat) (g : Key) (i : Instr) (a : Arg) : (s.pushFor p g i a).q = s.q := by
  unfold State.pushFor; split <;> rfl
@[simp] theorem State.pushFor_arg (s : State) (p : Nat) (g : Key) (i : Instr) (a : Arg) : (s.pushFor p g i a).arg = s.arg := by
  unfold State.pushFor; split <;> rfl

end Sys2Proof.Machine
end

