-- ==== Sys2Proof/Laws/Maps.lean ====
section
/-! SUPPORT. Sparse tables: what a table holds after an entry is set or taken away, and what this says of the places of the
state. -/

namespace Sys2Proof.Machine

@[simp] theorem mget_mput_self {α : Type} (m : Map α) (k : Nat) (v : α) : mget (mput m k v) k = some v := by
  induction m with
  | nil => simp [mput, mget]
  | cons e m ih =>
    obtain ⟨k', v'⟩ := e
    simp only [mput]
    split
    · simp [mget]
    · split
      · simp [mget]
      · rename_i h; simp [mget, h, ih]

theorem mget_mput_ne {α : Type} (m : Map α) {k j : Nat} (v : α) (h : j ≠ k) : mget (mput m k v) j = mget m j := by
  induction m with
  | nil => simp [mput, mget, Ne.symm h]
  | cons e m ih =>
    obtain ⟨k', v'⟩ := e
    simp only [mput]
    split
    · simp [mget, Ne.symm h]
    · split
      · rename_i h2; subst h2; simp [mget, Ne.symm h]
      · simp only [mget, ih]

theorem mget_mput {α : Type} (m : Map α) (k j : Nat) (v : α) :
    mget (mput m k v) j = if j = k then some v else mget m j := by
  split
  · rename_i h; subst h; simp
  · rename_i h; exact mget_mput_ne m v h

@[simp] theorem mget_mdel_self {α : Type} (m : Map α) (k : Nat) : mget (mdel m k) k = none := by
  induction m with
  | nil => rfl
  | cons e m ih =>
    obtain ⟨k', v'⟩ := e
    by_cases h : k' = k
    · subst h; simpa [mdel] using ih
    · have : mdel ((k', v') :: m) k = (k', v') :: mdel m k := by simp [mdel, h]
      rw [this]; simp [mget, h, ih]

theorem mget_mdel_ne {α : Type} (m : Map α) {k j : Nat} (h : j ≠ k) : mget (mdel m k) j = mget m j := by
  induction m with
  | nil => rfl
  | cons e m ih =>
    obtain ⟨k', v'⟩ := e
    by_cases hk : k' = k
    · subst hk
      have : mdel ((k', v') :: m) k' = mdel m k' := by simp [mdel]
      rw [this, ih]; simp [mget, Ne.symm h]
    · have : mdel ((k', v') :: m) k = (k', v') :: mdel m k := by simp [mdel, hk]
      rw [this]; simp [mget, ih]

@[simp] theorem mput_mput {α : Type} (m : Map α) (k : Nat) (v w : α) : mput (mput m k v) k w = mput m k w := by
  induction m with
  | nil => simp [mput]
  | cons e m ih =>
    obtain ⟨k', v'⟩ := e
    by_cases h : k < k'
    · simp [mput, h]
    · by_cases h2 : k' = k
      · subst h2; simp [mput]
      · simp [mput, h, h2, ih]

/-! ## Places of the state -/

@[simp] theorem State.core_modCore_self (s : State) (c : Key) (f : Core → Core) : (s.modCore c f).core c = f (s.core c) := by
  simp [State.core, State.modCore]

theorem State.core_modCore_ne (s : State) {c d : Key} (f : Core → Core) (h : d ≠ c) : (s.modCore c f).core d = s.core d := by
  simp [State.core, State.modCore, mget_mput_ne _ _ h]

@[simp] theorem State.cluster_modCluster_self (s : State) (c : Key) (f : Cluster → Cluster) :
    (s.modCluster c f).cluster c = f (s.cluster c) := by
  simp [State.cluster, State.modCluster]

theorem State.cluster_modCluster_ne (s : State) {c d : Key} (f : Cluster → Cluster) (h : d ≠ c) :
    (s.modCluster c f).cluster d = s.cluster d := by
  simp [State.cluster, State.modCluster, mget_mput_ne _ _ h]

@[simp] theorem State.group_modGroup_self (s : State) (g : Key) (f : Group → Group) : (s.modGroup g f).group g = f (s.group g) := by
  simp [State.group, State.modGroup]

theorem State.group_modGroup_ne (s : State) {g h : Key} (f : Group → Group) (e : h ≠ g) : (s.modGroup g f).group h = s.group h := by
  simp [State.group, State.modGroup, mget_mput_ne _ _ e]

@[simp] theorem State.die_modDie_self (s : State) (d : Nat) (f : Die → Die) : (s.modDie d f).die d = f (s.die d) := by
  simp [State.die, State.modDie]

theorem State.die_modDie_ne (s : State) {d e : Nat} (f : Die → Die) (h : e ≠ d) : (s.modDie d f).die e = s.die e := by
  simp [State.die, State.modDie, mget_mput_ne _ _ h]

@[simp] theorem State.partn_modPart_self (s : State) (p : Nat) (f : Partition → Partition) :
    (s.modPart p f).partn p = f (s.partn p) := by
  simp [State.partn, State.modPart]

theorem State.partn_modPart_ne (s : State) {p q : Nat} (f : Partition → Partition) (h : q ≠ p) :
    (s.modPart p f).partn q = s.partn q := by
  simp [State.partn, State.modPart, mget_mput_ne _ _ h]

@[simp] theorem State.thread_modT_self (s : State) (k : Key) (f : Thread → Thread) :
    (s.modT k f).thread k = (s.thread k).map f := by
  unfold State.modT
  split
  · rename_i h; simp [h]
  · rename_i t h; simp [State.thread] at h ⊢; simp [h]

theorem State.thread_modT_ne (s : State) {k j : Key} (f : Thread → Thread) (h : j ≠ k) :
    (s.modT k f).thread j = s.thread j := by
  unfold State.modT
  split
  · rfl
  · simp [State.thread, mget_mput_ne _ _ h]

/-- A slot's thread changed, where the slot holds one. -/
theorem State.modT_eq (s : State) {k : Key} {t : Thread} (f : Thread → Thread) (h : s.thread k = some t) :
    s.modT k f = { s with threads := mput s.threads k (f t) } := by
  simp [State.modT, h]

/-- Two changes of one slot's thread are one. -/
@[simp] theorem State.modT_modT (s : State) (k : Key) (f g : Thread → Thread) :
    (s.modT k f).modT k g = s.modT k (fun t => g (f t)) := by
  cases h : s.thread k with
  | none => simp [State.modT, h]
  | some t =>
    have h' : (s.modT k f).thread k = some (f t) := by simp [h]
    rw [State.modT_eq _ _ h', State.modT_eq _ _ h, State.modT_eq _ _ h]; simp

/-- A table whose entries are changed one by one. -/
theorem mget_map {α : Type} (f : α → α) (m : Map α) (k : Nat) : mget (m.map (fun e => (e.1, f e.2))) k = (mget m k).map f := by
  induction m with
  | nil => rfl
  | cons e m ih =>
    obtain ⟨k', v⟩ := e
    by_cases h : k' = k
    · simp [mget, h]
    · simpa [mget, h] using ih

/-- The named thread changed in its slot; every other slot's is as it was. -/
@[simp] theorem State.thread_modTid (s : State) (tid : Nat) (f : Thread → Thread) (k : Key) :
    (s.modTid tid f).thread k = (s.thread k).map (fun t => if t.tid = tid then f t else t) := by
  have h : threadsModTid s.threads tid f = s.threads.map (fun e => (e.1, (fun t => if t.tid = tid then f t else t) e.2)) := by
    unfold threadsModTid
    refine List.map_congr_left (fun e _ => ?_)
    by_cases he : e.2.tid = tid <;> simp [he]
  show mget (threadsModTid s.threads tid f) k = (mget s.threads k).map _
  rw [h]; exact mget_map (fun t => if t.tid = tid then f t else t) s.threads k

end Sys2Proof.Machine
end

