-- ==== Sys2Proof/Laws/Regs.lean ====
section
/-! SUPPORT. What an update of a thread leaves as it was, and what its registers hold after one (02_machine_state R22, R23). -/

namespace Sys2Proof.Machine

/-! ### modG -/

@[simp] theorem Thread.modG_tid (t : Thread) (n : Nat) (f : RegCell 64 → RegCell 64) : (t.modG n f).tid = t.tid := rfl
@[simp] theorem Thread.modG_p (t : Thread) (n : Nat) (f : RegCell 64 → RegCell 64) : (t.modG n f).p = t.p := rfl
@[simp] theorem Thread.modG_v (t : Thread) (n : Nat) (f : RegCell 64 → RegCell 64) : (t.modG n f).v = t.v := rfl
@[simp] theorem Thread.modG_pc (t : Thread) (n : Nat) (f : RegCell 64 → RegCell 64) : (t.modG n f).pc = t.pc := rfl
@[simp] theorem Thread.modG_fmode (t : Thread) (n : Nat) (f : RegCell 64 → RegCell 64) : (t.modG n f).fmode = t.fmode := rfl
@[simp] theorem Thread.modG_ths (t : Thread) (n : Nat) (f : RegCell 64 → RegCell 64) : (t.modG n f).ths = t.ths := rfl
@[simp] theorem Thread.modG_waitlim (t : Thread) (n : Nat) (f : RegCell 64 → RegCell 64) : (t.modG n f).waitlim = t.waitlim := rfl
@[simp] theorem Thread.modG_retrylim (t : Thread) (n : Nat) (f : RegCell 64 → RegCell 64) : (t.modG n f).retrylim = t.retrylim := rfl
@[simp] theorem Thread.modG_launchid (t : Thread) (n : Nat) (f : RegCell 64 → RegCell 64) : (t.modG n f).launchid = t.launchid := rfl
@[simp] theorem Thread.modG_graphid (t : Thread) (n : Nat) (f : RegCell 64 → RegCell 64) : (t.modG n f).graphid = t.graphid := rfl
@[simp] theorem Thread.modG_trapcause (t : Thread) (n : Nat) (f : RegCell 64 → RegCell 64) : (t.modG n f).trapcause = t.trapcause := rfl
@[simp] theorem Thread.modG_trappc (t : Thread) (n : Nat) (f : RegCell 64 → RegCell 64) : (t.modG n f).trappc = t.trappc := rfl
@[simp] theorem Thread.modG_trapaddr (t : Thread) (n : Nat) (f : RegCell 64 → RegCell 64) : (t.modG n f).trapaddr = t.trapaddr := rfl
@[simp] theorem Thread.modG_uivec (t : Thread) (n : Nat) (f : RegCell 64 → RegCell 64) : (t.modG n f).uivec = t.uivec := rfl
@[simp] theorem Thread.modG_qmap (t : Thread) (n : Nat) (f : RegCell 64 → RegCell 64) : (t.modG n f).qmap = t.qmap := rfl
@[simp] theorem Thread.modG_pmeta (t : Thread) (n : Nat) (f : RegCell 64 → RegCell 64) : (t.modG n f).pmeta = t.pmeta := rfl
@[simp] theorem Thread.modG_part (t : Thread) (n : Nat) (f : RegCell 64 → RegCell 64) : (t.modG n f).part = t.part := rfl
@[simp] theorem Thread.modG_domain (t : Thread) (n : Nat) (f : RegCell 64 → RegCell 64) : (t.modG n f).domain = t.domain := rfl
@[simp] theorem Thread.modG_k (t : Thread) (n : Nat) (f : RegCell 64 → RegCell 64) : (t.modG n f).k = t.k := rfl
@[simp] theorem Thread.modG_fifo (t : Thread) (n : Nat) (f : RegCell 64 → RegCell 64) : (t.modG n f).fifo = t.fifo := rfl
@[simp] theorem Thread.modG_shadow (t : Thread) (n : Nat) (f : RegCell 64 → RegCell 64) : (t.modG n f).shadow = t.shadow := rfl
@[simp] theorem Thread.modG_tgt (t : Thread) (n : Nat) (f : RegCell 64 → RegCell 64) : (t.modG n f).tgt = t.tgt := rfl
@[simp] theorem Thread.modG_watch (t : Thread) (n : Nat) (f : RegCell 64 → RegCell 64) : (t.modG n f).watch = t.watch := rfl
@[simp] theorem Thread.modG_lease (t : Thread) (n : Nat) (f : RegCell 64 → RegCell 64) : (t.modG n f).lease = t.lease := rfl
@[simp] theorem Thread.modG_leaseOwe (t : Thread) (n : Nat) (f : RegCell 64 → RegCell 64) : (t.modG n f).leaseOwe = t.leaseOwe := rfl
@[simp] theorem Thread.modG_q0 (t : Thread) (n : Nat) (f : RegCell 64 → RegCell 64) : (t.modG n f).q0 = t.q0 := rfl
@[simp] theorem Thread.modG_q1 (t : Thread) (n : Nat) (f : RegCell 64 → RegCell 64) : (t.modG n f).q1 = t.q1 := rfl
@[simp] theorem Thread.modG_q2 (t : Thread) (n : Nat) (f : RegCell 64 → RegCell 64) : (t.modG n f).q2 = t.q2 := rfl
@[simp] theorem Thread.modG_q2pos (t : Thread) (n : Nat) (f : RegCell 64 → RegCell 64) : (t.modG n f).q2pos = t.q2pos := rfl
@[simp] theorem Thread.modG_q3 (t : Thread) (n : Nat) (f : RegCell 64 → RegCell 64) : (t.modG n f).q3 = t.q3 := rfl
@[simp] theorem Thread.modG_copySeq (t : Thread) (n : Nat) (f : RegCell 64 → RegCell 64) : (t.modG n f).copySeq = t.copySeq := rfl
@[simp] theorem Thread.modG_plankSeq (t : Thread) (n : Nat) (f : RegCell 64 → RegCell 64) : (t.modG n f).plankSeq = t.plankSeq := rfl
@[simp] theorem Thread.modG_asyncTraps (t : Thread) (n : Nat) (f : RegCell 64 → RegCell 64) : (t.modG n f).asyncTraps = t.asyncTraps := rfl
@[simp] theorem Thread.modG_duty (t : Thread) (n : Nat) (f : RegCell 64 → RegCell 64) : (t.modG n f).duty = t.duty := rfl
@[simp] theorem Thread.modG_declined (t : Thread) (n : Nat) (f : RegCell 64 → RegCell 64) : (t.modG n f).declined = t.declined := rfl
@[simp] theorem Thread.modG_run (t : Thread) (n : Nat) (f : RegCell 64 → RegCell 64) : (t.modG n f).run = t.run := rfl
@[simp] theorem Thread.modG_pend (t : Thread) (n : Nat) (f : RegCell 64 → RegCell 64) : (t.modG n f).pend = t.pend := rfl
@[simp] theorem Thread.modG_leaving (t : Thread) (n : Nat) (f : RegCell 64 → RegCell 64) : (t.modG n f).leaving = t.leaving := rfl
@[simp] theorem Thread.modG_npc (t : Thread) (n : Nat) (f : RegCell 64 → RegCell 64) : (t.modG n f).npc = t.npc := rfl
@[simp] theorem Thread.modG_waitId (t : Thread) (n : Nat) (f : RegCell 64 → RegCell 64) : (t.modG n f).waitId = t.waitId := rfl
@[simp] theorem Thread.modG_readyAt (t : Thread) (n : Nat) (f : RegCell 64 → RegCell 64) : (t.modG n f).readyAt = t.readyAt := rfl
@[simp] theorem Thread.modG_lastIssue (t : Thread) (n : Nat) (f : RegCell 64 → RegCell 64) : (t.modG n f).lastIssue = t.lastIssue := rfl
@[simp] theorem Thread.modG_tries (t : Thread) (n : Nat) (f : RegCell 64 → RegCell 64) : (t.modG n f).tries = t.tries := rfl

/-! ### setG -/

@[simp] theorem Thread.setG_tid (t : Thread) (n : Nat) (x : DW) : (t.setG n x).tid = t.tid := rfl
@[simp] theorem Thread.setG_p (t : Thread) (n : Nat) (x : DW) : (t.setG n x).p = t.p := rfl
@[simp] theorem Thread.setG_v (t : Thread) (n : Nat) (x : DW) : (t.setG n x).v = t.v := rfl
@[simp] theorem Thread.setG_pc (t : Thread) (n : Nat) (x : DW) : (t.setG n x).pc = t.pc := rfl
@[simp] theorem Thread.setG_fmode (t : Thread) (n : Nat) (x : DW) : (t.setG n x).fmode = t.fmode := rfl
@[simp] theorem Thread.setG_ths (t : Thread) (n : Nat) (x : DW) : (t.setG n x).ths = t.ths := rfl
@[simp] theorem Thread.setG_waitlim (t : Thread) (n : Nat) (x : DW) : (t.setG n x).waitlim = t.waitlim := rfl
@[simp] theorem Thread.setG_retrylim (t : Thread) (n : Nat) (x : DW) : (t.setG n x).retrylim = t.retrylim := rfl
@[simp] theorem Thread.setG_launchid (t : Thread) (n : Nat) (x : DW) : (t.setG n x).launchid = t.launchid := rfl
@[simp] theorem Thread.setG_graphid (t : Thread) (n : Nat) (x : DW) : (t.setG n x).graphid = t.graphid := rfl
@[simp] theorem Thread.setG_trapcause (t : Thread) (n : Nat) (x : DW) : (t.setG n x).trapcause = t.trapcause := rfl
@[simp] theorem Thread.setG_trappc (t : Thread) (n : Nat) (x : DW) : (t.setG n x).trappc = t.trappc := rfl
@[simp] theorem Thread.setG_trapaddr (t : Thread) (n : Nat) (x : DW) : (t.setG n x).trapaddr = t.trapaddr := rfl
@[simp] theorem Thread.setG_uivec (t : Thread) (n : Nat) (x : DW) : (t.setG n x).uivec = t.uivec := rfl
@[simp] theorem Thread.setG_qmap (t : Thread) (n : Nat) (x : DW) : (t.setG n x).qmap = t.qmap := rfl
@[simp] theorem Thread.setG_pmeta (t : Thread) (n : Nat) (x : DW) : (t.setG n x).pmeta = t.pmeta := rfl
@[simp] theorem Thread.setG_part (t : Thread) (n : Nat) (x : DW) : (t.setG n x).part = t.part := rfl
@[simp] theorem Thread.setG_domain (t : Thread) (n : Nat) (x : DW) : (t.setG n x).domain = t.domain := rfl
@[simp] theorem Thread.setG_k (t : Thread) (n : Nat) (x : DW) : (t.setG n x).k = t.k := rfl
@[simp] theorem Thread.setG_fifo (t : Thread) (n : Nat) (x : DW) : (t.setG n x).fifo = t.fifo := rfl
@[simp] theorem Thread.setG_shadow (t : Thread) (n : Nat) (x : DW) : (t.setG n x).shadow = t.shadow := rfl
@[simp] theorem Thread.setG_tgt (t : Thread) (n : Nat) (x : DW) : (t.setG n x).tgt = t.tgt := rfl
@[simp] theorem Thread.setG_watch (t : Thread) (n : Nat) (x : DW) : (t.setG n x).watch = t.watch := rfl
@[simp] theorem Thread.setG_lease (t : Thread) (n : Nat) (x : DW) : (t.setG n x).lease = t.lease := rfl
@[simp] theorem Thread.setG_leaseOwe (t : Thread) (n : Nat) (x : DW) : (t.setG n x).leaseOwe = t.leaseOwe := rfl
@[simp] theorem Thread.setG_q0 (t : Thread) (n : Nat) (x : DW) : (t.setG n x).q0 = t.q0 := rfl
@[simp] theorem Thread.setG_q1 (t : Thread) (n : Nat) (x : DW) : (t.setG n x).q1 = t.q1 := rfl
@[simp] theorem Thread.setG_q2 (t : Thread) (n : Nat) (x : DW) : (t.setG n x).q2 = t.q2 := rfl
@[simp] theorem Thread.setG_q2pos (t : Thread) (n : Nat) (x : DW) : (t.setG n x).q2pos = t.q2pos := rfl
@[simp] theorem Thread.setG_q3 (t : Thread) (n : Nat) (x : DW) : (t.setG n x).q3 = t.q3 := rfl
@[simp] theorem Thread.setG_copySeq (t : Thread) (n : Nat) (x : DW) : (t.setG n x).copySeq = t.copySeq := rfl
@[simp] theorem Thread.setG_plankSeq (t : Thread) (n : Nat) (x : DW) : (t.setG n x).plankSeq = t.plankSeq := rfl
@[simp] theorem Thread.setG_asyncTraps (t : Thread) (n : Nat) (x : DW) : (t.setG n x).asyncTraps = t.asyncTraps := rfl
@[simp] theorem Thread.setG_duty (t : Thread) (n : Nat) (x : DW) : (t.setG n x).duty = t.duty := rfl
@[simp] theorem Thread.setG_declined (t : Thread) (n : Nat) (x : DW) : (t.setG n x).declined = t.declined := rfl
@[simp] theorem Thread.setG_run (t : Thread) (n : Nat) (x : DW) : (t.setG n x).run = t.run := rfl
@[simp] theorem Thread.setG_pend (t : Thread) (n : Nat) (x : DW) : (t.setG n x).pend = t.pend := rfl
@[simp] theorem Thread.setG_leaving (t : Thread) (n : Nat) (x : DW) : (t.setG n x).leaving = t.leaving := rfl
@[simp] theorem Thread.setG_npc (t : Thread) (n : Nat) (x : DW) : (t.setG n x).npc = t.npc := rfl
@[simp] theorem Thread.setG_waitId (t : Thread) (n : Nat) (x : DW) : (t.setG n x).waitId = t.waitId := rfl
@[simp] theorem Thread.setG_readyAt (t : Thread) (n : Nat) (x : DW) : (t.setG n x).readyAt = t.readyAt := rfl
@[simp] theorem Thread.setG_lastIssue (t : Thread) (n : Nat) (x : DW) : (t.setG n x).lastIssue = t.lastIssue := rfl
@[simp] theorem Thread.setG_tries (t : Thread) (n : Nat) (x : DW) : (t.setG n x).tries = t.tries := rfl

/-! ### modV -/

@[simp] theorem Thread.modV_tid (t : Thread) (n : Nat) (f : RegCell 512 → RegCell 512) : (t.modV n f).tid = t.tid := rfl
@[simp] theorem Thread.modV_g (t : Thread) (n : Nat) (f : RegCell 512 → RegCell 512) : (t.modV n f).g = t.g := rfl
@[simp] theorem Thread.modV_p (t : Thread) (n : Nat) (f : RegCell 512 → RegCell 512) : (t.modV n f).p = t.p := rfl
@[simp] theorem Thread.modV_pc (t : Thread) (n : Nat) (f : RegCell 512 → RegCell 512) : (t.modV n f).pc = t.pc := rfl
@[simp] theorem Thread.modV_fmode (t : Thread) (n : Nat) (f : RegCell 512 → RegCell 512) : (t.modV n f).fmode = t.fmode := rfl
@[simp] theorem Thread.modV_ths (t : Thread) (n : Nat) (f : RegCell 512 → RegCell 512) : (t.modV n f).ths = t.ths := rfl
@[simp] theorem Thread.modV_waitlim (t : Thread) (n : Nat) (f : RegCell 512 → RegCell 512) : (t.modV n f).waitlim = t.waitlim := rfl
@[simp] theorem Thread.modV_retrylim (t : Thread) (n : Nat) (f : RegCell 512 → RegCell 512) : (t.modV n f).retrylim = t.retrylim := rfl
@[simp] theorem Thread.modV_launchid (t : Thread) (n : Nat) (f : RegCell 512 → RegCell 512) : (t.modV n f).launchid = t.launchid := rfl
@[simp] theorem Thread.modV_graphid (t : Thread) (n : Nat) (f : RegCell 512 → RegCell 512) : (t.modV n f).graphid = t.graphid := rfl
@[simp] theorem Thread.modV_trapcause (t : Thread) (n : Nat) (f : RegCell 512 → RegCell 512) : (t.modV n f).trapcause = t.trapcause := rfl
@[simp] theorem Thread.modV_trappc (t : Thread) (n : Nat) (f : RegCell 512 → RegCell 512) : (t.modV n f).trappc = t.trappc := rfl
@[simp] theorem Thread.modV_trapaddr (t : Thread) (n : Nat) (f : RegCell 512 → RegCell 512) : (t.modV n f).trapaddr = t.trapaddr := rfl
@[simp] theorem Thread.modV_uivec (t : Thread) (n : Nat) (f : RegCell 512 → RegCell 512) : (t.modV n f).uivec = t.uivec := rfl
@[simp] theorem Thread.modV_qmap (t : Thread) (n : Nat) (f : RegCell 512 → RegCell 512) : (t.modV n f).qmap = t.qmap := rfl
@[simp] theorem Thread.modV_pmeta (t : Thread) (n : Nat) (f : RegCell 512 → RegCell 512) : (t.modV n f).pmeta = t.pmeta := rfl
@[simp] theorem Thread.modV_part (t : Thread) (n : Nat) (f : RegCell 512 → RegCell 512) : (t.modV n f).part = t.part := rfl
@[simp] theorem Thread.modV_domain (t : Thread) (n : Nat) (f : RegCell 512 → RegCell 512) : (t.modV n f).domain = t.domain := rfl
@[simp] theorem Thread.modV_k (t : Thread) (n : Nat) (f : RegCell 512 → RegCell 512) : (t.modV n f).k = t.k := rfl
@[simp] theorem Thread.modV_fifo (t : Thread) (n : Nat) (f : RegCell 512 → RegCell 512) : (t.modV n f).fifo = t.fifo := rfl
@[simp] theorem Thread.modV_shadow (t : Thread) (n : Nat) (f : RegCell 512 → RegCell 512) : (t.modV n f).shadow = t.shadow := rfl
@[simp] theorem Thread.modV_tgt (t : Thread) (n : Nat) (f : RegCell 512 → RegCell 512) : (t.modV n f).tgt = t.tgt := rfl
@[simp] theorem Thread.modV_watch (t : Thread) (n : Nat) (f : RegCell 512 → RegCell 512) : (t.modV n f).watch = t.watch := rfl
@[simp] theorem Thread.modV_lease (t : Thread) (n : Nat) (f : RegCell 512 → RegCell 512) : (t.modV n f).lease = t.lease := rfl
@[simp] theorem Thread.modV_leaseOwe (t : Thread) (n : Nat) (f : RegCell 512 → RegCell 512) : (t.modV n f).leaseOwe = t.leaseOwe := rfl
@[simp] theorem Thread.modV_q0 (t : Thread) (n : Nat) (f : RegCell 512 → RegCell 512) : (t.modV n f).q0 = t.q0 := rfl
@[simp] theorem Thread.modV_q1 (t : Thread) (n : Nat) (f : RegCell 512 → RegCell 512) : (t.modV n f).q1 = t.q1 := rfl
@[simp] theorem Thread.modV_q2 (t : Thread) (n : Nat) (f : RegCell 512 → RegCell 512) : (t.modV n f).q2 = t.q2 := rfl
@[simp] theorem Thread.modV_q2pos (t : Thread) (n : Nat) (f : RegCell 512 → RegCell 512) : (t.modV n f).q2pos = t.q2pos := rfl
@[simp] theorem Thread.modV_q3 (t : Thread) (n : Nat) (f : RegCell 512 → RegCell 512) : (t.modV n f).q3 = t.q3 := rfl
@[simp] theorem Thread.modV_copySeq (t : Thread) (n : Nat) (f : RegCell 512 → RegCell 512) : (t.modV n f).copySeq = t.copySeq := rfl
@[simp] theorem Thread.modV_plankSeq (t : Thread) (n : Nat) (f : RegCell 512 → RegCell 512) : (t.modV n f).plankSeq = t.plankSeq := rfl
@[simp] theorem Thread.modV_asyncTraps (t : Thread) (n : Nat) (f : RegCell 512 → RegCell 512) : (t.modV n f).asyncTraps = t.asyncTraps := rfl
@[simp] theorem Thread.modV_duty (t : Thread) (n : Nat) (f : RegCell 512 → RegCell 512) : (t.modV n f).duty = t.duty := rfl
@[simp] theorem Thread.modV_declined (t : Thread) (n : Nat) (f : RegCell 512 → RegCell 512) : (t.modV n f).declined = t.declined := rfl
@[simp] theorem Thread.modV_run (t : Thread) (n : Nat) (f : RegCell 512 → RegCell 512) : (t.modV n f).run = t.run := rfl
@[simp] theorem Thread.modV_pend (t : Thread) (n : Nat) (f : RegCell 512 → RegCell 512) : (t.modV n f).pend = t.pend := rfl
@[simp] theorem Thread.modV_leaving (t : Thread) (n : Nat) (f : RegCell 512 → RegCell 512) : (t.modV n f).leaving = t.leaving := rfl
@[simp] theorem Thread.modV_npc (t : Thread) (n : Nat) (f : RegCell 512 → RegCell 512) : (t.modV n f).npc = t.npc := rfl
@[simp] theorem Thread.modV_waitId (t : Thread) (n : Nat) (f : RegCell 512 → RegCell 512) : (t.modV n f).waitId = t.waitId := rfl
@[simp] theorem Thread.modV_readyAt (t : Thread) (n : Nat) (f : RegCell 512 → RegCell 512) : (t.modV n f).readyAt = t.readyAt := rfl
@[simp] theorem Thread.modV_lastIssue (t : Thread) (n : Nat) (f : RegCell 512 → RegCell 512) : (t.modV n f).lastIssue = t.lastIssue := rfl
@[simp] theorem Thread.modV_tries (t : Thread) (n : Nat) (f : RegCell 512 → RegCell 512) : (t.modV n f).tries = t.tries := rfl

/-! ### setV -/

@[simp] theorem Thread.setV_tid (t : Thread) (n : Nat) (x : VReg) : (t.setV n x).tid = t.tid := rfl
@[simp] theorem Thread.setV_g (t : Thread) (n : Nat) (x : VReg) : (t.setV n x).g = t.g := rfl
@[simp] theorem Thread.setV_p (t : Thread) (n : Nat) (x : VReg) : (t.setV n x).p = t.p := rfl
@[simp] theorem Thread.setV_pc (t : Thread) (n : Nat) (x : VReg) : (t.setV n x).pc = t.pc := rfl
@[simp] theorem Thread.setV_fmode (t : Thread) (n : Nat) (x : VReg) : (t.setV n x).fmode = t.fmode := rfl
@[simp] theorem Thread.setV_waitlim (t : Thread) (n : Nat) (x : VReg) : (t.setV n x).waitlim = t.waitlim := rfl
@[simp] theorem Thread.setV_retrylim (t : Thread) (n : Nat) (x : VReg) : (t.setV n x).retrylim = t.retrylim := rfl
@[simp] theorem Thread.setV_launchid (t : Thread) (n : Nat) (x : VReg) : (t.setV n x).launchid = t.launchid := rfl
@[simp] theorem Thread.setV_graphid (t : Thread) (n : Nat) (x : VReg) : (t.setV n x).graphid = t.graphid := rfl
@[simp] theorem Thread.setV_trapcause (t : Thread) (n : Nat) (x : VReg) : (t.setV n x).trapcause = t.trapcause := rfl
@[simp] theorem Thread.setV_trappc (t : Thread) (n : Nat) (x : VReg) : (t.setV n x).trappc = t.trappc := rfl
@[simp] theorem Thread.setV_trapaddr (t : Thread) (n : Nat) (x : VReg) : (t.setV n x).trapaddr = t.trapaddr := rfl
@[simp] theorem Thread.setV_uivec (t : Thread) (n : Nat) (x : VReg) : (t.setV n x).uivec = t.uivec := rfl
@[simp] theorem Thread.setV_qmap (t : Thread) (n : Nat) (x : VReg) : (t.setV n x).qmap = t.qmap := rfl
@[simp] theorem Thread.setV_pmeta (t : Thread) (n : Nat) (x : VReg) : (t.setV n x).pmeta = t.pmeta := rfl
@[simp] theorem Thread.setV_part (t : Thread) (n : Nat) (x : VReg) : (t.setV n x).part = t.part := rfl
@[simp] theorem Thread.setV_domain (t : Thread) (n : Nat) (x : VReg) : (t.setV n x).domain = t.domain := rfl
@[simp] theorem Thread.setV_k (t : Thread) (n : Nat) (x : VReg) : (t.setV n x).k = t.k := rfl
@[simp] theorem Thread.setV_fifo (t : Thread) (n : Nat) (x : VReg) : (t.setV n x).fifo = t.fifo := rfl
@[simp] theorem Thread.setV_shadow (t : Thread) (n : Nat) (x : VReg) : (t.setV n x).shadow = t.shadow := rfl
@[simp] theorem Thread.setV_tgt (t : Thread) (n : Nat) (x : VReg) : (t.setV n x).tgt = t.tgt := rfl
@[simp] theorem Thread.setV_watch (t : Thread) (n : Nat) (x : VReg) : (t.setV n x).watch = t.watch := rfl
@[simp] theorem Thread.setV_lease (t : Thread) (n : Nat) (x : VReg) : (t.setV n x).lease = t.lease := rfl
@[simp] theorem Thread.setV_leaseOwe (t : Thread) (n : Nat) (x : VReg) : (t.setV n x).leaseOwe = t.leaseOwe := rfl
@[simp] theorem Thread.setV_q0 (t : Thread) (n : Nat) (x : VReg) : (t.setV n x).q0 = t.q0 := rfl
@[simp] theorem Thread.setV_q1 (t : Thread) (n : Nat) (x : VReg) : (t.setV n x).q1 = t.q1 := rfl
@[simp] theorem Thread.setV_q2 (t : Thread) (n : Nat) (x : VReg) : (t.setV n x).q2 = t.q2 := rfl
@[simp] theorem Thread.setV_q2pos (t : Thread) (n : Nat) (x : VReg) : (t.setV n x).q2pos = t.q2pos := rfl
@[simp] theorem Thread.setV_q3 (t : Thread) (n : Nat) (x : VReg) : (t.setV n x).q3 = t.q3 := rfl
@[simp] theorem Thread.setV_copySeq (t : Thread) (n : Nat) (x : VReg) : (t.setV n x).copySeq = t.copySeq := rfl
@[simp] theorem Thread.setV_plankSeq (t : Thread) (n : Nat) (x : VReg) : (t.setV n x).plankSeq = t.plankSeq := rfl
@[simp] theorem Thread.setV_asyncTraps (t : Thread) (n : Nat) (x : VReg) : (t.setV n x).asyncTraps = t.asyncTraps := rfl
@[simp] theorem Thread.setV_duty (t : Thread) (n : Nat) (x : VReg) : (t.setV n x).duty = t.duty := rfl
@[simp] theorem Thread.setV_declined (t : Thread) (n : Nat) (x : VReg) : (t.setV n x).declined = t.declined := rfl
@[simp] theorem Thread.setV_run (t : Thread) (n : Nat) (x : VReg) : (t.setV n x).run = t.run := rfl
@[simp] theorem Thread.setV_pend (t : Thread) (n : Nat) (x : VReg) : (t.setV n x).pend = t.pend := rfl
@[simp] theorem Thread.setV_leaving (t : Thread) (n : Nat) (x : VReg) : (t.setV n x).leaving = t.leaving := rfl
@[simp] theorem Thread.setV_npc (t : Thread) (n : Nat) (x : VReg) : (t.setV n x).npc = t.npc := rfl
@[simp] theorem Thread.setV_waitId (t : Thread) (n : Nat) (x : VReg) : (t.setV n x).waitId = t.waitId := rfl
@[simp] theorem Thread.setV_readyAt (t : Thread) (n : Nat) (x : VReg) : (t.setV n x).readyAt = t.readyAt := rfl
@[simp] theorem Thread.setV_lastIssue (t : Thread) (n : Nat) (x : VReg) : (t.setV n x).lastIssue = t.lastIssue := rfl
@[simp] theorem Thread.setV_tries (t : Thread) (n : Nat) (x : VReg) : (t.setV n x).tries = t.tries := rfl

/-! ### setThs -/

@[simp] theorem Thread.setThs_tid (t : Thread) (n : Nat) (b : Bool) : (t.setThs n b).tid = t.tid := rfl
@[simp] theorem Thread.setThs_g (t : Thread) (n : Nat) (b : Bool) : (t.setThs n b).g = t.g := rfl
@[simp] theorem Thread.setThs_p (t : Thread) (n : Nat) (b : Bool) : (t.setThs n b).p = t.p := rfl
@[simp] theorem Thread.setThs_v (t : Thread) (n : Nat) (b : Bool) : (t.setThs n b).v = t.v := rfl
@[simp] theorem Thread.setThs_pc (t : Thread) (n : Nat) (b : Bool) : (t.setThs n b).pc = t.pc := rfl
@[simp] theorem Thread.setThs_fmode (t : Thread) (n : Nat) (b : Bool) : (t.setThs n b).fmode = t.fmode := rfl
@[simp] theorem Thread.setThs_waitlim (t : Thread) (n : Nat) (b : Bool) : (t.setThs n b).waitlim = t.waitlim := rfl
@[simp] theorem Thread.setThs_retrylim (t : Thread) (n : Nat) (b : Bool) : (t.setThs n b).retrylim = t.retrylim := rfl
@[simp] theorem Thread.setThs_launchid (t : Thread) (n : Nat) (b : Bool) : (t.setThs n b).launchid = t.launchid := rfl
@[simp] theorem Thread.setThs_graphid (t : Thread) (n : Nat) (b : Bool) : (t.setThs n b).graphid = t.graphid := rfl
@[simp] theorem Thread.setThs_trapcause (t : Thread) (n : Nat) (b : Bool) : (t.setThs n b).trapcause = t.trapcause := rfl
@[simp] theorem Thread.setThs_trappc (t : Thread) (n : Nat) (b : Bool) : (t.setThs n b).trappc = t.trappc := rfl
@[simp] theorem Thread.setThs_trapaddr (t : Thread) (n : Nat) (b : Bool) : (t.setThs n b).trapaddr = t.trapaddr := rfl
@[simp] theorem Thread.setThs_uivec (t : Thread) (n : Nat) (b : Bool) : (t.setThs n b).uivec = t.uivec := rfl
@[simp] theorem Thread.setThs_qmap (t : Thread) (n : Nat) (b : Bool) : (t.setThs n b).qmap = t.qmap := rfl
@[simp] theorem Thread.setThs_pmeta (t : Thread) (n : Nat) (b : Bool) : (t.setThs n b).pmeta = t.pmeta := rfl
@[simp] theorem Thread.setThs_part (t : Thread) (n : Nat) (b : Bool) : (t.setThs n b).part = t.part := rfl
@[simp] theorem Thread.setThs_domain (t : Thread) (n : Nat) (b : Bool) : (t.setThs n b).domain = t.domain := rfl
@[simp] theorem Thread.setThs_k (t : Thread) (n : Nat) (b : Bool) : (t.setThs n b).k = t.k := rfl
@[simp] theorem Thread.setThs_fifo (t : Thread) (n : Nat) (b : Bool) : (t.setThs n b).fifo = t.fifo := rfl
@[simp] theorem Thread.setThs_shadow (t : Thread) (n : Nat) (b : Bool) : (t.setThs n b).shadow = t.shadow := rfl
@[simp] theorem Thread.setThs_tgt (t : Thread) (n : Nat) (b : Bool) : (t.setThs n b).tgt = t.tgt := rfl
@[simp] theorem Thread.setThs_watch (t : Thread) (n : Nat) (b : Bool) : (t.setThs n b).watch = t.watch := rfl
@[simp] theorem Thread.setThs_lease (t : Thread) (n : Nat) (b : Bool) : (t.setThs n b).lease = t.lease := rfl
@[simp] theorem Thread.setThs_leaseOwe (t : Thread) (n : Nat) (b : Bool) : (t.setThs n b).leaseOwe = t.leaseOwe := rfl
@[simp] theorem Thread.setThs_q0 (t : Thread) (n : Nat) (b : Bool) : (t.setThs n b).q0 = t.q0 := rfl
@[simp] theorem Thread.setThs_q1 (t : Thread) (n : Nat) (b : Bool) : (t.setThs n b).q1 = t.q1 := rfl
@[simp] theorem Thread.setThs_q2 (t : Thread) (n : Nat) (b : Bool) : (t.setThs n b).q2 = t.q2 := rfl
@[simp] theorem Thread.setThs_q2pos (t : Thread) (n : Nat) (b : Bool) : (t.setThs n b).q2pos = t.q2pos := rfl
@[simp] theorem Thread.setThs_q3 (t : Thread) (n : Nat) (b : Bool) : (t.setThs n b).q3 = t.q3 := rfl
@[simp] theorem Thread.setThs_copySeq (t : Thread) (n : Nat) (b : Bool) : (t.setThs n b).copySeq = t.copySeq := rfl
@[simp] theorem Thread.setThs_plankSeq (t : Thread) (n : Nat) (b : Bool) : (t.setThs n b).plankSeq = t.plankSeq := rfl
@[simp] theorem Thread.setThs_asyncTraps (t : Thread) (n : Nat) (b : Bool) : (t.setThs n b).asyncTraps = t.asyncTraps := rfl
@[simp] theorem Thread.setThs_duty (t : Thread) (n : Nat) (b : Bool) : (t.setThs n b).duty = t.duty := rfl
@[simp] theorem Thread.setThs_declined (t : Thread) (n : Nat) (b : Bool) : (t.setThs n b).declined = t.declined := rfl
@[simp] theorem Thread.setThs_run (t : Thread) (n : Nat) (b : Bool) : (t.setThs n b).run = t.run := rfl
@[simp] theorem Thread.setThs_pend (t : Thread) (n : Nat) (b : Bool) : (t.setThs n b).pend = t.pend := rfl
@[simp] theorem Thread.setThs_leaving (t : Thread) (n : Nat) (b : Bool) : (t.setThs n b).leaving = t.leaving := rfl
@[simp] theorem Thread.setThs_npc (t : Thread) (n : Nat) (b : Bool) : (t.setThs n b).npc = t.npc := rfl
@[simp] theorem Thread.setThs_waitId (t : Thread) (n : Nat) (b : Bool) : (t.setThs n b).waitId = t.waitId := rfl
@[simp] theorem Thread.setThs_readyAt (t : Thread) (n : Nat) (b : Bool) : (t.setThs n b).readyAt = t.readyAt := rfl
@[simp] theorem Thread.setThs_lastIssue (t : Thread) (n : Nat) (b : Bool) : (t.setThs n b).lastIssue = t.lastIssue := rfl
@[simp] theorem Thread.setThs_tries (t : Thread) (n : Nat) (b : Bool) : (t.setThs n b).tries = t.tries := rfl

/-! ### setProg -/

@[simp] theorem Thread.setProg_tid (t : Thread) (n : Nat) : (t.setProg n).tid = t.tid := rfl
@[simp] theorem Thread.setProg_g (t : Thread) (n : Nat) : (t.setProg n).g = t.g := rfl
@[simp] theorem Thread.setProg_p (t : Thread) (n : Nat) : (t.setProg n).p = t.p := rfl
@[simp] theorem Thread.setProg_v (t : Thread) (n : Nat) : (t.setProg n).v = t.v := rfl
@[simp] theorem Thread.setProg_pc (t : Thread) (n : Nat) : (t.setProg n).pc = t.pc := rfl
@[simp] theorem Thread.setProg_fmode (t : Thread) (n : Nat) : (t.setProg n).fmode = t.fmode := rfl
@[simp] theorem Thread.setProg_waitlim (t : Thread) (n : Nat) : (t.setProg n).waitlim = t.waitlim := rfl
@[simp] theorem Thread.setProg_retrylim (t : Thread) (n : Nat) : (t.setProg n).retrylim = t.retrylim := rfl
@[simp] theorem Thread.setProg_launchid (t : Thread) (n : Nat) : (t.setProg n).launchid = t.launchid := rfl
@[simp] theorem Thread.setProg_graphid (t : Thread) (n : Nat) : (t.setProg n).graphid = t.graphid := rfl
@[simp] theorem Thread.setProg_trapcause (t : Thread) (n : Nat) : (t.setProg n).trapcause = t.trapcause := rfl
@[simp] theorem Thread.setProg_trappc (t : Thread) (n : Nat) : (t.setProg n).trappc = t.trappc := rfl
@[simp] theorem Thread.setProg_trapaddr (t : Thread) (n : Nat) : (t.setProg n).trapaddr = t.trapaddr := rfl
@[simp] theorem Thread.setProg_uivec (t : Thread) (n : Nat) : (t.setProg n).uivec = t.uivec := rfl
@[simp] theorem Thread.setProg_qmap (t : Thread) (n : Nat) : (t.setProg n).qmap = t.qmap := rfl
@[simp] theorem Thread.setProg_pmeta (t : Thread) (n : Nat) : (t.setProg n).pmeta = t.pmeta := rfl
@[simp] theorem Thread.setProg_part (t : Thread) (n : Nat) : (t.setProg n).part = t.part := rfl
@[simp] theorem Thread.setProg_domain (t : Thread) (n : Nat) : (t.setProg n).domain = t.domain := rfl
@[simp] theorem Thread.setProg_k (t : Thread) (n : Nat) : (t.setProg n).k = t.k := rfl
@[simp] theorem Thread.setProg_fifo (t : Thread) (n : Nat) : (t.setProg n).fifo = t.fifo := rfl
@[simp] theorem Thread.setProg_shadow (t : Thread) (n : Nat) : (t.setProg n).shadow = t.shadow := rfl
@[simp] theorem Thread.setProg_tgt (t : Thread) (n : Nat) : (t.setProg n).tgt = t.tgt := rfl
@[simp] theorem Thread.setProg_watch (t : Thread) (n : Nat) : (t.setProg n).watch = t.watch := rfl
@[simp] theorem Thread.setProg_lease (t : Thread) (n : Nat) : (t.setProg n).lease = t.lease := rfl
@[simp] theorem Thread.setProg_leaseOwe (t : Thread) (n : Nat) : (t.setProg n).leaseOwe = t.leaseOwe := rfl
@[simp] theorem Thread.setProg_q0 (t : Thread) (n : Nat) : (t.setProg n).q0 = t.q0 := rfl
@[simp] theorem Thread.setProg_q1 (t : Thread) (n : Nat) : (t.setProg n).q1 = t.q1 := rfl
@[simp] theorem Thread.setProg_q2 (t : Thread) (n : Nat) : (t.setProg n).q2 = t.q2 := rfl
@[simp] theorem Thread.setProg_q2pos (t : Thread) (n : Nat) : (t.setProg n).q2pos = t.q2pos := rfl
@[simp] theorem Thread.setProg_q3 (t : Thread) (n : Nat) : (t.setProg n).q3 = t.q3 := rfl
@[simp] theorem Thread.setProg_copySeq (t : Thread) (n : Nat) : (t.setProg n).copySeq = t.copySeq := rfl
@[simp] theorem Thread.setProg_plankSeq (t : Thread) (n : Nat) : (t.setProg n).plankSeq = t.plankSeq := rfl
@[simp] theorem Thread.setProg_asyncTraps (t : Thread) (n : Nat) : (t.setProg n).asyncTraps = t.asyncTraps := rfl
@[simp] theorem Thread.setProg_duty (t : Thread) (n : Nat) : (t.setProg n).duty = t.duty := rfl
@[simp] theorem Thread.setProg_declined (t : Thread) (n : Nat) : (t.setProg n).declined = t.declined := rfl
@[simp] theorem Thread.setProg_run (t : Thread) (n : Nat) : (t.setProg n).run = t.run := rfl
@[simp] theorem Thread.setProg_pend (t : Thread) (n : Nat) : (t.setProg n).pend = t.pend := rfl
@[simp] theorem Thread.setProg_leaving (t : Thread) (n : Nat) : (t.setProg n).leaving = t.leaving := rfl
@[simp] theorem Thread.setProg_npc (t : Thread) (n : Nat) : (t.setProg n).npc = t.npc := rfl
@[simp] theorem Thread.setProg_waitId (t : Thread) (n : Nat) : (t.setProg n).waitId = t.waitId := rfl
@[simp] theorem Thread.setProg_readyAt (t : Thread) (n : Nat) : (t.setProg n).readyAt = t.readyAt := rfl
@[simp] theorem Thread.setProg_lastIssue (t : Thread) (n : Nat) : (t.setProg n).lastIssue = t.lastIssue := rfl
@[simp] theorem Thread.setProg_tries (t : Thread) (n : Nat) : (t.setProg n).tries = t.tries := rfl

/-! ### orFlags -/

@[simp] theorem Thread.orFlags_tid (t : Thread) (f : Flags) : (t.orFlags f).tid = t.tid := rfl
@[simp] theorem Thread.orFlags_g (t : Thread) (f : Flags) : (t.orFlags f).g = t.g := rfl
@[simp] theorem Thread.orFlags_p (t : Thread) (f : Flags) : (t.orFlags f).p = t.p := rfl
@[simp] theorem Thread.orFlags_v (t : Thread) (f : Flags) : (t.orFlags f).v = t.v := rfl
@[simp] theorem Thread.orFlags_pc (t : Thread) (f : Flags) : (t.orFlags f).pc = t.pc := rfl
@[simp] theorem Thread.orFlags_ths (t : Thread) (f : Flags) : (t.orFlags f).ths = t.ths := rfl
@[simp] theorem Thread.orFlags_waitlim (t : Thread) (f : Flags) : (t.orFlags f).waitlim = t.waitlim := rfl
@[simp] theorem Thread.orFlags_retrylim (t : Thread) (f : Flags) : (t.orFlags f).retrylim = t.retrylim := rfl
@[simp] theorem Thread.orFlags_launchid (t : Thread) (f : Flags) : (t.orFlags f).launchid = t.launchid := rfl
@[simp] theorem Thread.orFlags_graphid (t : Thread) (f : Flags) : (t.orFlags f).graphid = t.graphid := rfl
@[simp] theorem Thread.orFlags_trapcause (t : Thread) (f : Flags) : (t.orFlags f).trapcause = t.trapcause := rfl
@[simp] theorem Thread.orFlags_trappc (t : Thread) (f : Flags) : (t.orFlags f).trappc = t.trappc := rfl
@[simp] theorem Thread.orFlags_trapaddr (t : Thread) (f : Flags) : (t.orFlags f).trapaddr = t.trapaddr := rfl
@[simp] theorem Thread.orFlags_uivec (t : Thread) (f : Flags) : (t.orFlags f).uivec = t.uivec := rfl
@[simp] theorem Thread.orFlags_qmap (t : Thread) (f : Flags) : (t.orFlags f).qmap = t.qmap := rfl
@[simp] theorem Thread.orFlags_pmeta (t : Thread) (f : Flags) : (t.orFlags f).pmeta = t.pmeta := rfl
@[simp] theorem Thread.orFlags_part (t : Thread) (f : Flags) : (t.orFlags f).part = t.part := rfl
@[simp] theorem Thread.orFlags_domain (t : Thread) (f : Flags) : (t.orFlags f).domain = t.domain := rfl
@[simp] theorem Thread.orFlags_k (t : Thread) (f : Flags) : (t.orFlags f).k = t.k := rfl
@[simp] theorem Thread.orFlags_fifo (t : Thread) (f : Flags) : (t.orFlags f).fifo = t.fifo := rfl
@[simp] theorem Thread.orFlags_shadow (t : Thread) (f : Flags) : (t.orFlags f).shadow = t.shadow := rfl
@[simp] theorem Thread.orFlags_tgt (t : Thread) (f : Flags) : (t.orFlags f).tgt = t.tgt := rfl
@[simp] theorem Thread.orFlags_watch (t : Thread) (f : Flags) : (t.orFlags f).watch = t.watch := rfl
@[simp] theorem Thread.orFlags_lease (t : Thread) (f : Flags) : (t.orFlags f).lease = t.lease := rfl
@[simp] theorem Thread.orFlags_leaseOwe (t : Thread) (f : Flags) : (t.orFlags f).leaseOwe = t.leaseOwe := rfl
@[simp] theorem Thread.orFlags_q0 (t : Thread) (f : Flags) : (t.orFlags f).q0 = t.q0 := rfl
@[simp] theorem Thread.orFlags_q1 (t : Thread) (f : Flags) : (t.orFlags f).q1 = t.q1 := rfl
@[simp] theorem Thread.orFlags_q2 (t : Thread) (f : Flags) : (t.orFlags f).q2 = t.q2 := rfl
@[simp] theorem Thread.orFlags_q2pos (t : Thread) (f : Flags) : (t.orFlags f).q2pos = t.q2pos := rfl
@[simp] theorem Thread.orFlags_q3 (t : Thread) (f : Flags) : (t.orFlags f).q3 = t.q3 := rfl
@[simp] theorem Thread.orFlags_copySeq (t : Thread) (f : Flags) : (t.orFlags f).copySeq = t.copySeq := rfl
@[simp] theorem Thread.orFlags_plankSeq (t : Thread) (f : Flags) : (t.orFlags f).plankSeq = t.plankSeq := rfl
@[simp] theorem Thread.orFlags_asyncTraps (t : Thread) (f : Flags) : (t.orFlags f).asyncTraps = t.asyncTraps := rfl
@[simp] theorem Thread.orFlags_duty (t : Thread) (f : Flags) : (t.orFlags f).duty = t.duty := rfl
@[simp] theorem Thread.orFlags_declined (t : Thread) (f : Flags) : (t.orFlags f).declined = t.declined := rfl
@[simp] theorem Thread.orFlags_run (t : Thread) (f : Flags) : (t.orFlags f).run = t.run := rfl
@[simp] theorem Thread.orFlags_pend (t : Thread) (f : Flags) : (t.orFlags f).pend = t.pend := rfl
@[simp] theorem Thread.orFlags_leaving (t : Thread) (f : Flags) : (t.orFlags f).leaving = t.leaving := rfl
@[simp] theorem Thread.orFlags_npc (t : Thread) (f : Flags) : (t.orFlags f).npc = t.npc := rfl
@[simp] theorem Thread.orFlags_waitId (t : Thread) (f : Flags) : (t.orFlags f).waitId = t.waitId := rfl
@[simp] theorem Thread.orFlags_readyAt (t : Thread) (f : Flags) : (t.orFlags f).readyAt = t.readyAt := rfl
@[simp] theorem Thread.orFlags_lastIssue (t : Thread) (f : Flags) : (t.orFlags f).lastIssue = t.lastIssue := rfl
@[simp] theorem Thread.orFlags_tries (t : Thread) (f : Flags) : (t.orFlags f).tries = t.tries := rfl

/-! ### setKb -/

@[simp] theorem Thread.setKb_tid (t : Thread) (n : Nat) (b : Option Binding) : (t.setKb n b).tid = t.tid := rfl
@[simp] theorem Thread.setKb_g (t : Thread) (n : Nat) (b : Option Binding) : (t.setKb n b).g = t.g := rfl
@[simp] theorem Thread.setKb_p (t : Thread) (n : Nat) (b : Option Binding) : (t.setKb n b).p = t.p := rfl
@[simp] theorem Thread.setKb_v (t : Thread) (n : Nat) (b : Option Binding) : (t.setKb n b).v = t.v := rfl
@[simp] theorem Thread.setKb_pc (t : Thread) (n : Nat) (b : Option Binding) : (t.setKb n b).pc = t.pc := rfl
@[simp] theorem Thread.setKb_fmode (t : Thread) (n : Nat) (b : Option Binding) : (t.setKb n b).fmode = t.fmode := rfl
@[simp] theorem Thread.setKb_ths (t : Thread) (n : Nat) (b : Option Binding) : (t.setKb n b).ths = t.ths := rfl
@[simp] theorem Thread.setKb_waitlim (t : Thread) (n : Nat) (b : Option Binding) : (t.setKb n b).waitlim = t.waitlim := rfl
@[simp] theorem Thread.setKb_retrylim (t : Thread) (n : Nat) (b : Option Binding) : (t.setKb n b).retrylim = t.retrylim := rfl
@[simp] theorem Thread.setKb_launchid (t : Thread) (n : Nat) (b : Option Binding) : (t.setKb n b).launchid = t.launchid := rfl
@[simp] theorem Thread.setKb_graphid (t : Thread) (n : Nat) (b : Option Binding) : (t.setKb n b).graphid = t.graphid := rfl
@[simp] theorem Thread.setKb_trapcause (t : Thread) (n : Nat) (b : Option Binding) : (t.setKb n b).trapcause = t.trapcause := rfl
@[simp] theorem Thread.setKb_trappc (t : Thread) (n : Nat) (b : Option Binding) : (t.setKb n b).trappc = t.trappc := rfl
@[simp] theorem Thread.setKb_trapaddr (t : Thread) (n : Nat) (b : Option Binding) : (t.setKb n b).trapaddr = t.trapaddr := rfl
@[simp] theorem Thread.setKb_uivec (t : Thread) (n : Nat) (b : Option Binding) : (t.setKb n b).uivec = t.uivec := rfl
@[simp] theorem Thread.setKb_qmap (t : Thread) (n : Nat) (b : Option Binding) : (t.setKb n b).qmap = t.qmap := rfl
@[simp] theorem Thread.setKb_pmeta (t : Thread) (n : Nat) (b : Option Binding) : (t.setKb n b).pmeta = t.pmeta := rfl
@[simp] theorem Thread.setKb_part (t : Thread) (n : Nat) (b : Option Binding) : (t.setKb n b).part = t.part := rfl
@[simp] theorem Thread.setKb_domain (t : Thread) (n : Nat) (b : Option Binding) : (t.setKb n b).domain = t.domain := rfl
@[simp] theorem Thread.setKb_fifo (t : Thread) (n : Nat) (b : Option Binding) : (t.setKb n b).fifo = t.fifo := rfl
@[simp] theorem Thread.setKb_shadow (t : Thread) (n : Nat) (b : Option Binding) : (t.setKb n b).shadow = t.shadow := rfl
@[simp] theorem Thread.setKb_tgt (t : Thread) (n : Nat) (b : Option Binding) : (t.setKb n b).tgt = t.tgt := rfl
@[simp] theorem Thread.setKb_watch (t : Thread) (n : Nat) (b : Option Binding) : (t.setKb n b).watch = t.watch := rfl
@[simp] theorem Thread.setKb_lease (t : Thread) (n : Nat) (b : Option Binding) : (t.setKb n b).lease = t.lease := rfl
@[simp] theorem Thread.setKb_leaseOwe (t : Thread) (n : Nat) (b : Option Binding) : (t.setKb n b).leaseOwe = t.leaseOwe := rfl
@[simp] theorem Thread.setKb_q0 (t : Thread) (n : Nat) (b : Option Binding) : (t.setKb n b).q0 = t.q0 := rfl
@[simp] theorem Thread.setKb_q1 (t : Thread) (n : Nat) (b : Option Binding) : (t.setKb n b).q1 = t.q1 := rfl
@[simp] theorem Thread.setKb_q2 (t : Thread) (n : Nat) (b : Option Binding) : (t.setKb n b).q2 = t.q2 := rfl
@[simp] theorem Thread.setKb_q2pos (t : Thread) (n : Nat) (b : Option Binding) : (t.setKb n b).q2pos = t.q2pos := rfl
@[simp] theorem Thread.setKb_q3 (t : Thread) (n : Nat) (b : Option Binding) : (t.setKb n b).q3 = t.q3 := rfl
@[simp] theorem Thread.setKb_copySeq (t : Thread) (n : Nat) (b : Option Binding) : (t.setKb n b).copySeq = t.copySeq := rfl
@[simp] theorem Thread.setKb_plankSeq (t : Thread) (n : Nat) (b : Option Binding) : (t.setKb n b).plankSeq = t.plankSeq := rfl
@[simp] theorem Thread.setKb_asyncTraps (t : Thread) (n : Nat) (b : Option Binding) : (t.setKb n b).asyncTraps = t.asyncTraps := rfl
@[simp] theorem Thread.setKb_duty (t : Thread) (n : Nat) (b : Option Binding) : (t.setKb n b).duty = t.duty := rfl
@[simp] theorem Thread.setKb_declined (t : Thread) (n : Nat) (b : Option Binding) : (t.setKb n b).declined = t.declined := rfl
@[simp] theorem Thread.setKb_run (t : Thread) (n : Nat) (b : Option Binding) : (t.setKb n b).run = t.run := rfl
@[simp] theorem Thread.setKb_pend (t : Thread) (n : Nat) (b : Option Binding) : (t.setKb n b).pend = t.pend := rfl
@[simp] theorem Thread.setKb_leaving (t : Thread) (n : Nat) (b : Option Binding) : (t.setKb n b).leaving = t.leaving := rfl
@[simp] theorem Thread.setKb_npc (t : Thread) (n : Nat) (b : Option Binding) : (t.setKb n b).npc = t.npc := rfl
@[simp] theorem Thread.setKb_waitId (t : Thread) (n : Nat) (b : Option Binding) : (t.setKb n b).waitId = t.waitId := rfl
@[simp] theorem Thread.setKb_readyAt (t : Thread) (n : Nat) (b : Option Binding) : (t.setKb n b).readyAt = t.readyAt := rfl
@[simp] theorem Thread.setKb_lastIssue (t : Thread) (n : Nat) (b : Option Binding) : (t.setKb n b).lastIssue = t.lastIssue := rfl
@[simp] theorem Thread.setKb_tries (t : Thread) (n : Nat) (b : Option Binding) : (t.setKb n b).tries = t.tries := rfl

/-! ### setFifo -/

@[simp] theorem Thread.setFifo_tid (t : Thread) (n : Nat) (l : List DW) : (t.setFifo n l).tid = t.tid := rfl
@[simp] theorem Thread.setFifo_g (t : Thread) (n : Nat) (l : List DW) : (t.setFifo n l).g = t.g := rfl
@[simp] theorem Thread.setFifo_p (t : Thread) (n : Nat) (l : List DW) : (t.setFifo n l).p = t.p := rfl
@[simp] theorem Thread.setFifo_v (t : Thread) (n : Nat) (l : List DW) : (t.setFifo n l).v = t.v := rfl
@[simp] theorem Thread.setFifo_pc (t : Thread) (n : Nat) (l : List DW) : (t.setFifo n l).pc = t.pc := rfl
@[simp] theorem Thread.setFifo_fmode (t : Thread) (n : Nat) (l : List DW) : (t.setFifo n l).fmode = t.fmode := rfl
@[simp] theorem Thread.setFifo_ths (t : Thread) (n : Nat) (l : List DW) : (t.setFifo n l).ths = t.ths := rfl
@[simp] theorem Thread.setFifo_waitlim (t : Thread) (n : Nat) (l : List DW) : (t.setFifo n l).waitlim = t.waitlim := rfl
@[simp] theorem Thread.setFifo_retrylim (t : Thread) (n : Nat) (l : List DW) : (t.setFifo n l).retrylim = t.retrylim := rfl
@[simp] theorem Thread.setFifo_launchid (t : Thread) (n : Nat) (l : List DW) : (t.setFifo n l).launchid = t.launchid := rfl
@[simp] theorem Thread.setFifo_graphid (t : Thread) (n : Nat) (l : List DW) : (t.setFifo n l).graphid = t.graphid := rfl
@[simp] theorem Thread.setFifo_trapcause (t : Thread) (n : Nat) (l : List DW) : (t.setFifo n l).trapcause = t.trapcause := rfl
@[simp] theorem Thread.setFifo_trappc (t : Thread) (n : Nat) (l : List DW) : (t.setFifo n l).trappc = t.trappc := rfl
@[simp] theorem Thread.setFifo_trapaddr (t : Thread) (n : Nat) (l : List DW) : (t.setFifo n l).trapaddr = t.trapaddr := rfl
@[simp] theorem Thread.setFifo_uivec (t : Thread) (n : Nat) (l : List DW) : (t.setFifo n l).uivec = t.uivec := rfl
@[simp] theorem Thread.setFifo_qmap (t : Thread) (n : Nat) (l : List DW) : (t.setFifo n l).qmap = t.qmap := rfl
@[simp] theorem Thread.setFifo_pmeta (t : Thread) (n : Nat) (l : List DW) : (t.setFifo n l).pmeta = t.pmeta := rfl
@[simp] theorem Thread.setFifo_part (t : Thread) (n : Nat) (l : List DW) : (t.setFifo n l).part = t.part := rfl
@[simp] theorem Thread.setFifo_domain (t : Thread) (n : Nat) (l : List DW) : (t.setFifo n l).domain = t.domain := rfl
@[simp] theorem Thread.setFifo_k (t : Thread) (n : Nat) (l : List DW) : (t.setFifo n l).k = t.k := rfl
@[simp] theorem Thread.setFifo_shadow (t : Thread) (n : Nat) (l : List DW) : (t.setFifo n l).shadow = t.shadow := rfl
@[simp] theorem Thread.setFifo_tgt (t : Thread) (n : Nat) (l : List DW) : (t.setFifo n l).tgt = t.tgt := rfl
@[simp] theorem Thread.setFifo_watch (t : Thread) (n : Nat) (l : List DW) : (t.setFifo n l).watch = t.watch := rfl
@[simp] theorem Thread.setFifo_lease (t : Thread) (n : Nat) (l : List DW) : (t.setFifo n l).lease = t.lease := rfl
@[simp] theorem Thread.setFifo_leaseOwe (t : Thread) (n : Nat) (l : List DW) : (t.setFifo n l).leaseOwe = t.leaseOwe := rfl
@[simp] theorem Thread.setFifo_q0 (t : Thread) (n : Nat) (l : List DW) : (t.setFifo n l).q0 = t.q0 := rfl
@[simp] theorem Thread.setFifo_q1 (t : Thread) (n : Nat) (l : List DW) : (t.setFifo n l).q1 = t.q1 := rfl
@[simp] theorem Thread.setFifo_q2 (t : Thread) (n : Nat) (l : List DW) : (t.setFifo n l).q2 = t.q2 := rfl
@[simp] theorem Thread.setFifo_q2pos (t : Thread) (n : Nat) (l : List DW) : (t.setFifo n l).q2pos = t.q2pos := rfl
@[simp] theorem Thread.setFifo_q3 (t : Thread) (n : Nat) (l : List DW) : (t.setFifo n l).q3 = t.q3 := rfl
@[simp] theorem Thread.setFifo_copySeq (t : Thread) (n : Nat) (l : List DW) : (t.setFifo n l).copySeq = t.copySeq := rfl
@[simp] theorem Thread.setFifo_plankSeq (t : Thread) (n : Nat) (l : List DW) : (t.setFifo n l).plankSeq = t.plankSeq := rfl
@[simp] theorem Thread.setFifo_asyncTraps (t : Thread) (n : Nat) (l : List DW) : (t.setFifo n l).asyncTraps = t.asyncTraps := rfl
@[simp] theorem Thread.setFifo_duty (t : Thread) (n : Nat) (l : List DW) : (t.setFifo n l).duty = t.duty := rfl
@[simp] theorem Thread.setFifo_declined (t : Thread) (n : Nat) (l : List DW) : (t.setFifo n l).declined = t.declined := rfl
@[simp] theorem Thread.setFifo_run (t : Thread) (n : Nat) (l : List DW) : (t.setFifo n l).run = t.run := rfl
@[simp] theorem Thread.setFifo_pend (t : Thread) (n : Nat) (l : List DW) : (t.setFifo n l).pend = t.pend := rfl
@[simp] theorem Thread.setFifo_leaving (t : Thread) (n : Nat) (l : List DW) : (t.setFifo n l).leaving = t.leaving := rfl
@[simp] theorem Thread.setFifo_npc (t : Thread) (n : Nat) (l : List DW) : (t.setFifo n l).npc = t.npc := rfl
@[simp] theorem Thread.setFifo_waitId (t : Thread) (n : Nat) (l : List DW) : (t.setFifo n l).waitId = t.waitId := rfl
@[simp] theorem Thread.setFifo_readyAt (t : Thread) (n : Nat) (l : List DW) : (t.setFifo n l).readyAt = t.readyAt := rfl
@[simp] theorem Thread.setFifo_lastIssue (t : Thread) (n : Nat) (l : List DW) : (t.setFifo n l).lastIssue = t.lastIssue := rfl
@[simp] theorem Thread.setFifo_tries (t : Thread) (n : Nat) (l : List DW) : (t.setFifo n l).tries = t.tries := rfl

/-! ### modP -/

@[simp] theorem Thread.modP_tid (t : Thread) (n : Nat) (f : RegCell 1 → RegCell 1) : (t.modP n f).tid = t.tid := by
  unfold Thread.modP; split <;> rfl
@[simp] theorem Thread.modP_g (t : Thread) (n : Nat) (f : RegCell 1 → RegCell 1) : (t.modP n f).g = t.g := by
  unfold Thread.modP; split <;> rfl
@[simp] theorem Thread.modP_v (t : Thread) (n : Nat) (f : RegCell 1 → RegCell 1) : (t.modP n f).v = t.v := by
  unfold Thread.modP; split <;> rfl
@[simp] theorem Thread.modP_pc (t : Thread) (n : Nat) (f : RegCell 1 → RegCell 1) : (t.modP n f).pc = t.pc := by
  unfold Thread.modP; split <;> rfl
@[simp] theorem Thread.modP_fmode (t : Thread) (n : Nat) (f : RegCell 1 → RegCell 1) : (t.modP n f).fmode = t.fmode := by
  unfold Thread.modP; split <;> rfl
@[simp] theorem Thread.modP_ths (t : Thread) (n : Nat) (f : RegCell 1 → RegCell 1) : (t.modP n f).ths = t.ths := by
  unfold Thread.modP; split <;> rfl
@[simp] theorem Thread.modP_waitlim (t : Thread) (n : Nat) (f : RegCell 1 → RegCell 1) : (t.modP n f).waitlim = t.waitlim := by
  unfold Thread.modP; split <;> rfl
@[simp] theorem Thread.modP_retrylim (t : Thread) (n : Nat) (f : RegCell 1 → RegCell 1) : (t.modP n f).retrylim = t.retrylim := by
  unfold Thread.modP; split <;> rfl
@[simp] theorem Thread.modP_launchid (t : Thread) (n : Nat) (f : RegCell 1 → RegCell 1) : (t.modP n f).launchid = t.launchid := by
  unfold Thread.modP; split <;> rfl
@[simp] theorem Thread.modP_graphid (t : Thread) (n : Nat) (f : RegCell 1 → RegCell 1) : (t.modP n f).graphid = t.graphid := by
  unfold Thread.modP; split <;> rfl
@[simp] theorem Thread.modP_trapcause (t : Thread) (n : Nat) (f : RegCell 1 → RegCell 1) : (t.modP n f).trapcause = t.trapcause := by
  unfold Thread.modP; split <;> rfl
@[simp] theorem Thread.modP_trappc (t : Thread) (n : Nat) (f : RegCell 1 → RegCell 1) : (t.modP n f).trappc = t.trappc := by
  unfold Thread.modP; split <;> rfl
@[simp] theorem Thread.modP_trapaddr (t : Thread) (n : Nat) (f : RegCell 1 → RegCell 1) : (t.modP n f).trapaddr = t.trapaddr := by
  unfold Thread.modP; split <;> rfl
@[simp] theorem Thread.modP_uivec (t : Thread) (n : Nat) (f : RegCell 1 → RegCell 1) : (t.modP n f).uivec = t.uivec := by
  unfold Thread.modP; split <;> rfl
@[simp] theorem Thread.modP_qmap (t : Thread) (n : Nat) (f : RegCell 1 → RegCell 1) : (t.modP n f).qmap = t.qmap := by
  unfold Thread.modP; split <;> rfl
@[simp] theorem Thread.modP_pmeta (t : Thread) (n : Nat) (f : RegCell 1 → RegCell 1) : (t.modP n f).pmeta = t.pmeta := by
  unfold Thread.modP; split <;> rfl
@[simp] theorem Thread.modP_part (t : Thread) (n : Nat) (f : RegCell 1 → RegCell 1) : (t.modP n f).part = t.part := by
  unfold Thread.modP; split <;> rfl
@[simp] theorem Thread.modP_domain (t : Thread) (n : Nat) (f : RegCell 1 → RegCell 1) : (t.modP n f).domain = t.domain := by
  unfold Thread.modP; split <;> rfl
@[simp] theorem Thread.modP_k (t : Thread) (n : Nat) (f : RegCell 1 → RegCell 1) : (t.modP n f).k = t.k := by
  unfold Thread.modP; split <;> rfl
@[simp] theorem Thread.modP_fifo (t : Thread) (n : Nat) (f : RegCell 1 → RegCell 1) : (t.modP n f).fifo = t.fifo := by
  unfold Thread.modP; split <;> rfl
@[simp] theorem Thread.modP_shadow (t : Thread) (n : Nat) (f : RegCell 1 → RegCell 1) : (t.modP n f).shadow = t.shadow := by
  unfold Thread.modP; split <;> rfl
@[simp] theorem Thread.modP_tgt (t : Thread) (n : Nat) (f : RegCell 1 → RegCell 1) : (t.modP n f).tgt = t.tgt := by
  unfold Thread.modP; split <;> rfl
@[simp] theorem Thread.modP_watch (t : Thread) (n : Nat) (f : RegCell 1 → RegCell 1) : (t.modP n f).watch = t.watch := by
  unfold Thread.modP; split <;> rfl
@[simp] theorem Thread.modP_lease (t : Thread) (n : Nat) (f : RegCell 1 → RegCell 1) : (t.modP n f).lease = t.lease := by
  unfold Thread.modP; split <;> rfl
@[simp] theorem Thread.modP_leaseOwe (t : Thread) (n : Nat) (f : RegCell 1 → RegCell 1) : (t.modP n f).leaseOwe = t.leaseOwe := by
  unfold Thread.modP; split <;> rfl
@[simp] theorem Thread.modP_q0 (t : Thread) (n : Nat) (f : RegCell 1 → RegCell 1) : (t.modP n f).q0 = t.q0 := by
  unfold Thread.modP; split <;> rfl
@[simp] theorem Thread.modP_q1 (t : Thread) (n : Nat) (f : RegCell 1 → RegCell 1) : (t.modP n f).q1 = t.q1 := by
  unfold Thread.modP; split <;> rfl
@[simp] theorem Thread.modP_q2 (t : Thread) (n : Nat) (f : RegCell 1 → RegCell 1) : (t.modP n f).q2 = t.q2 := by
  unfold Thread.modP; split <;> rfl
@[simp] theorem Thread.modP_q2pos (t : Thread) (n : Nat) (f : RegCell 1 → RegCell 1) : (t.modP n f).q2pos = t.q2pos := by
  unfold Thread.modP; split <;> rfl
@[simp] theorem Thread.modP_q3 (t : Thread) (n : Nat) (f : RegCell 1 → RegCell 1) : (t.modP n f).q3 = t.q3 := by
  unfold Thread.modP; split <;> rfl
@[simp] theorem Thread.modP_copySeq (t : Thread) (n : Nat) (f : RegCell 1 → RegCell 1) : (t.modP n f).copySeq = t.copySeq := by
  unfold Thread.modP; split <;> rfl
@[simp] theorem Thread.modP_plankSeq (t : Thread) (n : Nat) (f : RegCell 1 → RegCell 1) : (t.modP n f).plankSeq = t.plankSeq := by
  unfold Thread.modP; split <;> rfl
@[simp] theorem Thread.modP_asyncTraps (t : Thread) (n : Nat) (f : RegCell 1 → RegCell 1) : (t.modP n f).asyncTraps = t.asyncTraps := by
  unfold Thread.modP; split <;> rfl
@[simp] theorem Thread.modP_duty (t : Thread) (n : Nat) (f : RegCell 1 → RegCell 1) : (t.modP n f).duty = t.duty := by
  unfold Thread.modP; split <;> rfl
@[simp] theorem Thread.modP_declined (t : Thread) (n : Nat) (f : RegCell 1 → RegCell 1) : (t.modP n f).declined = t.declined := by
  unfold Thread.modP; split <;> rfl
@[simp] theorem Thread.modP_run (t : Thread) (n : Nat) (f : RegCell 1 → RegCell 1) : (t.modP n f).run = t.run := by
  unfold Thread.modP; split <;> rfl
@[simp] theorem Thread.modP_pend (t : Thread) (n : Nat) (f : RegCell 1 → RegCell 1) : (t.modP n f).pend = t.pend := by
  unfold Thread.modP; split <;> rfl
@[simp] theorem Thread.modP_leaving (t : Thread) (n : Nat) (f : RegCell 1 → RegCell 1) : (t.modP n f).leaving = t.leaving := by
  unfold Thread.modP; split <;> rfl
@[simp] theorem Thread.modP_npc (t : Thread) (n : Nat) (f : RegCell 1 → RegCell 1) : (t.modP n f).npc = t.npc := by
  unfold Thread.modP; split <;> rfl
@[simp] theorem Thread.modP_waitId (t : Thread) (n : Nat) (f : RegCell 1 → RegCell 1) : (t.modP n f).waitId = t.waitId := by
  unfold Thread.modP; split <;> rfl
@[simp] theorem Thread.modP_readyAt (t : Thread) (n : Nat) (f : RegCell 1 → RegCell 1) : (t.modP n f).readyAt = t.readyAt := by
  unfold Thread.modP; split <;> rfl
@[simp] theorem Thread.modP_lastIssue (t : Thread) (n : Nat) (f : RegCell 1 → RegCell 1) : (t.modP n f).lastIssue = t.lastIssue := by
  unfold Thread.modP; split <;> rfl
@[simp] theorem Thread.modP_tries (t : Thread) (n : Nat) (f : RegCell 1 → RegCell 1) : (t.modP n f).tries = t.tries := by
  unfold Thread.modP; split <;> rfl

/-! ### setP -/

@[simp] theorem Thread.setP_tid (t : Thread) (n : Nat) (b : Bool) : (t.setP n b).tid = t.tid := by
  unfold Thread.setP Thread.modP; split <;> rfl
@[simp] theorem Thread.setP_g (t : Thread) (n : Nat) (b : Bool) : (t.setP n b).g = t.g := by
  unfold Thread.setP Thread.modP; split <;> rfl
@[simp] theorem Thread.setP_v (t : Thread) (n : Nat) (b : Bool) : (t.setP n b).v = t.v := by
  unfold Thread.setP Thread.modP; split <;> rfl
@[simp] theorem Thread.setP_pc (t : Thread) (n : Nat) (b : Bool) : (t.setP n b).pc = t.pc := by
  unfold Thread.setP Thread.modP; split <;> rfl
@[simp] theorem Thread.setP_fmode (t : Thread) (n : Nat) (b : Bool) : (t.setP n b).fmode = t.fmode := by
  unfold Thread.setP Thread.modP; split <;> rfl
@[simp] theorem Thread.setP_ths (t : Thread) (n : Nat) (b : Bool) : (t.setP n b).ths = t.ths := by
  unfold Thread.setP Thread.modP; split <;> rfl
@[simp] theorem Thread.setP_waitlim (t : Thread) (n : Nat) (b : Bool) : (t.setP n b).waitlim = t.waitlim := by
  unfold Thread.setP Thread.modP; split <;> rfl
@[simp] theorem Thread.setP_retrylim (t : Thread) (n : Nat) (b : Bool) : (t.setP n b).retrylim = t.retrylim := by
  unfold Thread.setP Thread.modP; split <;> rfl
@[simp] theorem Thread.setP_launchid (t : Thread) (n : Nat) (b : Bool) : (t.setP n b).launchid = t.launchid := by
  unfold Thread.setP Thread.modP; split <;> rfl
@[simp] theorem Thread.setP_graphid (t : Thread) (n : Nat) (b : Bool) : (t.setP n b).graphid = t.graphid := by
  unfold Thread.setP Thread.modP; split <;> rfl
@[simp] theorem Thread.setP_trapcause (t : Thread) (n : Nat) (b : Bool) : (t.setP n b).trapcause = t.trapcause := by
  unfold Thread.setP Thread.modP; split <;> rfl
@[simp] theorem Thread.setP_trappc (t : Thread) (n : Nat) (b : Bool) : (t.setP n b).trappc = t.trappc := by
  unfold Thread.setP Thread.modP; split <;> rfl
@[simp] theorem Thread.setP_trapaddr (t : Thread) (n : Nat) (b : Bool) : (t.setP n b).trapaddr = t.trapaddr := by
  unfold Thread.setP Thread.modP; split <;> rfl
@[simp] theorem Thread.setP_uivec (t : Thread) (n : Nat) (b : Bool) : (t.setP n b).uivec = t.uivec := by
  unfold Thread.setP Thread.modP; split <;> rfl
@[simp] theorem Thread.setP_qmap (t : Thread) (n : Nat) (b : Bool) : (t.setP n b).qmap = t.qmap := by
  unfold Thread.setP Thread.modP; split <;> rfl
@[simp] theorem Thread.setP_pmeta (t : Thread) (n : Nat) (b : Bool) : (t.setP n b).pmeta = t.pmeta := by
  unfold Thread.setP Thread.modP; split <;> rfl
@[simp] theorem Thread.setP_part (t : Thread) (n : Nat) (b : Bool) : (t.setP n b).part = t.part := by
  unfold Thread.setP Thread.modP; split <;> rfl
@[simp] theorem Thread.setP_domain (t : Thread) (n : Nat) (b : Bool) : (t.setP n b).domain = t.domain := by
  unfold Thread.setP Thread.modP; split <;> rfl
@[simp] theorem Thread.setP_k (t : Thread) (n : Nat) (b : Bool) : (t.setP n b).k = t.k := by
  unfold Thread.setP Thread.modP; split <;> rfl
@[simp] theorem Thread.setP_fifo (t : Thread) (n : Nat) (b : Bool) : (t.setP n b).fifo = t.fifo := by
  unfold Thread.setP Thread.modP; split <;> rfl
@[simp] theorem Thread.setP_shadow (t : Thread) (n : Nat) (b : Bool) : (t.setP n b).shadow = t.shadow := by
  unfold Thread.setP Thread.modP; split <;> rfl
@[simp] theorem Thread.setP_tgt (t : Thread) (n : Nat) (b : Bool) : (t.setP n b).tgt = t.tgt := by
  unfold Thread.setP Thread.modP; split <;> rfl
@[simp] theorem Thread.setP_watch (t : Thread) (n : Nat) (b : Bool) : (t.setP n b).watch = t.watch := by
  unfold Thread.setP Thread.modP; split <;> rfl
@[simp] theorem Thread.setP_lease (t : Thread) (n : Nat) (b : Bool) : (t.setP n b).lease = t.lease := by
  unfold Thread.setP Thread.modP; split <;> rfl
@[simp] theorem Thread.setP_leaseOwe (t : Thread) (n : Nat) (b : Bool) : (t.setP n b).leaseOwe = t.leaseOwe := by
  unfold Thread.setP Thread.modP; split <;> rfl
@[simp] theorem Thread.setP_q0 (t : Thread) (n : Nat) (b : Bool) : (t.setP n b).q0 = t.q0 := by
  unfold Thread.setP Thread.modP; split <;> rfl
@[simp] theorem Thread.setP_q1 (t : Thread) (n : Nat) (b : Bool) : (t.setP n b).q1 = t.q1 := by
  unfold Thread.setP Thread.modP; split <;> rfl
@[simp] theorem Thread.setP_q2 (t : Thread) (n : Nat) (b : Bool) : (t.setP n b).q2 = t.q2 := by
  unfold Thread.setP Thread.modP; split <;> rfl
@[simp] theorem Thread.setP_q2pos (t : Thread) (n : Nat) (b : Bool) : (t.setP n b).q2pos = t.q2pos := by
  unfold Thread.setP Thread.modP; split <;> rfl
@[simp] theorem Thread.setP_q3 (t : Thread) (n : Nat) (b : Bool) : (t.setP n b).q3 = t.q3 := by
  unfold Thread.setP Thread.modP; split <;> rfl
@[simp] theorem Thread.setP_copySeq (t : Thread) (n : Nat) (b : Bool) : (t.setP n b).copySeq = t.copySeq := by
  unfold Thread.setP Thread.modP; split <;> rfl
@[simp] theorem Thread.setP_plankSeq (t : Thread) (n : Nat) (b : Bool) : (t.setP n b).plankSeq = t.plankSeq := by
  unfold Thread.setP Thread.modP; split <;> rfl
@[simp] theorem Thread.setP_asyncTraps (t : Thread) (n : Nat) (b : Bool) : (t.setP n b).asyncTraps = t.asyncTraps := by
  unfold Thread.setP Thread.modP; split <;> rfl
@[simp] theorem Thread.setP_duty (t : Thread) (n : Nat) (b : Bool) : (t.setP n b).duty = t.duty := by
  unfold Thread.setP Thread.modP; split <;> rfl
@[simp] theorem Thread.setP_declined (t : Thread) (n : Nat) (b : Bool) : (t.setP n b).declined = t.declined := by
  unfold Thread.setP Thread.modP; split <;> rfl
@[simp] theorem Thread.setP_run (t : Thread) (n : Nat) (b : Bool) : (t.setP n b).run = t.run := by
  unfold Thread.setP Thread.modP; split <;> rfl
@[simp] theorem Thread.setP_pend (t : Thread) (n : Nat) (b : Bool) : (t.setP n b).pend = t.pend := by
  unfold Thread.setP Thread.modP; split <;> rfl
@[simp] theorem Thread.setP_leaving (t : Thread) (n : Nat) (b : Bool) : (t.setP n b).leaving = t.leaving := by
  unfold Thread.setP Thread.modP; split <;> rfl
@[simp] theorem Thread.setP_npc (t : Thread) (n : Nat) (b : Bool) : (t.setP n b).npc = t.npc := by
  unfold Thread.setP Thread.modP; split <;> rfl
@[simp] theorem Thread.setP_waitId (t : Thread) (n : Nat) (b : Bool) : (t.setP n b).waitId = t.waitId := by
  unfold Thread.setP Thread.modP; split <;> rfl
@[simp] theorem Thread.setP_readyAt (t : Thread) (n : Nat) (b : Bool) : (t.setP n b).readyAt = t.readyAt := by
  unfold Thread.setP Thread.modP; split <;> rfl
@[simp] theorem Thread.setP_lastIssue (t : Thread) (n : Nat) (b : Bool) : (t.setP n b).lastIssue = t.lastIssue := by
  unfold Thread.setP Thread.modP; split <;> rfl
@[simp] theorem Thread.setP_tries (t : Thread) (n : Nat) (b : Bool) : (t.setP n b).tries = t.tries := by
  unfold Thread.setP Thread.modP; split <;> rfl

/-! ### oweReg -/

@[simp] theorem Thread.oweReg_tid (t : Thread) (r : RegRef) : (t.oweReg r).tid = t.tid := by
  cases r <;> simp [Thread.oweReg, Thread.setVlive]
@[simp] theorem Thread.oweReg_pc (t : Thread) (r : RegRef) : (t.oweReg r).pc = t.pc := by
  cases r <;> simp [Thread.oweReg, Thread.setVlive]
@[simp] theorem Thread.oweReg_fmode (t : Thread) (r : RegRef) : (t.oweReg r).fmode = t.fmode := by
  cases r <;> simp [Thread.oweReg, Thread.setVlive]
@[simp] theorem Thread.oweReg_waitlim (t : Thread) (r : RegRef) : (t.oweReg r).waitlim = t.waitlim := by
  cases r <;> simp [Thread.oweReg, Thread.setVlive]
@[simp] theorem Thread.oweReg_retrylim (t : Thread) (r : RegRef) : (t.oweReg r).retrylim = t.retrylim := by
  cases r <;> simp [Thread.oweReg, Thread.setVlive]
@[simp] theorem Thread.oweReg_launchid (t : Thread) (r : RegRef) : (t.oweReg r).launchid = t.launchid := by
  cases r <;> simp [Thread.oweReg, Thread.setVlive]
@[simp] theorem Thread.oweReg_graphid (t : Thread) (r : RegRef) : (t.oweReg r).graphid = t.graphid := by
  cases r <;> simp [Thread.oweReg, Thread.setVlive]
@[simp] theorem Thread.oweReg_trapcause (t : Thread) (r : RegRef) : (t.oweReg r).trapcause = t.trapcause := by
  cases r <;> simp [Thread.oweReg, Thread.setVlive]
@[simp] theorem Thread.oweReg_trappc (t : Thread) (r : RegRef) : (t.oweReg r).trappc = t.trappc := by
  cases r <;> simp [Thread.oweReg, Thread.setVlive]
@[simp] theorem Thread.oweReg_trapaddr (t : Thread) (r : RegRef) : (t.oweReg r).trapaddr = t.trapaddr := by
  cases r <;> simp [Thread.oweReg, Thread.setVlive]
@[simp] theorem Thread.oweReg_uivec (t : Thread) (r : RegRef) : (t.oweReg r).uivec = t.uivec := by
  cases r <;> simp [Thread.oweReg, Thread.setVlive]
@[simp] theorem Thread.oweReg_qmap (t : Thread) (r : RegRef) : (t.oweReg r).qmap = t.qmap := by
  cases r <;> simp [Thread.oweReg, Thread.setVlive]
@[simp] theorem Thread.oweReg_pmeta (t : Thread) (r : RegRef) : (t.oweReg r).pmeta = t.pmeta := by
  cases r <;> simp [Thread.oweReg, Thread.setVlive]
@[simp] theorem Thread.oweReg_part (t : Thread) (r : RegRef) : (t.oweReg r).part = t.part := by
  cases r <;> simp [Thread.oweReg, Thread.setVlive]
@[simp] theorem Thread.oweReg_domain (t : Thread) (r : RegRef) : (t.oweReg r).domain = t.domain := by
  cases r <;> simp [Thread.oweReg, Thread.setVlive]
@[simp] theorem Thread.oweReg_k (t : Thread) (r : RegRef) : (t.oweReg r).k = t.k := by
  cases r <;> simp [Thread.oweReg, Thread.setVlive]
@[simp] theorem Thread.oweReg_fifo (t : Thread) (r : RegRef) : (t.oweReg r).fifo = t.fifo := by
  cases r <;> simp [Thread.oweReg, Thread.setVlive]
@[simp] theorem Thread.oweReg_shadow (t : Thread) (r : RegRef) : (t.oweReg r).shadow = t.shadow := by
  cases r <;> simp [Thread.oweReg, Thread.setVlive]
@[simp] theorem Thread.oweReg_tgt (t : Thread) (r : RegRef) : (t.oweReg r).tgt = t.tgt := by
  cases r <;> simp [Thread.oweReg, Thread.setVlive]
@[simp] theorem Thread.oweReg_watch (t : Thread) (r : RegRef) : (t.oweReg r).watch = t.watch := by
  cases r <;> simp [Thread.oweReg, Thread.setVlive]
@[simp] theorem Thread.oweReg_lease (t : Thread) (r : RegRef) : (t.oweReg r).lease = t.lease := by
  cases r <;> simp [Thread.oweReg, Thread.setVlive]
@[simp] theorem Thread.oweReg_leaseOwe (t : Thread) (r : RegRef) : (t.oweReg r).leaseOwe = t.leaseOwe := by
  cases r <;> simp [Thread.oweReg, Thread.setVlive]
@[simp] theorem Thread.oweReg_q0 (t : Thread) (r : RegRef) : (t.oweReg r).q0 = t.q0 := by
  cases r <;> simp [Thread.oweReg, Thread.setVlive]
@[simp] theorem Thread.oweReg_q1 (t : Thread) (r : RegRef) : (t.oweReg r).q1 = t.q1 := by
  cases r <;> simp [Thread.oweReg, Thread.setVlive]
@[simp] theorem Thread.oweReg_q2 (t : Thread) (r : RegRef) : (t.oweReg r).q2 = t.q2 := by
  cases r <;> simp [Thread.oweReg, Thread.setVlive]
@[simp] theorem Thread.oweReg_q2pos (t : Thread) (r : RegRef) : (t.oweReg r).q2pos = t.q2pos := by
  cases r <;> simp [Thread.oweReg, Thread.setVlive]
@[simp] theorem Thread.oweReg_q3 (t : Thread) (r : RegRef) : (t.oweReg r).q3 = t.q3 := by
  cases r <;> simp [Thread.oweReg, Thread.setVlive]
@[simp] theorem Thread.oweReg_copySeq (t : Thread) (r : RegRef) : (t.oweReg r).copySeq = t.copySeq := by
  cases r <;> simp [Thread.oweReg, Thread.setVlive]
@[simp] theorem Thread.oweReg_plankSeq (t : Thread) (r : RegRef) : (t.oweReg r).plankSeq = t.plankSeq := by
  cases r <;> simp [Thread.oweReg, Thread.setVlive]
@[simp] theorem Thread.oweReg_asyncTraps (t : Thread) (r : RegRef) : (t.oweReg r).asyncTraps = t.asyncTraps := by
  cases r <;> simp [Thread.oweReg, Thread.setVlive]
@[simp] theorem Thread.oweReg_duty (t : Thread) (r : RegRef) : (t.oweReg r).duty = t.duty := by
  cases r <;> simp [Thread.oweReg, Thread.setVlive]
@[simp] theorem Thread.oweReg_declined (t : Thread) (r : RegRef) : (t.oweReg r).declined = t.declined := by
  cases r <;> simp [Thread.oweReg, Thread.setVlive]
@[simp] theorem Thread.oweReg_run (t : Thread) (r : RegRef) : (t.oweReg r).run = t.run := by
  cases r <;> simp [Thread.oweReg, Thread.setVlive]
@[simp] theorem Thread.oweReg_pend (t : Thread) (r : RegRef) : (t.oweReg r).pend = t.pend := by
  cases r <;> simp [Thread.oweReg, Thread.setVlive]
@[simp] theorem Thread.oweReg_leaving (t : Thread) (r : RegRef) : (t.oweReg r).leaving = t.leaving := by
  cases r <;> simp [Thread.oweReg, Thread.setVlive]
@[simp] theorem Thread.oweReg_npc (t : Thread) (r : RegRef) : (t.oweReg r).npc = t.npc := by
  cases r <;> simp [Thread.oweReg, Thread.setVlive]
@[simp] theorem Thread.oweReg_waitId (t : Thread) (r : RegRef) : (t.oweReg r).waitId = t.waitId := by
  cases r <;> simp [Thread.oweReg, Thread.setVlive]
@[simp] theorem Thread.oweReg_readyAt (t : Thread) (r : RegRef) : (t.oweReg r).readyAt = t.readyAt := by
  cases r <;> simp [Thread.oweReg, Thread.setVlive]
@[simp] theorem Thread.oweReg_lastIssue (t : Thread) (r : RegRef) : (t.oweReg r).lastIssue = t.lastIssue := by
  cases r <;> simp [Thread.oweReg, Thread.setVlive]
@[simp] theorem Thread.oweReg_tries (t : Thread) (r : RegRef) : (t.oweReg r).tries = t.tries := by
  cases r <;> simp [Thread.oweReg, Thread.setVlive]

/-! ### emptyReg -/

@[simp] theorem Thread.emptyReg_tid (t : Thread) (r : RegRef) : (t.emptyReg r).tid = t.tid := by
  cases r <;> simp [Thread.emptyReg]
@[simp] theorem Thread.emptyReg_pc (t : Thread) (r : RegRef) : (t.emptyReg r).pc = t.pc := by
  cases r <;> simp [Thread.emptyReg]
@[simp] theorem Thread.emptyReg_fmode (t : Thread) (r : RegRef) : (t.emptyReg r).fmode = t.fmode := by
  cases r <;> simp [Thread.emptyReg]
@[simp] theorem Thread.emptyReg_ths (t : Thread) (r : RegRef) : (t.emptyReg r).ths = t.ths := by
  cases r <;> simp [Thread.emptyReg]
@[simp] theorem Thread.emptyReg_waitlim (t : Thread) (r : RegRef) : (t.emptyReg r).waitlim = t.waitlim := by
  cases r <;> simp [Thread.emptyReg]
@[simp] theorem Thread.emptyReg_retrylim (t : Thread) (r : RegRef) : (t.emptyReg r).retrylim = t.retrylim := by
  cases r <;> simp [Thread.emptyReg]
@[simp] theorem Thread.emptyReg_launchid (t : Thread) (r : RegRef) : (t.emptyReg r).launchid = t.launchid := by
  cases r <;> simp [Thread.emptyReg]
@[simp] theorem Thread.emptyReg_graphid (t : Thread) (r : RegRef) : (t.emptyReg r).graphid = t.graphid := by
  cases r <;> simp [Thread.emptyReg]
@[simp] theorem Thread.emptyReg_trapcause (t : Thread) (r : RegRef) : (t.emptyReg r).trapcause = t.trapcause := by
  cases r <;> simp [Thread.emptyReg]
@[simp] theorem Thread.emptyReg_trappc (t : Thread) (r : RegRef) : (t.emptyReg r).trappc = t.trappc := by
  cases r <;> simp [Thread.emptyReg]
@[simp] theorem Thread.emptyReg_trapaddr (t : Thread) (r : RegRef) : (t.emptyReg r).trapaddr = t.trapaddr := by
  cases r <;> simp [Thread.emptyReg]
@[simp] theorem Thread.emptyReg_uivec (t : Thread) (r : RegRef) : (t.emptyReg r).uivec = t.uivec := by
  cases r <;> simp [Thread.emptyReg]
@[simp] theorem Thread.emptyReg_qmap (t : Thread) (r : RegRef) : (t.emptyReg r).qmap = t.qmap := by
  cases r <;> simp [Thread.emptyReg]
@[simp] theorem Thread.emptyReg_pmeta (t : Thread) (r : RegRef) : (t.emptyReg r).pmeta = t.pmeta := by
  cases r <;> simp [Thread.emptyReg]
@[simp] theorem Thread.emptyReg_part (t : Thread) (r : RegRef) : (t.emptyReg r).part = t.part := by
  cases r <;> simp [Thread.emptyReg]
@[simp] theorem Thread.emptyReg_domain (t : Thread) (r : RegRef) : (t.emptyReg r).domain = t.domain := by
  cases r <;> simp [Thread.emptyReg]
@[simp] theorem Thread.emptyReg_k (t : Thread) (r : RegRef) : (t.emptyReg r).k = t.k := by
  cases r <;> simp [Thread.emptyReg]
@[simp] theorem Thread.emptyReg_fifo (t : Thread) (r : RegRef) : (t.emptyReg r).fifo = t.fifo := by
  cases r <;> simp [Thread.emptyReg]
@[simp] theorem Thread.emptyReg_shadow (t : Thread) (r : RegRef) : (t.emptyReg r).shadow = t.shadow := by
  cases r <;> simp [Thread.emptyReg]
@[simp] theorem Thread.emptyReg_tgt (t : Thread) (r : RegRef) : (t.emptyReg r).tgt = t.tgt := by
  cases r <;> simp [Thread.emptyReg]
@[simp] theorem Thread.emptyReg_watch (t : Thread) (r : RegRef) : (t.emptyReg r).watch = t.watch := by
  cases r <;> simp [Thread.emptyReg]
@[simp] theorem Thread.emptyReg_lease (t : Thread) (r : RegRef) : (t.emptyReg r).lease = t.lease := by
  cases r <;> simp [Thread.emptyReg]
@[simp] theorem Thread.emptyReg_leaseOwe (t : Thread) (r : RegRef) : (t.emptyReg r).leaseOwe = t.leaseOwe := by
  cases r <;> simp [Thread.emptyReg]
@[simp] theorem Thread.emptyReg_q0 (t : Thread) (r : RegRef) : (t.emptyReg r).q0 = t.q0 := by
  cases r <;> simp [Thread.emptyReg]
@[simp] theorem Thread.emptyReg_q1 (t : Thread) (r : RegRef) : (t.emptyReg r).q1 = t.q1 := by
  cases r <;> simp [Thread.emptyReg]
@[simp] theorem Thread.emptyReg_q2 (t : Thread) (r : RegRef) : (t.emptyReg r).q2 = t.q2 := by
  cases r <;> simp [Thread.emptyReg]
@[simp] theorem Thread.emptyReg_q2pos (t : Thread) (r : RegRef) : (t.emptyReg r).q2pos = t.q2pos := by
  cases r <;> simp [Thread.emptyReg]
@[simp] theorem Thread.emptyReg_q3 (t : Thread) (r : RegRef) : (t.emptyReg r).q3 = t.q3 := by
  cases r <;> simp [Thread.emptyReg]
@[simp] theorem Thread.emptyReg_copySeq (t : Thread) (r : RegRef) : (t.emptyReg r).copySeq = t.copySeq := by
  cases r <;> simp [Thread.emptyReg]
@[simp] theorem Thread.emptyReg_plankSeq (t : Thread) (r : RegRef) : (t.emptyReg r).plankSeq = t.plankSeq := by
  cases r <;> simp [Thread.emptyReg]
@[simp] theorem Thread.emptyReg_asyncTraps (t : Thread) (r : RegRef) : (t.emptyReg r).asyncTraps = t.asyncTraps := by
  cases r <;> simp [Thread.emptyReg]
@[simp] theorem Thread.emptyReg_duty (t : Thread) (r : RegRef) : (t.emptyReg r).duty = t.duty := by
  cases r <;> simp [Thread.emptyReg]
@[simp] theorem Thread.emptyReg_declined (t : Thread) (r : RegRef) : (t.emptyReg r).declined = t.declined := by
  cases r <;> simp [Thread.emptyReg]
@[simp] theorem Thread.emptyReg_run (t : Thread) (r : RegRef) : (t.emptyReg r).run = t.run := by
  cases r <;> simp [Thread.emptyReg]
@[simp] theorem Thread.emptyReg_pend (t : Thread) (r : RegRef) : (t.emptyReg r).pend = t.pend := by
  cases r <;> simp [Thread.emptyReg]
@[simp] theorem Thread.emptyReg_leaving (t : Thread) (r : RegRef) : (t.emptyReg r).leaving = t.leaving := by
  cases r <;> simp [Thread.emptyReg]
@[simp] theorem Thread.emptyReg_npc (t : Thread) (r : RegRef) : (t.emptyReg r).npc = t.npc := by
  cases r <;> simp [Thread.emptyReg]
@[simp] theorem Thread.emptyReg_waitId (t : Thread) (r : RegRef) : (t.emptyReg r).waitId = t.waitId := by
  cases r <;> simp [Thread.emptyReg]
@[simp] theorem Thread.emptyReg_readyAt (t : Thread) (r : RegRef) : (t.emptyReg r).readyAt = t.readyAt := by
  cases r <;> simp [Thread.emptyReg]
@[simp] theorem Thread.emptyReg_lastIssue (t : Thread) (r : RegRef) : (t.emptyReg r).lastIssue = t.lastIssue := by
  cases r <;> simp [Thread.emptyReg]
@[simp] theorem Thread.emptyReg_tries (t : Thread) (r : RegRef) : (t.emptyReg r).tries = t.tries := by
  cases r <;> simp [Thread.emptyReg]

/-! ### markReg -/

@[simp] theorem Thread.markReg_tid (t : Thread) (r : RegRef) : (t.markReg r).tid = t.tid := by
  cases r <;> simp [Thread.markReg]
@[simp] theorem Thread.markReg_pc (t : Thread) (r : RegRef) : (t.markReg r).pc = t.pc := by
  cases r <;> simp [Thread.markReg]
@[simp] theorem Thread.markReg_fmode (t : Thread) (r : RegRef) : (t.markReg r).fmode = t.fmode := by
  cases r <;> simp [Thread.markReg]
@[simp] theorem Thread.markReg_ths (t : Thread) (r : RegRef) : (t.markReg r).ths = t.ths := by
  cases r <;> simp [Thread.markReg]
@[simp] theorem Thread.markReg_waitlim (t : Thread) (r : RegRef) : (t.markReg r).waitlim = t.waitlim := by
  cases r <;> simp [Thread.markReg]
@[simp] theorem Thread.markReg_retrylim (t : Thread) (r : RegRef) : (t.markReg r).retrylim = t.retrylim := by
  cases r <;> simp [Thread.markReg]
@[simp] theorem Thread.markReg_launchid (t : Thread) (r : RegRef) : (t.markReg r).launchid = t.launchid := by
  cases r <;> simp [Thread.markReg]
@[simp] theorem Thread.markReg_graphid (t : Thread) (r : RegRef) : (t.markReg r).graphid = t.graphid := by
  cases r <;> simp [Thread.markReg]
@[simp] theorem Thread.markReg_trapcause (t : Thread) (r : RegRef) : (t.markReg r).trapcause = t.trapcause := by
  cases r <;> simp [Thread.markReg]
@[simp] theorem Thread.markReg_trappc (t : Thread) (r : RegRef) : (t.markReg r).trappc = t.trappc := by
  cases r <;> simp [Thread.markReg]
@[simp] theorem Thread.markReg_trapaddr (t : Thread) (r : RegRef) : (t.markReg r).trapaddr = t.trapaddr := by
  cases r <;> simp [Thread.markReg]
@[simp] theorem Thread.markReg_uivec (t : Thread) (r : RegRef) : (t.markReg r).uivec = t.uivec := by
  cases r <;> simp [Thread.markReg]
@[simp] theorem Thread.markReg_qmap (t : Thread) (r : RegRef) : (t.markReg r).qmap = t.qmap := by
  cases r <;> simp [Thread.markReg]
@[simp] theorem Thread.markReg_pmeta (t : Thread) (r : RegRef) : (t.markReg r).pmeta = t.pmeta := by
  cases r <;> simp [Thread.markReg]
@[simp] theorem Thread.markReg_part (t : Thread) (r : RegRef) : (t.markReg r).part = t.part := by
  cases r <;> simp [Thread.markReg]
@[simp] theorem Thread.markReg_domain (t : Thread) (r : RegRef) : (t.markReg r).domain = t.domain := by
  cases r <;> simp [Thread.markReg]
@[simp] theorem Thread.markReg_k (t : Thread) (r : RegRef) : (t.markReg r).k = t.k := by
  cases r <;> simp [Thread.markReg]
@[simp] theorem Thread.markReg_fifo (t : Thread) (r : RegRef) : (t.markReg r).fifo = t.fifo := by
  cases r <;> simp [Thread.markReg]
@[simp] theorem Thread.markReg_shadow (t : Thread) (r : RegRef) : (t.markReg r).shadow = t.shadow := by
  cases r <;> simp [Thread.markReg]
@[simp] theorem Thread.markReg_tgt (t : Thread) (r : RegRef) : (t.markReg r).tgt = t.tgt := by
  cases r <;> simp [Thread.markReg]
@[simp] theorem Thread.markReg_watch (t : Thread) (r : RegRef) : (t.markReg r).watch = t.watch := by
  cases r <;> simp [Thread.markReg]
@[simp] theorem Thread.markReg_lease (t : Thread) (r : RegRef) : (t.markReg r).lease = t.lease := by
  cases r <;> simp [Thread.markReg]
@[simp] theorem Thread.markReg_leaseOwe (t : Thread) (r : RegRef) : (t.markReg r).leaseOwe = t.leaseOwe := by
  cases r <;> simp [Thread.markReg]
@[simp] theorem Thread.markReg_q0 (t : Thread) (r : RegRef) : (t.markReg r).q0 = t.q0 := by
  cases r <;> simp [Thread.markReg]
@[simp] theorem Thread.markReg_q1 (t : Thread) (r : RegRef) : (t.markReg r).q1 = t.q1 := by
  cases r <;> simp [Thread.markReg]
@[simp] theorem Thread.markReg_q2 (t : Thread) (r : RegRef) : (t.markReg r).q2 = t.q2 := by
  cases r <;> simp [Thread.markReg]
@[simp] theorem Thread.markReg_q2pos (t : Thread) (r : RegRef) : (t.markReg r).q2pos = t.q2pos := by
  cases r <;> simp [Thread.markReg]
@[simp] theorem Thread.markReg_q3 (t : Thread) (r : RegRef) : (t.markReg r).q3 = t.q3 := by
  cases r <;> simp [Thread.markReg]
@[simp] theorem Thread.markReg_copySeq (t : Thread) (r : RegRef) : (t.markReg r).copySeq = t.copySeq := by
  cases r <;> simp [Thread.markReg]
@[simp] theorem Thread.markReg_plankSeq (t : Thread) (r : RegRef) : (t.markReg r).plankSeq = t.plankSeq := by
  cases r <;> simp [Thread.markReg]
@[simp] theorem Thread.markReg_asyncTraps (t : Thread) (r : RegRef) : (t.markReg r).asyncTraps = t.asyncTraps := by
  cases r <;> simp [Thread.markReg]
@[simp] theorem Thread.markReg_duty (t : Thread) (r : RegRef) : (t.markReg r).duty = t.duty := by
  cases r <;> simp [Thread.markReg]
@[simp] theorem Thread.markReg_declined (t : Thread) (r : RegRef) : (t.markReg r).declined = t.declined := by
  cases r <;> simp [Thread.markReg]
@[simp] theorem Thread.markReg_run (t : Thread) (r : RegRef) : (t.markReg r).run = t.run := by
  cases r <;> simp [Thread.markReg]
@[simp] theorem Thread.markReg_pend (t : Thread) (r : RegRef) : (t.markReg r).pend = t.pend := by
  cases r <;> simp [Thread.markReg]
@[simp] theorem Thread.markReg_leaving (t : Thread) (r : RegRef) : (t.markReg r).leaving = t.leaving := by
  cases r <;> simp [Thread.markReg]
@[simp] theorem Thread.markReg_npc (t : Thread) (r : RegRef) : (t.markReg r).npc = t.npc := by
  cases r <;> simp [Thread.markReg]
@[simp] theorem Thread.markReg_waitId (t : Thread) (r : RegRef) : (t.markReg r).waitId = t.waitId := by
  cases r <;> simp [Thread.markReg]
@[simp] theorem Thread.markReg_readyAt (t : Thread) (r : RegRef) : (t.markReg r).readyAt = t.readyAt := by
  cases r <;> simp [Thread.markReg]
@[simp] theorem Thread.markReg_lastIssue (t : Thread) (r : RegRef) : (t.markReg r).lastIssue = t.lastIssue := by
  cases r <;> simp [Thread.markReg]
@[simp] theorem Thread.markReg_tries (t : Thread) (r : RegRef) : (t.markReg r).tries = t.tries := by
  cases r <;> simp [Thread.markReg]

/-! ## Cells -/

theorem getD_setIfInBounds {α : Type} {n : Nat} (x : Vector α n) (i j : Nat) (a d : α) :
    (x.setIfInBounds i a).toList.getD j d = if i = j ∧ i < n then a else x.toList.getD j d := by
  simp only [Vector.toList_setIfInBounds, List.getD_eq_getElem?_getD, List.getElem?_set, Vector.length_toList]
  by_cases h : i = j
  · subst h
    by_cases hn : i < n
    · simp [hn]
    · simp [hn]
  · simp [h]

@[simp] theorem Thread.gcell_modG_self (t : Thread) (n : Nat) (f : RegCell 64 → RegCell 64) (h : n < 24) :
    (t.modG n f).gcell n = f (t.gcell n) := by
  simp only [Thread.gcell, Thread.modG, getD_setIfInBounds]; simp [h]

theorem Thread.gcell_modG_ne (t : Thread) {n m : Nat} (f : RegCell 64 → RegCell 64) (h : m ≠ n) :
    (t.modG n f).gcell m = t.gcell m := by
  simp only [Thread.gcell, Thread.modG, getD_setIfInBounds]; simp [Ne.symm h]

@[simp] theorem Thread.vcell_modV_self (t : Thread) (n : Nat) (f : RegCell 512 → RegCell 512) (h : n < 8) :
    (t.modV n f).vcell n = f (t.vcell n) := by
  simp only [Thread.vcell, Thread.modV, getD_setIfInBounds]; simp [h]

theorem Thread.vcell_modV_ne (t : Thread) {n m : Nat} (f : RegCell 512 → RegCell 512) (h : m ≠ n) :
    (t.modV n f).vcell m = t.vcell m := by
  simp only [Thread.vcell, Thread.modV, getD_setIfInBounds]; simp [Ne.symm h]

@[simp] theorem Thread.pcell_modP_self (t : Thread) (n : Nat) (f : RegCell 1 → RegCell 1) (h0 : n ≠ 0) (h : n < 32) :
    (t.modP n f).pcell n = f (t.pcell n) := by
  simp only [Thread.pcell, Thread.modP, if_neg h0, getD_setIfInBounds]; simp [h]

theorem Thread.pcell_modP_ne (t : Thread) {n m : Nat} (f : RegCell 1 → RegCell 1) (h : m ≠ n) :
    (t.modP n f).pcell m = t.pcell m := by
  unfold Thread.modP
  split
  · rfl
  · simp only [Thread.pcell, getD_setIfInBounds]; simp [Ne.symm h]

/-! ## Values -/

@[simp] theorem Thread.gv_setG_self (t : Thread) (n : Nat) (x : DW) (h : n < 24) : (t.setG n x).gv n = x := by
  simp [Thread.gv, Thread.setG, h, RegCell.fill]

theorem Thread.gv_setG_ne (t : Thread) {n m : Nat} (x : DW) (h : m ≠ n) : (t.setG n x).gv m = t.gv m := by
  simp [Thread.gv, Thread.setG, Thread.gcell_modG_ne _ _ h]

@[simp] theorem Thread.full_setG_self (t : Thread) (n : Nat) (x : DW) (h : n < 24) : (t.setG n x).isFull (.g n) = true := by
  simp [Thread.isFull, Thread.setG, h, RegCell.fill]

@[simp] theorem Thread.vv_setV_self (t : Thread) (n : Nat) (x : VReg) (h : n < 8) : (t.setV n x).vv n = x := by
  have : ((t.modV n fun c => c.fill x).setVlive).vcell n = (t.modV n fun c => c.fill x).vcell n := rfl
  rw [Thread.vv, Thread.setV, this, Thread.vcell_modV_self _ _ _ h]; rfl

theorem Thread.vv_setV_ne (t : Thread) {n m : Nat} (x : VReg) (h : m ≠ n) : (t.setV n x).vv m = t.vv m := by
  have : ((t.modV n fun c => c.fill x).setVlive).vcell m = (t.modV n fun c => c.fill x).vcell m := rfl
  rw [Thread.vv, Thread.setV, this, Thread.vcell_modV_ne _ _ h]; rfl

@[simp] theorem Thread.pv_setP_self (t : Thread) (n : Nat) (b : Bool) (h0 : n ≠ 0) (h : n < 32) : (t.setP n b).pv n = b := by
  cases b <;> simp [Thread.pv, Thread.setP, h0, h, RegCell.fill]

theorem Thread.pv_setP_ne (t : Thread) {n m : Nat} (b : Bool) (h : m ≠ n) : (t.setP n b).pv m = t.pv m := by
  simp [Thread.pv, Thread.setP, Thread.pcell_modP_ne _ _ h]

/-- p0 reads as 1 and is full whatever has been written (R23). -/
theorem Thread.pv_zero (t : Thread) : t.pv 0 = true ∧ t.isFull (.p 0) = true := by simp [Thread.pv, Thread.isFull]

/-- Writing p0 changes nothing (R23). -/
@[simp] theorem Thread.setP_zero (t : Thread) (b : Bool) : t.setP 0 b = t := by simp [Thread.setP, Thread.modP]

end Sys2Proof.Machine
end

