-- ==== Sys2Proof/Laws/Mem.lean ====
section
/-! SUPPORT. Memory: a read after a write, and the canonical form that every memory operation keeps (05_memory_spaces R93,
R94). -/

namespace Sys2Proof.Machine

/-! ## Reading after writing -/

theorem cellGet_cellPut_self (m : List Host.Cell) (x : Nat) (b : Byte) (lo : Nat) (h : cellsWf lo m = true) :
    cellGet (cellPut m x b) x = b := by
  induction m generalizing lo with
  | nil =>
    simp only [cellPut]
    split
    · rename_i e; simp [cellGet, e]
    · simp [cellGet]
  | cons e m ih =>
    obtain ⟨a, c⟩ := e
    simp only [cellsWf, Bool.and_eq_true, decide_eq_true_eq] at h
    simp only [cellPut]
    split
    · rename_i hx
      split
      · rename_i hb
        have hn : ∀ (l : List Host.Cell) (k : Nat), cellsWf k l = true → x < k → cellGet l x = unlistedByte := by
          intro l
          induction l with
          | nil => intros; rfl
          | cons e l ihl =>
            obtain ⟨y, d⟩ := e
            intro k hk hxk
            simp only [cellsWf, Bool.and_eq_true, decide_eq_true_eq] at hk
            have : ¬ y = x := by omega
            simp only [cellGet, this, if_false]
            exact ihl (y + 1) hk.2 (by omega)
        have : ¬ a = x := by omega
        simp only [cellGet, this, if_false, hb]
        exact hn m (a + 1) h.2 (by omega)
      · simp [cellGet]
    · split
      · rename_i hx he
        split
        · rename_i hb
          have hn : ∀ (l : List Host.Cell) (k : Nat), cellsWf k l = true → x < k → cellGet l x = unlistedByte := by
            intro l
            induction l with
            | nil => intros; rfl
            | cons e l ihl =>
              obtain ⟨y, d⟩ := e
              intro k hk hxk
              simp only [cellsWf, Bool.and_eq_true, decide_eq_true_eq] at hk
              have : ¬ y = x := by omega
              simp only [cellGet, this, if_false]
              exact ihl (y + 1) hk.2 (by omega)
          rw [hn m (a + 1) h.2 (by omega), hb]
        · simp [cellGet]
      · rename_i hx he
        simp only [cellGet, he, if_false]
        exact ih (a + 1) h.2

theorem cellGet_cellPut_ne (m : List Host.Cell) {x y : Nat} (b : Byte) (h : y ≠ x) :
    cellGet (cellPut m x b) y = cellGet m y := by
  induction m with
  | nil =>
    simp only [cellPut]
    split <;> simp [cellGet, Ne.symm h]
  | cons e m ih =>
    obtain ⟨a, c⟩ := e
    simp only [cellPut]
    split
    · split <;> simp [cellGet, Ne.symm h]
    · split
      · rename_i he
        subst he
        split <;> simp [cellGet, Ne.symm h]
      · simp only [cellGet, ih]

/-- A byte written in canonical memory reads as written (R93). -/
theorem Mem.byte_setByte_self (m : Mem) (x : Nat) (b : Byte) (h : m.wf = true) : (m.setByte x b).byte x = b := by
  simp only [Mem.wf, Bool.and_eq_true] at h
  exact cellGet_cellPut_self m.cells x b 0 h.1.1

/-- A byte written leaves every other byte alone. -/
theorem Mem.byte_setByte_ne (m : Mem) {x y : Nat} (b : Byte) (h : y ≠ x) : (m.setByte x b).byte y = m.byte y :=
  cellGet_cellPut_ne m.cells b h

/-- A write leaves every byte outside it alone. -/
theorem Mem.byte_writeN_out (m : Mem) (n : Nat) (loc v y : Nat) (h : y < loc ∨ loc + n ≤ y) :
    (m.writeN loc n v).byte y = m.byte y := by
  induction n generalizing m loc v with
  | zero => rfl
  | succ n ih =>
    simp only [Mem.writeN]
    rw [ih _ _ _ (by omega), Mem.byte_setByte_ne _ _ (by omega)]

@[simp] theorem Mem.byte_setFe (m : Mem) (x y : Nat) (b : Bool) : (m.setFe x b).byte y = m.byte y := rfl

@[simp] theorem Mem.byte_heal (m : Mem) (x n y : Nat) : (m.heal x n).byte y = m.byte y := rfl

@[simp] theorem Mem.byte_strike (m : Mem) (ws : List Nat) (y : Nat) : (m.strike ws).byte y = m.byte y := rfl

/-- A write leaves full/empty bits alone (R93). -/
@[simp] theorem Mem.fe_writeN (m : Mem) (n loc v x : Nat) : (m.writeN loc n v).fe x = m.fe x := by
  induction n generalizing m loc v with
  | zero => rfl
  | succ n ih => rw [Mem.writeN, ih]; rfl

/-! ## The canonical form -/

theorem cellsWf_mono (m : List Host.Cell) {a b : Nat} (h : cellsWf b m = true) (hab : a ≤ b) : cellsWf a m = true := by
  cases m with
  | nil => rfl
  | cons e m =>
    obtain ⟨x, c⟩ := e
    simp only [cellsWf, Bool.and_eq_true, decide_eq_true_eq] at h ⊢
    exact ⟨⟨by omega, h.1.2⟩, h.2⟩

theorem cellsWf_cellPut (m : List Host.Cell) (lo x : Nat) (b : Byte) (h : cellsWf lo m = true) (hx : lo ≤ x) :
    cellsWf lo (cellPut m x b) = true := by
  induction m generalizing lo with
  | nil =>
    simp only [cellPut]
    split
    · rfl
    · rename_i hb; simp [cellsWf, hx, hb]
  | cons e m ih =>
    obtain ⟨a, c⟩ := e
    simp only [cellPut]
    have h' := h
    simp only [cellsWf, Bool.and_eq_true, decide_eq_true_eq] at h'
    split
    · rename_i hxa
      split
      · exact h
      · rename_i hb
        simp only [cellsWf, Bool.and_eq_true, decide_eq_true_eq]
        exact ⟨⟨hx, by simpa using hb⟩, ⟨by omega, h'.1.2⟩, h'.2⟩
    · split
      · rename_i hxa he
        split
        · exact cellsWf_mono m h'.2 (by omega)
        · rename_i hb
          simp only [cellsWf, Bool.and_eq_true, decide_eq_true_eq]
          exact ⟨⟨hx, by simpa using hb⟩, by rw [← he]; exact h'.2⟩
      · rename_i hxa he
        simp only [cellsWf, Bool.and_eq_true, decide_eq_true_eq]
        exact ⟨h'.1, ih (a + 1) h'.2 (by omega)⟩

theorem cellsWf_filter (m : List Host.Cell) (p : Host.Cell → Bool) (lo : Nat) (h : cellsWf lo m = true) :
    cellsWf lo (m.filter p) = true := by
  induction m generalizing lo with
  | nil => rfl
  | cons e m ih =>
    obtain ⟨a, c⟩ := e
    simp only [cellsWf, Bool.and_eq_true, decide_eq_true_eq] at h
    simp only [List.filter_cons]
    split
    · simp only [cellsWf, Bool.and_eq_true, decide_eq_true_eq]
      exact ⟨h.1, ih (a + 1) h.2⟩
    · exact cellsWf_mono _ (ih (a + 1) h.2) (by omega)

theorem risesFrom_mono (l : List Nat) {a b : Nat} (h : risesFrom b l = true) (hab : a ≤ b) : risesFrom a l = true := by
  cases l with
  | nil => rfl
  | cons x l =>
    simp only [risesFrom, Bool.and_eq_true, decide_eq_true_eq] at h ⊢
    exact ⟨by omega, h.2⟩

theorem risesFrom_nadd (l : List Nat) (lo k : Nat) (h : risesFrom lo l = true) (hk : lo ≤ k) : risesFrom lo (nadd l k) = true := by
  induction l generalizing lo with
  | nil => simp [nadd, risesFrom, hk]
  | cons a l ih =>
    have h' := h
    simp only [risesFrom, Bool.and_eq_true, decide_eq_true_eq] at h'
    simp only [nadd]
    split
    · simp only [risesFrom, Bool.and_eq_true, decide_eq_true_eq]; exact ⟨hk, by omega, h'.2⟩
    · split
      · exact h
      · simp only [risesFrom, Bool.and_eq_true, decide_eq_true_eq]; exact ⟨h'.1, ih (a + 1) h'.2 (by omega)⟩

theorem risesFrom_filter (l : List Nat) (p : Nat → Bool) (lo : Nat) (h : risesFrom lo l = true) :
    risesFrom lo (l.filter p) = true := by
  induction l generalizing lo with
  | nil => rfl
  | cons a l ih =>
    simp only [risesFrom, Bool.and_eq_true, decide_eq_true_eq] at h
    simp only [List.filter_cons]
    split
    · simp only [risesFrom, Bool.and_eq_true, decide_eq_true_eq]; exact ⟨h.1, ih (a + 1) h.2⟩
    · exact risesFrom_mono _ (ih (a + 1) h.2) (by omega)

theorem Mem.wf_iff (m : Mem) :
    m.wf = true ↔ cellsWf 0 m.cells = true ∧ risesFrom 0 m.full = true ∧ risesFrom 0 m.poison = true := by
  simp [Mem.wf, and_assoc]

theorem Mem.wf_setByte (m : Mem) (loc : Nat) (b : Byte) (h : m.wf = true) : (m.setByte loc b).wf = true := by
  rw [Mem.wf_iff] at h ⊢
  exact ⟨cellsWf_cellPut m.cells 0 loc b h.1 (by omega), h.2⟩

/-- A write keeps the canonical form. -/
theorem Mem.wf_writeN (m : Mem) (n loc v : Nat) (h : m.wf = true) : (m.writeN loc n v).wf = true := by
  induction n generalizing m loc v with
  | zero => exact h
  | succ n ih => exact ih _ _ _ (Mem.wf_setByte m loc _ h)

/-- Setting a full/empty bit keeps the canonical form. -/
theorem Mem.wf_setFe (m : Mem) (loc : Nat) (b : Bool) (h : m.wf = true) : (m.setFe loc b).wf = true := by
  rw [Mem.wf_iff] at h ⊢
  refine ⟨h.1, ?_, h.2.2⟩
  simp only [Mem.setFe]
  split
  · exact risesFrom_nadd _ _ _ h.2.1 (by omega)
  · exact risesFrom_filter _ _ _ h.2.1

/-- Clearing words keeps the canonical form. -/
theorem Mem.wf_wipe (m : Mem) (loc n : Nat) (h : m.wf = true) : (m.wipe loc n).wf = true := by
  rw [Mem.wf_iff] at h ⊢
  exact ⟨cellsWf_filter _ _ _ h.1, risesFrom_filter _ _ _ h.2.1, risesFrom_filter _ _ _ h.2.2⟩

/-- Rewriting words whole keeps the canonical form. -/
theorem Mem.wf_heal (m : Mem) (loc n : Nat) (h : m.wf = true) : (m.heal loc n).wf = true := by
  rw [Mem.wf_iff] at h ⊢
  exact ⟨h.1, h.2.1, risesFrom_filter _ _ _ h.2.2⟩

/-- An uncorrectable error keeps the canonical form. -/
theorem Mem.wf_strike (m : Mem) (ws : List Nat) (h : m.wf = true) : (m.strike ws).wf = true := by
  rw [Mem.wf_iff] at h ⊢
  refine ⟨h.1, h.2.1, ?_⟩
  have : ∀ (l : List Nat), risesFrom 0 l = true → risesFrom 0 (ws.foldl nadd l) = true := by
    induction ws with
    | nil => intro l hl; exact hl
    | cons w ws ih => intro l hl; exact ih _ (risesFrom_nadd l 0 w hl (by omega))
  exact this _ h.2.2

/-- Reset memory is in canonical form. -/
theorem Mem.wf_reset : Mem.reset.wf = true := by decide

/-- The reset state's memory is in canonical form. -/
theorem State.reset_mem_wf : State.reset.mem.wf = true := by decide

/-- A memory update that keeps the canonical form keeps it in the state. -/
theorem State.modMem_wf (s : State) (f : Mem → Mem) (hf : ∀ m, m.wf = true → (f m).wf = true) (h : s.mem.wf = true) :
    (s.modMem f).mem.wf = true := hf _ h

end Sys2Proof.Machine
end

