-- ==== Sys2Proof/Laws/Ops.lean ====
section
/-! SUPPORT. What the shared operations answer: the course of an instruction (03_encoding R51), results, stops, traps and parks. -/

namespace Sys2Proof.Machine

/-! ## The course of an instruction -/

/-- A source that can be read passes its check. -/
theorem checkSrc_of_readable {s : State} {t : Thread} {before : List Src} {x : Src} (h : x.readable s t before = true) :
    checkSrc s s.cur t (fun n => readsOf n before) x = .ok () := by
  cases x with
  | x n idx tie =>
    simp only [Src.readable] at h
    simp only [checkSrc]
    split
    · rename_i hn; simp only [hn, if_true] at h; simp [h]
    · rename_i hn; simp only [hn, if_false] at h
      split
      · rename_i hk; simp only [hk, if_true] at h
        simp only [takeStop, Thread.boundTo]
        cases hb : t.kb (kIndex n) with
        | none => simp [hb] at h
        | some b => simp only [hb, Bool.and_eq_true, Bool.not_eq_true'] at h; simp [h]
      · rename_i hk; simp only [hk, Bool.false_eq_true, if_false] at h
        split
        · rename_i hq; simp only [hq, if_true] at h; simp [of_decide_eq_true h]
        · rename_i hq; simp only [hq, Bool.false_eq_true, if_false] at h; simp [of_decide_eq_true h]
  | v n idx tie => simp only [Src.readable] at h; simp [checkSrc, h]
  | p n idx tie => simp only [Src.readable] at h; simp [checkSrc, h]
  | sub n => simp only [Src.readable] at h; simp [checkSrc, h]

/-- Sources that can be read pass their checks. -/
theorem checkSrcs_of_readable {s : State} {t : Thread} : ∀ (l before : List Src), srcsReadable s t before l = true →
    checkSrcs s s.cur t before l = .ok ()
  | [], _, _ => rfl
  | x :: l, before, h => by
    simp only [srcsReadable, Bool.and_eq_true] at h
    simp only [checkSrcs, checkSrc_of_readable h.1]
    exact checkSrcs_of_readable l _ h.2

/-- A destination that accepts passes its check. -/
theorem checkDst_of_accepts {s : State} {t : Thread} {tie : Bool} {d : Dst} (h : d.accepts s t = true) :
    checkDst s t s.cur tie d = .ok () := by
  cases d with
  | x n =>
    simp only [Dst.accepts] at h
    simp only [checkDst]
    split
    · rename_i hn; simp only [hn, if_true, Bool.not_eq_true'] at h; simp [owedStop, h]
    · rename_i hn; simp only [hn, if_false] at h
      split
      · rename_i hk; simp only [hk, if_true] at h
        cases hb : t.kb (kIndex n) with
        | none => simp [hb] at h
        | some b =>
          simp only [hb, Bool.and_eq_true, Bool.not_eq_true', Option.isNone_iff_eq_none] at h
          obtain ⟨⟨⟨h1, h2⟩, h3⟩, h4⟩ := h
          simp [Thread.boundTo, hb, h1, h2, require, h3, State.portFree, h4, bind, Except.bind]
      · rename_i hk; simp only [hk, Bool.false_eq_true, if_false] at h
        split
        · rename_i hq
          simp only [hq, if_true, Bool.and_eq_true, bne_iff_ne, decide_eq_true_eq] at h
          rw [if_neg h.1, if_neg (Nat.not_le.mpr h.2)]
        · rename_i hq; simp only [hq, Bool.false_eq_true, if_false, Bool.not_eq_true'] at h; simp [h]
  | v n => simp only [Dst.accepts, Bool.not_eq_true'] at h; simp [checkDst, owedStop, h]
  | p n => simp only [Dst.accepts, Bool.not_eq_true'] at h; simp [checkDst, owedStop, h]

/-- Destinations that accept pass their checks. -/
theorem checkDsts_of_accept {s : State} {t : Thread} {tie : Bool} : ∀ (l : List Dst), l.all (Dst.accepts s t) = true →
    checkDsts s t s.cur tie l = .ok ()
  | [], _ => rfl
  | d :: l, h => by
    simp only [List.all_cons, Bool.and_eq_true] at h
    simp only [checkDsts, checkDst_of_accepts h.1]
    exact checkDsts_of_accept l h.2

/-- An instruction that can issue and whose predicate lets it execute runs its meaning. -/
theorem Issues.course {s : State} {t : Thread} {svc always : Bool} {srcs : List Src} {dsts : List Dst}
    (h : Issues s t svc srcs dsts) (hon : (always || (t.pv s.q.pred.toNat != s.q.inv)) = true)
    (body : Cx → State → Res State) :
    s.course s.cur t svc always srcs dsts body = body (s.cx t) (s.taken t srcs) := by
  have hc : (!isService (coreOf s.cur) && (svc || srcs.any Src.special || dsts.any Dst.special)) = false := by
    rcases h.core with h | h <;> simp [h]
  simp only [State.course, hc, predicate, h.pred, checkSrcs_of_readable _ _ h.reads, checkDsts_of_accept _ h.writes]
  cases always <;> simp_all [State.cx, State.taken]

/-- What `runIn` answers for such an instruction: the meaning's state, or the state after its stop. -/
theorem Issues.runIn {s : State} {t : Thread} {svc always : Bool} {srcs : List Src} {dsts : List Dst}
    (h : Issues s t svc srcs dsts) (hon : (always || (t.pv s.q.pred.toNat != s.q.inv)) = true)
    (body : Cx → State → Res State) :
    s.runIn svc always srcs dsts body = (match body (s.cx t) (s.taken t srcs) with
      | .ok s' => .next s'
      | .error e => .next (s.stopped s.cur t e)) := by
  simp only [State.runIn, h.slot, h.course hon]
  all_goals (cases body (s.cx t) (s.taken t srcs) <;> rfl)

/-- An instruction that executes and whose meaning gives a state goes on to it. -/
theorem Executes.next {s : State} {t : Thread} {svc always : Bool} {srcs : List Src} {dsts : List Dst}
    (h : Executes s t svc srcs dsts) {body : Cx → State → Res State} {s' : State}
    (hb : body (s.cx t) (s.taken t srcs) = .ok s') : s.runIn svc always srcs dsts body = .next s' := by
  rw [h.toIssues.runIn (by simp [h.on])]; simp [hb]

/-- The same for `run`. -/
theorem Executes.run {s : State} {t : Thread} {srcs : List Src} {dsts : List Dst}
    (h : Executes s t false srcs dsts) {body : Cx → State → Res State} {s' : State}
    (hb : body (s.cx t) (s.taken t srcs) = .ok s') : s.run srcs dsts body = .next s' := h.next hb

/-- No instruction's course answers with a fault or a refusal where the slot holds a thread. -/
theorem State.runIn_goes {s : State} {t : Thread} (h : s.thread s.cur = some t) (svc always : Bool) (srcs : List Src)
    (dsts : List Dst) (body : Cx → State → Res State) : ∃ s', s.runIn svc always srcs dsts body = .next s' := by
  simp only [State.runIn, h]
  cases s.course s.cur t svc always srcs dsts body with
  | ok s' => exact ⟨s', rfl⟩
  | error e => exact ⟨_, rfl⟩

/-- A predicated-off instruction only moves its thread on (R51). -/
theorem State.runIn_off {s : State} {t : Thread} {svc : Bool} {srcs : List Src} {dsts : List Dst}
    (slot : s.thread s.cur = some t)
    (core : isService (coreOf s.cur) = true ∨ (svc || srcs.any Src.special || dsts.any Dst.special) = false)
    (full : t.isFull (.p s.q.pred.toNat) = true) (off : (t.pv s.q.pred.toNat != s.q.inv) = false)
    (body : Cx → State → Res State) :
    s.runIn svc false srcs dsts body = .next (s.modT s.cur (fun x => { x with pc := s.npc t })) := by
  have hc : (!isService (coreOf s.cur) && (svc || srcs.any Src.special || dsts.any Dst.special)) = false := by
    rcases core with h | h <;> simp [h]
  simp [State.runIn, slot, State.course, hc, predicate, full, off]

/-! ## Results -/

/-- A g destination is written. -/
@[simp] theorem State.putX_g {s : State} {c : Cx} {n : Nat} {v : DW} (h : n < 24) :
    s.putX c n v = .ok (s.modT c.k (fun t => t.setG n v)) := by simp [State.putX, h]

/-- A g destination is owed its result. -/
@[simp] theorem State.oweX_g {s : State} {c : Cx} {n : Nat} {v : DW} {fl : BitVec 5} {fp acq : Bool} (h : n < 24) :
    s.oweX c n v fl fp acq = .ok (s.owe c.k [(.g n, v.setWidth 512)] none fl fp acq) := by simp [State.oweX, h]

@[simp] theorem State.cx_k (s : State) (t : Thread) : (s.cx t).k = s.cur := rfl
@[simp] theorem State.cx_t (s : State) (t : Thread) : (s.cx t).t = t := rfl
@[simp] theorem State.cx_q (s : State) (t : Thread) : (s.cx t).q = s.q := rfl
@[simp] theorem State.cx_s (s : State) (t : Thread) : (s.cx t).s = s := rfl

end Sys2Proof.Machine
end

