-- ==== Sys2Proof/Laws/Shapes.lean ====
section
/-! SUPPORT. What the shapes of the scalar meanings answer when their instruction executes: one lemma per shape. -/

namespace Sys2Proof.Machine

variable {s : State} {t : Thread}

theorem State.alu_next {o : Op} {f : DW → DW → DW} {v : DW} (h : Executes s t false (o.sx s.q ++ o.tx s.q) [.x o.dn])
    (hd : o.dn < 24) (hv : f ((s.cx t).sval o) ((s.cx t).tval o) = v) :
    s.alu o f = .next (s.after t (o.sx s.q ++ o.tx s.q) (fun x => x.setG o.dn v)) := by
  subst hv; exact h.run (by simp [hd, State.after])

theorem State.alu1_next {o : Op} {f : DW → DW} {v : DW} (h : Executes s t false (o.sx s.q) [.x o.dn]) (hd : o.dn < 24)
    (hv : f ((s.cx t).sval o) = v) : s.alu1 o f = .next (s.after t (o.sx s.q) (fun x => x.setG o.dn v)) := by
  subst hv; exact h.run (by simp [hd, State.after])

theorem State.aluImm_next {o : OpI} {f : DW → DW → DW} {v : DW}
    (h : Executes s t false [.x o.d.toNat 2 s.q.td] [.x o.d.toNat]) (hd : o.d.toNat < 24)
    (hv : f (t.gv o.d.toNat) (o.imm.signExtend 64) = v) :
    s.aluImm o f = .next (s.after t [.x o.d.toNat 2 s.q.td] (fun x => x.setG o.d.toNat v)) := by
  subst hv; exact h.run (by simp [hd, State.after, Cx.get])

theorem State.aluOwed_next {o : Op} {f : DW → DW → DW} {v : DW} (h : Executes s t false (o.sx s.q ++ o.tx s.q) [.x o.dn])
    (hd : o.dn < 24) (hv : f ((s.cx t).sval o) ((s.cx t).tval o) = v) :
    s.aluOwed o f =
      .next ((s.taken t (o.sx s.q ++ o.tx s.q)).owe s.cur [(.g o.dn, v.setWidth 512)] none 0 false false) := by
  subst hv; exact h.run (by simp [hd])

theorem State.cmp_next {o : Op} {f : DW → DW → Bool} {v : Bool} (h : Executes s t false (o.sx s.q ++ o.tx s.q) [.p o.dn])
    (hv : f ((s.cx t).sval o) ((s.cx t).tval o) = v) :
    s.cmp o f = .next (s.after t (o.sx s.q ++ o.tx s.q) (fun x => x.setP o.dn v)) := by
  subst hv; exact h.run rfl

theorem State.predOp_next {o : Op} {f : Bool → Bool → Bool} {v : Bool}
    (h : Executes s t false (.p o.sn 0 s.q.ts :: o.tp s.q) [.p o.dn])
    (hv : f (t.pv o.sn) (o.t.isReg && t.pv o.tn) = v) :
    s.predOp o f = .next (s.after t (.p o.sn 0 s.q.ts :: o.tp s.q) (fun x => x.setP o.dn v)) := by
  subst hv; exact h.run rfl

end Sys2Proof.Machine
end

