-- ==== Sys2Proof/Laws/Course.lean ====
section
/-! SUPPORT. Every instruction but SEL and TRET runs the course of 03_encoding R51: predicate, sources, destinations, meaning. -/

namespace Sys2Proof.Machine

/-- The instruction runs the course of R51. -/
def Courses (i : Instr) (s : State) : Prop := ∃ svc srcs dsts body, exec i s = s.runIn svc false srcs dsts body

theorem Courses.add (o : Op) (s : State) : Courses (.add o) s := ⟨_, _, _, _, rfl⟩
theorem Courses.sub (o : Op) (s : State) : Courses (.sub o) s := ⟨_, _, _, _, rfl⟩
theorem Courses.addi (o : OpI) (s : State) : Courses (.addi o) s := ⟨_, _, _, _, rfl⟩
theorem Courses.and (o : Op) (s : State) : Courses (.and o) s := ⟨_, _, _, _, rfl⟩
theorem Courses.or (o : Op) (s : State) : Courses (.or o) s := ⟨_, _, _, _, rfl⟩
theorem Courses.xor (o : Op) (s : State) : Courses (.xor o) s := ⟨_, _, _, _, rfl⟩
theorem Courses.andn (o : Op) (s : State) : Courses (.andn o) s := ⟨_, _, _, _, rfl⟩
theorem Courses.shl (o : Op) (s : State) : Courses (.shl o) s := ⟨_, _, _, _, rfl⟩
theorem Courses.shr (o : Op) (s : State) : Courses (.shr o) s := ⟨_, _, _, _, rfl⟩
theorem Courses.sar (o : Op) (s : State) : Courses (.sar o) s := ⟨_, _, _, _, rfl⟩
theorem Courses.shli (o : OpI) (s : State) : Courses (.shli o) s := ⟨_, _, _, _, rfl⟩
theorem Courses.shri (o : OpI) (s : State) : Courses (.shri o) s := ⟨_, _, _, _, rfl⟩
theorem Courses.sari (o : OpI) (s : State) : Courses (.sari o) s := ⟨_, _, _, _, rfl⟩
theorem Courses.mov (o : Op) (s : State) : Courses (.mov o) s := ⟨_, _, _, _, rfl⟩
theorem Courses.li (o : OpI) (s : State) : Courses (.li o) s := ⟨_, _, _, _, rfl⟩
theorem Courses.lea (o : Op) (s : State) : Courses (.lea o) s := ⟨_, _, _, _, rfl⟩
theorem Courses.cmpeq (o : Op) (s : State) : Courses (.cmpeq o) s := ⟨_, _, _, _, rfl⟩
theorem Courses.cmpne (o : Op) (s : State) : Courses (.cmpne o) s := ⟨_, _, _, _, rfl⟩
theorem Courses.cmplt (o : Op) (s : State) : Courses (.cmplt o) s := ⟨_, _, _, _, rfl⟩
theorem Courses.cmpltu (o : Op) (s : State) : Courses (.cmpltu o) s := ⟨_, _, _, _, rfl⟩
theorem Courses.cmpge (o : Op) (s : State) : Courses (.cmpge o) s := ⟨_, _, _, _, rfl⟩
theorem Courses.cmpgeu (o : Op) (s : State) : Courses (.cmpgeu o) s := ⟨_, _, _, _, rfl⟩
theorem Courses.ldb (o : Op) (s : State) : Courses (.ldb o) s := ⟨_, _, _, _, rfl⟩
theorem Courses.ldbu (o : Op) (s : State) : Courses (.ldbu o) s := ⟨_, _, _, _, rfl⟩
theorem Courses.ldh (o : Op) (s : State) : Courses (.ldh o) s := ⟨_, _, _, _, rfl⟩
theorem Courses.ldhu (o : Op) (s : State) : Courses (.ldhu o) s := ⟨_, _, _, _, rfl⟩
theorem Courses.ldw (o : Op) (s : State) : Courses (.ldw o) s := ⟨_, _, _, _, rfl⟩
theorem Courses.ldwu (o : Op) (s : State) : Courses (.ldwu o) s := ⟨_, _, _, _, rfl⟩
theorem Courses.ldd (o : Op) (s : State) : Courses (.ldd o) s := ⟨_, _, _, _, rfl⟩
theorem Courses.stb (o : Op) (s : State) : Courses (.stb o) s := ⟨_, _, _, _, rfl⟩
theorem Courses.sth (o : Op) (s : State) : Courses (.sth o) s := ⟨_, _, _, _, rfl⟩
theorem Courses.stw (o : Op) (s : State) : Courses (.stw o) s := ⟨_, _, _, _, rfl⟩
theorem Courses.std (o : Op) (s : State) : Courses (.std o) s := ⟨_, _, _, _, rfl⟩
theorem Courses.br (o : OpI) (s : State) : Courses (.br o) s := ⟨_, _, _, _, rfl⟩
theorem Courses.brp (o : OpI) (s : State) : Courses (.brp o) s := ⟨_, _, _, _, rfl⟩
theorem Courses.brn (o : OpI) (s : State) : Courses (.brn o) s := ⟨_, _, _, _, rfl⟩
theorem Courses.jmp (o : Op) (s : State) : Courses (.jmp o) s := ⟨_, _, _, _, rfl⟩
theorem Courses.call (o : OpI) (s : State) : Courses (.call o) s := ⟨_, _, _, _, rfl⟩
theorem Courses.callr (o : Op) (s : State) : Courses (.callr o) s := ⟨_, _, _, _, rfl⟩
theorem Courses.loop (o : OpI) (s : State) : Courses (.loop o) s := ⟨_, _, _, _, rfl⟩
theorem Courses.movs (o : OpI) (s : State) : Courses (.movs o) s := ⟨_, _, _, _, rfl⟩
theorem Courses.movsw (o : OpI) (s : State) : Courses (.movsw o) s := ⟨_, _, _, _, rfl⟩
theorem Courses.pand (o : Op) (s : State) : Courses (.pand o) s := ⟨_, _, _, _, rfl⟩
theorem Courses.por (o : Op) (s : State) : Courses (.por o) s := ⟨_, _, _, _, rfl⟩
theorem Courses.pxor (o : Op) (s : State) : Courses (.pxor o) s := ⟨_, _, _, _, rfl⟩
theorem Courses.pnot (o : Op) (s : State) : Courses (.pnot o) s := ⟨_, _, _, _, rfl⟩
theorem Courses.pmovg (o : Op) (s : State) : Courses (.pmovg o) s := by
  simp only [Courses, exec_pmovg, execPmovg]; split <;> exact ⟨_, _, _, _, rfl⟩
theorem Courses.pmovp (o : Op) (s : State) : Courses (.pmovp o) s := by
  simp only [Courses, exec_pmovp, execPmovp]; split <;> exact ⟨_, _, _, _, rfl⟩
theorem Courses.mul (o : Op) (s : State) : Courses (.mul o) s := ⟨_, _, _, _, rfl⟩
theorem Courses.mulh (o : Op) (s : State) : Courses (.mulh o) s := ⟨_, _, _, _, rfl⟩
theorem Courses.mulhu (o : Op) (s : State) : Courses (.mulhu o) s := ⟨_, _, _, _, rfl⟩
theorem Courses.div (o : Op) (s : State) : Courses (.div o) s := ⟨_, _, _, _, rfl⟩
theorem Courses.divu (o : Op) (s : State) : Courses (.divu o) s := ⟨_, _, _, _, rfl⟩
theorem Courses.rem (o : Op) (s : State) : Courses (.rem o) s := ⟨_, _, _, _, rfl⟩
theorem Courses.remu (o : Op) (s : State) : Courses (.remu o) s := ⟨_, _, _, _, rfl⟩
theorem Courses.min (o : Op) (s : State) : Courses (.min o) s := ⟨_, _, _, _, rfl⟩
theorem Courses.max (o : Op) (s : State) : Courses (.max o) s := ⟨_, _, _, _, rfl⟩
theorem Courses.minu (o : Op) (s : State) : Courses (.minu o) s := ⟨_, _, _, _, rfl⟩
theorem Courses.maxu (o : Op) (s : State) : Courses (.maxu o) s := ⟨_, _, _, _, rfl⟩
theorem Courses.clz (o : Op) (s : State) : Courses (.clz o) s := ⟨_, _, _, _, rfl⟩
theorem Courses.ctz (o : Op) (s : State) : Courses (.ctz o) s := ⟨_, _, _, _, rfl⟩
theorem Courses.popc (o : Op) (s : State) : Courses (.popc o) s := ⟨_, _, _, _, rfl⟩
theorem Courses.brev (o : Op) (s : State) : Courses (.brev o) s := ⟨_, _, _, _, rfl⟩
theorem Courses.bswap (o : Op) (s : State) : Courses (.bswap o) s := ⟨_, _, _, _, rfl⟩
theorem Courses.rol (o : Op) (s : State) : Courses (.rol o) s := ⟨_, _, _, _, rfl⟩
theorem Courses.ror (o : Op) (s : State) : Courses (.ror o) s := ⟨_, _, _, _, rfl⟩
theorem Courses.ext (o : Op) (s : State) : Courses (.ext o) s := ⟨_, _, _, _, rfl⟩
theorem Courses.ins (o : Op) (s : State) : Courses (.ins o) s := ⟨_, _, _, _, rfl⟩
theorem Courses.sxb (o : Op) (s : State) : Courses (.sxb o) s := ⟨_, _, _, _, rfl⟩
theorem Courses.sxh (o : Op) (s : State) : Courses (.sxh o) s := ⟨_, _, _, _, rfl⟩
theorem Courses.sxw (o : Op) (s : State) : Courses (.sxw o) s := ⟨_, _, _, _, rfl⟩
theorem Courses.zxb (o : Op) (s : State) : Courses (.zxb o) s := ⟨_, _, _, _, rfl⟩
theorem Courses.zxh (o : Op) (s : State) : Courses (.zxh o) s := ⟨_, _, _, _, rfl⟩
theorem Courses.zxw (o : Op) (s : State) : Courses (.zxw o) s := ⟨_, _, _, _, rfl⟩
theorem Courses.fadd (o : Op) (s : State) : Courses (.fadd o) s := ⟨_, _, _, _, rfl⟩
theorem Courses.fsub (o : Op) (s : State) : Courses (.fsub o) s := ⟨_, _, _, _, rfl⟩
theorem Courses.fmul (o : Op) (s : State) : Courses (.fmul o) s := ⟨_, _, _, _, rfl⟩
theorem Courses.fma (o : Op) (s : State) : Courses (.fma o) s := ⟨_, _, _, _, rfl⟩
theorem Courses.fdiv (o : Op) (s : State) : Courses (.fdiv o) s := ⟨_, _, _, _, rfl⟩
theorem Courses.fsqrt (o : Op) (s : State) : Courses (.fsqrt o) s := ⟨_, _, _, _, rfl⟩
theorem Courses.fmin (o : Op) (s : State) : Courses (.fmin o) s := ⟨_, _, _, _, rfl⟩
theorem Courses.fmax (o : Op) (s : State) : Courses (.fmax o) s := ⟨_, _, _, _, rfl⟩
theorem Courses.fcmpeq (o : Op) (s : State) : Courses (.fcmpeq o) s := ⟨_, _, _, _, rfl⟩
theorem Courses.fcmplt (o : Op) (s : State) : Courses (.fcmplt o) s := ⟨_, _, _, _, rfl⟩
theorem Courses.fcmple (o : Op) (s : State) : Courses (.fcmple o) s := ⟨_, _, _, _, rfl⟩
theorem Courses.fcvt (o : Op) (s : State) : Courses (.fcvt o) s := ⟨_, _, _, _, rfl⟩
theorem Courses.fclass (o : Op) (s : State) : Courses (.fclass o) s := ⟨_, _, _, _, rfl⟩
theorem Courses.ldfe (o : Op) (s : State) : Courses (.ldfe o) s := ⟨_, _, _, _, rfl⟩
theorem Courses.ldff (o : Op) (s : State) : Courses (.ldff o) s := ⟨_, _, _, _, rfl⟩
theorem Courses.stef (o : Op) (s : State) : Courses (.stef o) s := ⟨_, _, _, _, rfl⟩
theorem Courses.stff (o : Op) (s : State) : Courses (.stff o) s := ⟨_, _, _, _, rfl⟩
theorem Courses.sete (o : Op) (s : State) : Courses (.sete o) s := ⟨_, _, _, _, rfl⟩
theorem Courses.probe (o : Op) (s : State) : Courses (.probe o) s := ⟨_, _, _, _, rfl⟩
theorem Courses.lda (o : Op) (s : State) : Courses (.lda o) s := ⟨_, _, _, _, rfl⟩
theorem Courses.strl (o : Op) (s : State) : Courses (.strl o) s := ⟨_, _, _, _, rfl⟩
theorem Courses.stp (o : Op) (s : State) : Courses (.stp o) s := ⟨_, _, _, _, rfl⟩
theorem Courses.ldm (o : Op) (s : State) : Courses (.ldm o) s := ⟨_, _, _, _, rfl⟩
theorem Courses.stm (o : Op) (s : State) : Courses (.stm o) s := ⟨_, _, _, _, rfl⟩
theorem Courses.aadd (o : Op) (s : State) : Courses (.aadd o) s := ⟨_, _, _, _, rfl⟩
theorem Courses.aand (o : Op) (s : State) : Courses (.aand o) s := ⟨_, _, _, _, rfl⟩
theorem Courses.aor (o : Op) (s : State) : Courses (.aor o) s := ⟨_, _, _, _, rfl⟩
theorem Courses.axor (o : Op) (s : State) : Courses (.axor o) s := ⟨_, _, _, _, rfl⟩
theorem Courses.amin (o : Op) (s : State) : Courses (.amin o) s := ⟨_, _, _, _, rfl⟩
theorem Courses.amax (o : Op) (s : State) : Courses (.amax o) s := ⟨_, _, _, _, rfl⟩
theorem Courses.aminu (o : Op) (s : State) : Courses (.aminu o) s := ⟨_, _, _, _, rfl⟩
theorem Courses.amaxu (o : Op) (s : State) : Courses (.amaxu o) s := ⟨_, _, _, _, rfl⟩
theorem Courses.aswap (o : Op) (s : State) : Courses (.aswap o) s := ⟨_, _, _, _, rfl⟩
theorem Courses.acas (o : Op) (s : State) : Courses (.acas o) s := ⟨_, _, _, _, rfl⟩
theorem Courses.fence (o : Op) (s : State) : Courses (.fence o) s := ⟨_, _, _, _, rfl⟩
theorem Courses.watch (o : Op) (s : State) : Courses (.watch o) s := ⟨_, _, _, _, rfl⟩
theorem Courses.wait (o : Op) (s : State) : Courses (.wait o) s := ⟨_, _, _, _, rfl⟩
theorem Courses.cpy (o : Op) (s : State) : Courses (.cpy o) s := ⟨_, _, _, _, rfl⟩
theorem Courses.cpyt (o : OpP) (s : State) : Courses (.cpyt o) s := ⟨_, _, _, _, rfl⟩
theorem Courses.cpyw (o : Op) (s : State) : Courses (.cpyw o) s := ⟨_, _, _, _, rfl⟩
theorem Courses.cpyc (o : Op) (s : State) : Courses (.cpyc o) s := ⟨_, _, _, _, rfl⟩
theorem Courses.uien (o : Op) (s : State) : Courses (.uien o) s := ⟨_, _, _, _, rfl⟩
theorem Courses.vld (o : Op) (s : State) : Courses (.vld o) s := ⟨_, _, _, _, rfl⟩
theorem Courses.vst (o : Op) (s : State) : Courses (.vst o) s := ⟨_, _, _, _, rfl⟩
theorem Courses.vlds (o : Op) (s : State) : Courses (.vlds o) s := ⟨_, _, _, _, rfl⟩
theorem Courses.vsts (o : Op) (s : State) : Courses (.vsts o) s := ⟨_, _, _, _, rfl⟩
theorem Courses.vgath (o : Op) (s : State) : Courses (.vgath o) s := ⟨_, _, _, _, rfl⟩
theorem Courses.vscat (o : Op) (s : State) : Courses (.vscat o) s := ⟨_, _, _, _, rfl⟩
theorem Courses.vadd (o : Op) (s : State) : Courses (.vadd o) s := ⟨_, _, _, _, rfl⟩
theorem Courses.vsub (o : Op) (s : State) : Courses (.vsub o) s := ⟨_, _, _, _, rfl⟩
theorem Courses.vmul (o : Op) (s : State) : Courses (.vmul o) s := ⟨_, _, _, _, rfl⟩
theorem Courses.vfma (o : Op) (s : State) : Courses (.vfma o) s := ⟨_, _, _, _, rfl⟩
theorem Courses.vmin (o : Op) (s : State) : Courses (.vmin o) s := ⟨_, _, _, _, rfl⟩
theorem Courses.vmax (o : Op) (s : State) : Courses (.vmax o) s := ⟨_, _, _, _, rfl⟩
theorem Courses.vabs (o : Op) (s : State) : Courses (.vabs o) s := ⟨_, _, _, _, rfl⟩
theorem Courses.vneg (o : Op) (s : State) : Courses (.vneg o) s := ⟨_, _, _, _, rfl⟩
theorem Courses.vand (o : Op) (s : State) : Courses (.vand o) s := ⟨_, _, _, _, rfl⟩
theorem Courses.vor (o : Op) (s : State) : Courses (.vor o) s := ⟨_, _, _, _, rfl⟩
theorem Courses.vxor (o : Op) (s : State) : Courses (.vxor o) s := ⟨_, _, _, _, rfl⟩
theorem Courses.vshl (o : Op) (s : State) : Courses (.vshl o) s := ⟨_, _, _, _, rfl⟩
theorem Courses.vshr (o : Op) (s : State) : Courses (.vshr o) s := ⟨_, _, _, _, rfl⟩
theorem Courses.vcmp (o : Op) (s : State) : Courses (.vcmp o) s := ⟨_, _, _, _, rfl⟩
theorem Courses.vsel (o : Op) (s : State) : Courses (.vsel o) s := ⟨_, _, _, _, rfl⟩
theorem Courses.vrsum (o : Op) (s : State) : Courses (.vrsum o) s := ⟨_, _, _, _, rfl⟩
theorem Courses.vrmax (o : Op) (s : State) : Courses (.vrmax o) s := ⟨_, _, _, _, rfl⟩
theorem Courses.vrmin (o : Op) (s : State) : Courses (.vrmin o) s := ⟨_, _, _, _, rfl⟩
theorem Courses.vcvt (o : Op) (s : State) : Courses (.vcvt o) s := ⟨_, _, _, _, rfl⟩
theorem Courses.vbcast (o : Op) (s : State) : Courses (.vbcast o) s := ⟨_, _, _, _, rfl⟩
theorem Courses.vperm (o : Op) (s : State) : Courses (.vperm o) s := ⟨_, _, _, _, rfl⟩
theorem Courses.vext (o : Op) (s : State) : Courses (.vext o) s := ⟨_, _, _, _, rfl⟩
theorem Courses.vins (o : Op) (s : State) : Courses (.vins o) s := ⟨_, _, _, _, rfl⟩
theorem Courses.vdiv (o : Op) (s : State) : Courses (.vdiv o) s := ⟨_, _, _, _, rfl⟩
theorem Courses.vsqrt (o : Op) (s : State) : Courses (.vsqrt o) s := ⟨_, _, _, _, rfl⟩
theorem Courses.vdota (o : Op) (s : State) : Courses (.vdota o) s := ⟨_, _, _, _, rfl⟩
theorem Courses.mlease (o : Op) (s : State) : Courses (.mlease o) s := ⟨_, _, _, _, rfl⟩
theorem Courses.mldw (o : OpP) (s : State) : Courses (.mldw o) s := ⟨_, _, _, _, rfl⟩
theorem Courses.mmul (o : OpP) (s : State) : Courses (.mmul o) s := ⟨_, _, _, _, rfl⟩
theorem Courses.mmuls (o : OpP) (s : State) : Courses (.mmuls o) s := ⟨_, _, _, _, rfl⟩
theorem Courses.mdrain (o : OpP) (s : State) : Courses (.mdrain o) s := ⟨_, _, _, _, rfl⟩
theorem Courses.mstatStatus (o : Op) (s : State) : Courses (.mstatStatus o) s := ⟨_, _, _, _, rfl⟩
theorem Courses.mstatGovernor (o : Op) (s : State) : Courses (.mstatGovernor o) s := ⟨_, _, _, _, rfl⟩
theorem Courses.mstatCompleted (o : Op) (s : State) : Courses (.mstatCompleted o) s := ⟨_, _, _, _, rfl⟩
theorem Courses.mstatSegment (o : Op) (s : State) : Courses (.mstatSegment o) s := ⟨_, _, _, _, rfl⟩
theorem Courses.accw (o : Op) (s : State) : Courses (.accw o) s := ⟨_, _, _, _, rfl⟩
theorem Courses.accr (o : Op) (s : State) : Courses (.accr o) s := ⟨_, _, _, _, rfl⟩
theorem Courses.accz (o : Op) (s : State) : Courses (.accz o) s := ⟨_, _, _, _, rfl⟩
theorem Courses.bfmt (o : Op) (s : State) : Courses (.bfmt o) s := ⟨_, _, _, _, rfl⟩
theorem Courses.bfmtr (o : Op) (s : State) : Courses (.bfmtr o) s := ⟨_, _, _, _, rfl⟩
theorem Courses.launch (o : OpP) (s : State) : Courses (.launch o) s := ⟨_, _, _, _, rfl⟩
theorem Courses.spawn (o : Op) (s : State) : Courses (.spawn o) s := ⟨_, _, _, _, rfl⟩
theorem Courses.yieldSlot (o : Op) (s : State) : Courses (.yieldSlot o) s := ⟨_, _, _, _, rfl⟩
theorem Courses.yieldTimed (o : Op) (s : State) : Courses (.yieldTimed o) s := ⟨_, _, _, _, rfl⟩
theorem Courses.migr (o : Op) (s : State) : Courses (.migr o) s := ⟨_, _, _, _, rfl⟩
theorem Courses.tqpush (o : Op) (s : State) : Courses (.tqpush o) s := ⟨_, _, _, _, rfl⟩
theorem Courses.tqpop (o : Op) (s : State) : Courses (.tqpop o) s := ⟨_, _, _, _, rfl⟩
theorem Courses.tqsteal (o : Op) (s : State) : Courses (.tqsteal o) s := ⟨_, _, _, _, rfl⟩
theorem Courses.ccinitPhase (o : Op) (s : State) : Courses (.ccinitPhase o) s := ⟨_, _, _, _, rfl⟩
theorem Courses.ccinitJob (o : Op) (s : State) : Courses (.ccinitJob o) s := ⟨_, _, _, _, rfl⟩
theorem Courses.ccadd (o : Op) (s : State) : Courses (.ccadd o) s := ⟨_, _, _, _, rfl⟩
theorem Courses.ccwait (o : Op) (s : State) : Courses (.ccwait o) s := ⟨_, _, _, _, rfl⟩
theorem Courses.ccan (o : Op) (s : State) : Courses (.ccan o) s := ⟨_, _, _, _, rfl⟩
theorem Courses.bsetRead (o : Op) (s : State) : Courses (.bsetRead o) s := ⟨_, _, _, _, rfl⟩
theorem Courses.bsetWrite (o : Op) (s : State) : Courses (.bsetWrite o) s := ⟨_, _, _, _, rfl⟩
theorem Courses.bar (o : Op) (s : State) : Courses (.bar o) s := ⟨_, _, _, _, rfl⟩
theorem Courses.barw (o : Op) (s : State) : Courses (.barw o) s := ⟨_, _, _, _, rfl⟩
theorem Courses.graph (o : OpP) (s : State) : Courses (.graph o) s := ⟨_, _, _, _, rfl⟩
theorem Courses.pbind (o : Op) (s : State) : Courses (.pbind o) s := ⟨_, _, _, _, rfl⟩
theorem Courses.punb (o : Op) (s : State) : Courses (.punb o) s := ⟨_, _, _, _, rfl⟩
theorem Courses.pput (o : Op) (s : State) : Courses (.pput o) s := ⟨_, _, _, _, rfl⟩
theorem Courses.pget (o : Op) (s : State) : Courses (.pget o) s := ⟨_, _, _, _, rfl⟩
theorem Courses.pputv (o : Op) (s : State) : Courses (.pputv o) s := ⟨_, _, _, _, rfl⟩
theorem Courses.pgetv (o : Op) (s : State) : Courses (.pgetv o) s := ⟨_, _, _, _, rfl⟩
theorem Courses.ptry (o : Op) (s : State) : Courses (.ptry o) s := ⟨_, _, _, _, rfl⟩
theorem Courses.pwdr (o : Op) (s : State) : Courses (.pwdr o) s := ⟨_, _, _, _, rfl⟩
theorem Courses.cload (o : Op) (s : State) : Courses (.cload o) s := ⟨_, _, _, _, rfl⟩
theorem Courses.cstart (o : Op) (s : State) : Courses (.cstart o) s := ⟨_, _, _, _, rfl⟩
theorem Courses.cstopStop (o : Op) (s : State) : Courses (.cstopStop o) s := ⟨_, _, _, _, rfl⟩
theorem Courses.cstopFree (o : Op) (s : State) : Courses (.cstopFree o) s := ⟨_, _, _, _, rfl⟩
theorem Courses.cstatConnector (o : Op) (s : State) : Courses (.cstatConnector o) s := ⟨_, _, _, _, rfl⟩
theorem Courses.cstatRegion (o : Op) (s : State) : Courses (.cstatRegion o) s := ⟨_, _, _, _, rfl⟩
theorem Courses.cstatPort (o : Op) (s : State) : Courses (.cstatPort o) s := ⟨_, _, _, _, rfl⟩
theorem Courses.cstatBinding (o : Op) (s : State) : Courses (.cstatBinding o) s := ⟨_, _, _, _, rfl⟩
theorem Courses.wmark (o : Op) (s : State) : Courses (.wmark o) s := ⟨_, _, _, _, rfl⟩
theorem Courses.widle (o : Op) (s : State) : Courses (.widle o) s := ⟨_, _, _, _, rfl⟩
theorem Courses.wbind (o : Op) (s : State) : Courses (.wbind o) s := ⟨_, _, _, _, rfl⟩
theorem Courses.wnext (o : Op) (s : State) : Courses (.wnext o) s := ⟨_, _, _, _, rfl⟩
theorem Courses.wpub (o : Op) (s : State) : Courses (.wpub o) s := ⟨_, _, _, _, rfl⟩
theorem Courses.wamend (o : Op) (s : State) : Courses (.wamend o) s := ⟨_, _, _, _, rfl⟩
theorem Courses.wcloseDrain (o : Op) (s : State) : Courses (.wcloseDrain o) s := ⟨_, _, _, _, rfl⟩
theorem Courses.wcloseDiscard (o : Op) (s : State) : Courses (.wcloseDiscard o) s := ⟨_, _, _, _, rfl⟩
theorem Courses.wcloseStatus (o : Op) (s : State) : Courses (.wcloseStatus o) s := ⟨_, _, _, _, rfl⟩
theorem Courses.wcloseWatermark (o : Op) (s : State) : Courses (.wcloseWatermark o) s := ⟨_, _, _, _, rfl⟩
theorem Courses.osend (o : Op) (s : State) : Courses (.osend o) s := ⟨_, _, _, _, rfl⟩
theorem Courses.oqcfgRead (o : Op) (s : State) : Courses (.oqcfgRead o) s := ⟨_, _, _, _, rfl⟩
theorem Courses.oqcfgWrite (o : Op) (s : State) : Courses (.oqcfgWrite o) s := ⟨_, _, _, _, rfl⟩
theorem Courses.ostatQueue (o : Op) (s : State) : Courses (.ostatQueue o) s := ⟨_, _, _, _, rfl⟩
theorem Courses.ostatPort (o : Op) (s : State) : Courses (.ostatPort o) s := ⟨_, _, _, _, rfl⟩
theorem Courses.ostatRelay (o : Op) (s : State) : Courses (.ostatRelay o) s := ⟨_, _, _, _, rfl⟩
theorem Courses.ocalRead (o : Op) (s : State) : Courses (.ocalRead o) s := ⟨_, _, _, _, rfl⟩
theorem Courses.ocalWrite (o : Op) (s : State) : Courses (.ocalWrite o) s := ⟨_, _, _, _, rfl⟩
theorem Courses.owaitTime (o : Op) (s : State) : Courses (.owaitTime o) s := ⟨_, _, _, _, rfl⟩
theorem Courses.owaitSlot (o : Op) (s : State) : Courses (.owaitSlot o) s := ⟨_, _, _, _, rfl⟩
theorem Courses.trap (o : Op) (s : State) : Courses (.trap o) s := ⟨_, _, _, _, rfl⟩
theorem Courses.jrnl (o : Op) (s : State) : Courses (.jrnl o) s := ⟨_, _, _, _, rfl⟩
theorem Courses.jrclFree (o : Op) (s : State) : Courses (.jrclFree o) s := ⟨_, _, _, _, rfl⟩
theorem Courses.jrclReplay (o : Op) (s : State) : Courses (.jrclReplay o) s := ⟨_, _, _, _, rfl⟩
theorem Courses.jrclRedirect (o : Op) (s : State) : Courses (.jrclRedirect o) s := ⟨_, _, _, _, rfl⟩
theorem Courses.plbiAddress (o : Op) (s : State) : Courses (.plbiAddress o) s := ⟨_, _, _, _, rfl⟩
theorem Courses.plbiCore (o : Op) (s : State) : Courses (.plbiCore o) s := ⟨_, _, _, _, rfl⟩
theorem Courses.plbiModule (o : Op) (s : State) : Courses (.plbiModule o) s := ⟨_, _, _, _, rfl⟩
theorem Courses.ctxs (o : Op) (s : State) : Courses (.ctxs o) s := ⟨_, _, _, _, rfl⟩
theorem Courses.ctxl (o : Op) (s : State) : Courses (.ctxl o) s := ⟨_, _, _, _, rfl⟩
theorem Courses.haltSelf (o : Op) (s : State) : Courses (.haltSelf o) s := ⟨_, _, _, _, rfl⟩
theorem Courses.haltFence (o : Op) (s : State) : Courses (.haltFence o) s := ⟨_, _, _, _, rfl⟩
theorem Courses.haltUnfence (o : Op) (s : State) : Courses (.haltUnfence o) s := ⟨_, _, _, _, rfl⟩
theorem Courses.domsw (o : Op) (s : State) : Courses (.domsw o) s := ⟨_, _, _, _, rfl⟩
theorem Courses.waymRead (o : Op) (s : State) : Courses (.waymRead o) s := ⟨_, _, _, _, rfl⟩
theorem Courses.waymRequest (o : Op) (s : State) : Courses (.waymRequest o) s := ⟨_, _, _, _, rfl⟩
theorem Courses.scrub (o : Op) (s : State) : Courses (.scrub o) s := ⟨_, _, _, _, rfl⟩
theorem Courses.preemptReady (o : Op) (s : State) : Courses (.preemptReady o) s := ⟨_, _, _, _, rfl⟩
theorem Courses.preemptHold (o : Op) (s : State) : Courses (.preemptHold o) s := ⟨_, _, _, _, rfl⟩
theorem Courses.preemptRelease (o : Op) (s : State) : Courses (.preemptRelease o) s := ⟨_, _, _, _, rfl⟩
theorem Courses.ret (s : State) : Courses .ret s := ⟨_, _, _, _, rfl⟩
theorem Courses.nop (s : State) : Courses .nop s := ⟨_, _, _, _, rfl⟩
theorem Courses.uiret (s : State) : Courses .uiret s := ⟨_, _, _, _, rfl⟩
theorem Courses.mrels (s : State) : Courses .mrels s := ⟨_, _, _, _, rfl⟩
theorem Courses.mzero (s : State) : Courses .mzero s := ⟨_, _, _, _, rfl⟩
theorem Courses.exit (s : State) : Courses .exit s := ⟨_, _, _, _, rfl⟩
theorem Courses.brk (s : State) : Courses .brk s := ⟨_, _, _, _, rfl⟩

/-- TRET runs the course in a handler, and is illegal elsewhere (R383). -/
theorem State.tret_goes {s : State} {t : Thread} (h : s.thread s.cur = some t) (o : Op) : ∃ s', s.tret o = .next s' := by
  unfold State.tret
  split
  · simp only [State.illegal, h]; exact ⟨_, rfl⟩
  · exact State.runIn_goes h _ _ _ _ _

/-- Every instruction but SEL and TRET runs the course. -/
theorem exec_courses (i : Instr) (s : State) (h : i.body.isSome = true) (hs : ∀ o, i ≠ .sel o)
    (ht : ∀ o, i ≠ .tretReissue o ∧ i ≠ .tretSkip o) : Courses i s := by
  cases i with
  | add o => exact .add o s
  | sub o => exact .sub o s
  | addi o => exact .addi o s
  | and o => exact .and o s
  | or o => exact .or o s
  | xor o => exact .xor o s
  | andn o => exact .andn o s
  | shl o => exact .shl o s
  | shr o => exact .shr o s
  | sar o => exact .sar o s
  | shli o => exact .shli o s
  | shri o => exact .shri o s
  | sari o => exact .sari o s
  | mov o => exact .mov o s
  | li o => exact .li o s
  | lea o => exact .lea o s
  | cmpeq o => exact .cmpeq o s
  | cmpne o => exact .cmpne o s
  | cmplt o => exact .cmplt o s
  | cmpltu o => exact .cmpltu o s
  | cmpge o => exact .cmpge o s
  | cmpgeu o => exact .cmpgeu o s
  | sel o => exact absurd rfl (hs o)
  | ldb o => exact .ldb o s
  | ldbu o => exact .ldbu o s
  | ldh o => exact .ldh o s
  | ldhu o => exact .ldhu o s
  | ldw o => exact .ldw o s
  | ldwu o => exact .ldwu o s
  | ldd o => exact .ldd o s
  | stb o => exact .stb o s
  | sth o => exact .sth o s
  | stw o => exact .stw o s
  | std o => exact .std o s
  | br o => exact .br o s
  | brp o => exact .brp o s
  | brn o => exact .brn o s
  | jmp o => exact .jmp o s
  | call o => exact .call o s
  | callr o => exact .callr o s
  | loop o => exact .loop o s
  | movs o => exact .movs o s
  | movsw o => exact .movsw o s
  | pand o => exact .pand o s
  | por o => exact .por o s
  | pxor o => exact .pxor o s
  | pnot o => exact .pnot o s
  | pmovg o => exact .pmovg o s
  | pmovp o => exact .pmovp o s
  | mul o => exact .mul o s
  | mulh o => exact .mulh o s
  | mulhu o => exact .mulhu o s
  | div o => exact .div o s
  | divu o => exact .divu o s
  | rem o => exact .rem o s
  | remu o => exact .remu o s
  | min o => exact .min o s
  | max o => exact .max o s
  | minu o => exact .minu o s
  | maxu o => exact .maxu o s
  | clz o => exact .clz o s
  | ctz o => exact .ctz o s
  | popc o => exact .popc o s
  | brev o => exact .brev o s
  | bswap o => exact .bswap o s
  | rol o => exact .rol o s
  | ror o => exact .ror o s
  | ext o => exact .ext o s
  | ins o => exact .ins o s
  | sxb o => exact .sxb o s
  | sxh o => exact .sxh o s
  | sxw o => exact .sxw o s
  | zxb o => exact .zxb o s
  | zxh o => exact .zxh o s
  | zxw o => exact .zxw o s
  | fadd o => exact .fadd o s
  | fsub o => exact .fsub o s
  | fmul o => exact .fmul o s
  | fma o => exact .fma o s
  | fdiv o => exact .fdiv o s
  | fsqrt o => exact .fsqrt o s
  | fmin o => exact .fmin o s
  | fmax o => exact .fmax o s
  | fcmpeq o => exact .fcmpeq o s
  | fcmplt o => exact .fcmplt o s
  | fcmple o => exact .fcmple o s
  | fcvt o => exact .fcvt o s
  | fclass o => exact .fclass o s
  | ldfe o => exact .ldfe o s
  | ldff o => exact .ldff o s
  | stef o => exact .stef o s
  | stff o => exact .stff o s
  | sete o => exact .sete o s
  | probe o => exact .probe o s
  | lda o => exact .lda o s
  | strl o => exact .strl o s
  | stp o => exact .stp o s
  | ldm o => exact .ldm o s
  | stm o => exact .stm o s
  | aadd o => exact .aadd o s
  | aand o => exact .aand o s
  | aor o => exact .aor o s
  | axor o => exact .axor o s
  | amin o => exact .amin o s
  | amax o => exact .amax o s
  | aminu o => exact .aminu o s
  | amaxu o => exact .amaxu o s
  | aswap o => exact .aswap o s
  | acas o => exact .acas o s
  | fence o => exact .fence o s
  | watch o => exact .watch o s
  | wait o => exact .wait o s
  | cpy o => exact .cpy o s
  | cpyt o => exact .cpyt o s
  | cpyw o => exact .cpyw o s
  | cpyc o => exact .cpyc o s
  | uien o => exact .uien o s
  | vld o => exact .vld o s
  | vst o => exact .vst o s
  | vlds o => exact .vlds o s
  | vsts o => exact .vsts o s
  | vgath o => exact .vgath o s
  | vscat o => exact .vscat o s
  | vadd o => exact .vadd o s
  | vsub o => exact .vsub o s
  | vmul o => exact .vmul o s
  | vfma o => exact .vfma o s
  | vmin o => exact .vmin o s
  | vmax o => exact .vmax o s
  | vabs o => exact .vabs o s
  | vneg o => exact .vneg o s
  | vand o => exact .vand o s
  | vor o => exact .vor o s
  | vxor o => exact .vxor o s
  | vshl o => exact .vshl o s
  | vshr o => exact .vshr o s
  | vcmp o => exact .vcmp o s
  | vsel o => exact .vsel o s
  | vrsum o => exact .vrsum o s
  | vrmax o => exact .vrmax o s
  | vrmin o => exact .vrmin o s
  | vcvt o => exact .vcvt o s
  | vbcast o => exact .vbcast o s
  | vperm o => exact .vperm o s
  | vext o => exact .vext o s
  | vins o => exact .vins o s
  | vdiv o => exact .vdiv o s
  | vsqrt o => exact .vsqrt o s
  | vdota o => exact .vdota o s
  | mlease o => exact .mlease o s
  | mldw o => exact .mldw o s
  | mmul o => exact .mmul o s
  | mmuls o => exact .mmuls o s
  | mdrain o => exact .mdrain o s
  | mstatStatus o => exact .mstatStatus o s
  | mstatGovernor o => exact .mstatGovernor o s
  | mstatCompleted o => exact .mstatCompleted o s
  | mstatSegment o => exact .mstatSegment o s
  | accw o => exact .accw o s
  | accr o => exact .accr o s
  | accz o => exact .accz o s
  | bfmt o => exact .bfmt o s
  | bfmtr o => exact .bfmtr o s
  | launch o => exact .launch o s
  | spawn o => exact .spawn o s
  | yieldSlot o => exact .yieldSlot o s
  | yieldTimed o => exact .yieldTimed o s
  | migr o => exact .migr o s
  | tqpush o => exact .tqpush o s
  | tqpop o => exact .tqpop o s
  | tqsteal o => exact .tqsteal o s
  | ccinitPhase o => exact .ccinitPhase o s
  | ccinitJob o => exact .ccinitJob o s
  | ccadd o => exact .ccadd o s
  | ccwait o => exact .ccwait o s
  | ccan o => exact .ccan o s
  | bsetRead o => exact .bsetRead o s
  | bsetWrite o => exact .bsetWrite o s
  | bar o => exact .bar o s
  | barw o => exact .barw o s
  | graph o => exact .graph o s
  | pbind o => exact .pbind o s
  | punb o => exact .punb o s
  | pput o => exact .pput o s
  | pget o => exact .pget o s
  | pputv o => exact .pputv o s
  | pgetv o => exact .pgetv o s
  | ptry o => exact .ptry o s
  | pwdr o => exact .pwdr o s
  | cload o => exact .cload o s
  | cstart o => exact .cstart o s
  | cstopStop o => exact .cstopStop o s
  | cstopFree o => exact .cstopFree o s
  | cstatConnector o => exact .cstatConnector o s
  | cstatRegion o => exact .cstatRegion o s
  | cstatPort o => exact .cstatPort o s
  | cstatBinding o => exact .cstatBinding o s
  | wmark o => exact .wmark o s
  | widle o => exact .widle o s
  | wbind o => exact .wbind o s
  | wnext o => exact .wnext o s
  | wpub o => exact .wpub o s
  | wamend o => exact .wamend o s
  | wcloseDrain o => exact .wcloseDrain o s
  | wcloseDiscard o => exact .wcloseDiscard o s
  | wcloseStatus o => exact .wcloseStatus o s
  | wcloseWatermark o => exact .wcloseWatermark o s
  | osend o => exact .osend o s
  | oqcfgRead o => exact .oqcfgRead o s
  | oqcfgWrite o => exact .oqcfgWrite o s
  | ostatQueue o => exact .ostatQueue o s
  | ostatPort o => exact .ostatPort o s
  | ostatRelay o => exact .ostatRelay o s
  | ocalRead o => exact .ocalRead o s
  | ocalWrite o => exact .ocalWrite o s
  | owaitTime o => exact .owaitTime o s
  | owaitSlot o => exact .owaitSlot o s
  | trap o => exact .trap o s
  | tretReissue o => exact absurd rfl (ht o).1
  | tretSkip o => exact absurd rfl (ht o).2
  | jrnl o => exact .jrnl o s
  | jrclFree o => exact .jrclFree o s
  | jrclReplay o => exact .jrclReplay o s
  | jrclRedirect o => exact .jrclRedirect o s
  | plbiAddress o => exact .plbiAddress o s
  | plbiCore o => exact .plbiCore o s
  | plbiModule o => exact .plbiModule o s
  | ctxs o => exact .ctxs o s
  | ctxl o => exact .ctxl o s
  | haltSelf o => exact .haltSelf o s
  | haltFence o => exact .haltFence o s
  | haltUnfence o => exact .haltUnfence o s
  | domsw o => exact .domsw o s
  | waymRead o => exact .waymRead o s
  | waymRequest o => exact .waymRequest o s
  | scrub o => exact .scrub o s
  | preemptReady o => exact .preemptReady o s
  | preemptHold o => exact .preemptHold o s
  | preemptRelease o => exact .preemptRelease o s
  | ret => exact .ret s
  | nop => exact .nop s
  | uiret => exact .uiret s
  | mrels => exact .mrels s
  | mzero => exact .mzero s
  | exit => exact .exit s
  | brk => exact .brk s
  | powerUp => cases h
  | rootSelfTest => cases h
  | loaderCopy => cases h
  | linkTraining => cases h
  | plynvasLoad => cases h
  | readyReport => cases h
  | instructionFill => cases h
  | owedResultWrite => cases h
  | loadReturn => cases h
  | storeDrain => cases h
  | storePerform => cases h
  | atomicPerform => cases h
  | clockPacketArrival => cases h
  | clockProbe => cases h
  | syncAccessAtHome => cases h
  | syncTryFailReturn => cases h
  | syncResend => cases h
  | withdrawalAtHome => cases h
  | waitlimExpiry => cases h
  | burstWindowClose => cases h
  | burstFill => cases h
  | controllerRequest => cases h
  | wayChangeover => cases h
  | plbFill => cases h
  | copyAccept => cases h
  | copyUnitWrite => cases h
  | copyComplete => cases h
  | copyUnitTimeout => cases h
  | watchArmAtHome => cases h
  | watchWakeArrival => cases h
  | uiEntry => cases h
  | asyncTrapEntry => cases h
  | wakeDuty => cases h
  | cancelAtBoundary => cases h
  | journalAck => cases h
  | journalRefusal => cases h
  | storeRefusal => cases h
  | faultReportArrival => cases h
  | mapMessage => cases h
  | declineMessage => cases h
  | wakeMessage => cases h
  | serviceResponse => cases h
  | svcStatus => cases h
  | svcPartitionConfig => cases h
  | svcJobLoad => cases h
  | svcJobStart => cases h
  | svcJobCancel => cases h
  | svcFaultRecords => cases h
  | svcAttest => cases h
  | svcFirmwareUpdate => cases h
  | launchStart => cases h
  | releaseFlushDone => cases h
  | slotAssign => cases h
  | threadStart => cases h
  | contextSwapOut => cases h
  | contextRestore => cases h
  | migrationReservation => cases h
  | migrationArrival => cases h
  | barrierRowCompletion => cases h
  | barrierColumnCompletion => cases h
  | barrierRelease => cases h
  | yieldDeadline => cases h
  | yieldReadyTimeout => cases h
  | leaseGrant => cases h
  | leaseCycleLimit => cases h
  | plankAccept => cases h
  | governorStart => cases h
  | plankCommandEnd => cases h
  | portRequestArrival => cases h
  | carderStep => cases h
  | idleTimeout => cases h
  | portCompletionArrival => cases h
  | carderCompletionTimeout => cases h
  | bufferItemArrival => cases h
  | creditArrival => cases h
  | watermarkTokenArrival => cases h
  | brimRecord => cases h
  | brimWatermarkMessage => cases h
  | frameMarker => cases h
  | frameSend => cases h
  | frameReceive => cases h
  | ackFrameReceive => cases h
  | completionAckArrival => cases h
  | frameResendDue => cases h
  | relayDiscard => cases h
  | queueResetArrival => cases h
  | osendBytesHeld => cases h
  | gangTick => cases h
  | bandboxExchangeDone => cases h
  | saveDeadline => cases h
  | gangLateTimeout => cases h
  | gschedTakeEffect => cases h
  | faultEvent => cases h
  | unitReplacementDone => cases h
  | linkCheckFailure => cases h
  | laneFailure => cases h
  | plankStateError => cases h
  | ethIncomingWrite => cases h
  | ethIncomingSend => cases h
  | ethTailNotify => cases h
  | ethOperationEnd => cases h
  | ingressSend => cases h
  | ingressOpComplete => cases h
  | ingressBind => cases h
  | ingressUnbind => cases h
  | thermalOverTemp => cases h
  | thermalTrip => cases h
  | pcfgWrite => cases h
  | pgrpWrite => cases h
  | pnextWrite => cases h
  | gschedWrite => cases h
  | wshareWrite => cases h
  | frelWrite => cases h
  | configWrite => cases h
  | kSourceTake => cases h
  | kDestinationOffer => cases h
  | qPop => cases h
  | qEnginePush => cases h
  | evqPop => cases h
  | msgWrite => cases h
  | missingMarker => cases h
  | rotorEvent => cases h
  | ccwaitResend => cases h
  | writeQueueDrain => cases h
  | writeAcknowledgement => cases h
  | waiterWakeArrival => cases h
  | powerLoss => cases h
  | connectionSetup => cases h
  | ethIncomingRead => cases h
  | remoteAtomicOperation => cases h

/-- Every event goes on to a next state. -/
theorem exec_event_goes (i : Instr) (s : State) (h : i.body = none) : ∃ s', exec i s = .next s' := by
  cases i with
  | add => cases h
  | sub => cases h
  | addi => cases h
  | and => cases h
  | or => cases h
  | xor => cases h
  | andn => cases h
  | shl => cases h
  | shr => cases h
  | sar => cases h
  | shli => cases h
  | shri => cases h
  | sari => cases h
  | mov => cases h
  | li => cases h
  | lea => cases h
  | cmpeq => cases h
  | cmpne => cases h
  | cmplt => cases h
  | cmpltu => cases h
  | cmpge => cases h
  | cmpgeu => cases h
  | sel => cases h
  | ldb => cases h
  | ldbu => cases h
  | ldh => cases h
  | ldhu => cases h
  | ldw => cases h
  | ldwu => cases h
  | ldd => cases h
  | stb => cases h
  | sth => cases h
  | stw => cases h
  | std => cases h
  | br => cases h
  | brp => cases h
  | brn => cases h
  | jmp => cases h
  | call => cases h
  | callr => cases h
  | loop => cases h
  | movs => cases h
  | movsw => cases h
  | pand => cases h
  | por => cases h
  | pxor => cases h
  | pnot => cases h
  | pmovg => cases h
  | pmovp => cases h
  | mul => cases h
  | mulh => cases h
  | mulhu => cases h
  | div => cases h
  | divu => cases h
  | rem => cases h
  | remu => cases h
  | min => cases h
  | max => cases h
  | minu => cases h
  | maxu => cases h
  | clz => cases h
  | ctz => cases h
  | popc => cases h
  | brev => cases h
  | bswap => cases h
  | rol => cases h
  | ror => cases h
  | ext => cases h
  | ins => cases h
  | sxb => cases h
  | sxh => cases h
  | sxw => cases h
  | zxb => cases h
  | zxh => cases h
  | zxw => cases h
  | fadd => cases h
  | fsub => cases h
  | fmul => cases h
  | fma => cases h
  | fdiv => cases h
  | fsqrt => cases h
  | fmin => cases h
  | fmax => cases h
  | fcmpeq => cases h
  | fcmplt => cases h
  | fcmple => cases h
  | fcvt => cases h
  | fclass => cases h
  | ldfe => cases h
  | ldff => cases h
  | stef => cases h
  | stff => cases h
  | sete => cases h
  | probe => cases h
  | lda => cases h
  | strl => cases h
  | stp => cases h
  | ldm => cases h
  | stm => cases h
  | aadd => cases h
  | aand => cases h
  | aor => cases h
  | axor => cases h
  | amin => cases h
  | amax => cases h
  | aminu => cases h
  | amaxu => cases h
  | aswap => cases h
  | acas => cases h
  | fence => cases h
  | watch => cases h
  | wait => cases h
  | cpy => cases h
  | cpyt => cases h
  | cpyw => cases h
  | cpyc => cases h
  | uien => cases h
  | vld => cases h
  | vst => cases h
  | vlds => cases h
  | vsts => cases h
  | vgath => cases h
  | vscat => cases h
  | vadd => cases h
  | vsub => cases h
  | vmul => cases h
  | vfma => cases h
  | vmin => cases h
  | vmax => cases h
  | vabs => cases h
  | vneg => cases h
  | vand => cases h
  | vor => cases h
  | vxor => cases h
  | vshl => cases h
  | vshr => cases h
  | vcmp => cases h
  | vsel => cases h
  | vrsum => cases h
  | vrmax => cases h
  | vrmin => cases h
  | vcvt => cases h
  | vbcast => cases h
  | vperm => cases h
  | vext => cases h
  | vins => cases h
  | vdiv => cases h
  | vsqrt => cases h
  | vdota => cases h
  | mlease => cases h
  | mldw => cases h
  | mmul => cases h
  | mmuls => cases h
  | mdrain => cases h
  | mstatStatus => cases h
  | mstatGovernor => cases h
  | mstatCompleted => cases h
  | mstatSegment => cases h
  | accw => cases h
  | accr => cases h
  | accz => cases h
  | bfmt => cases h
  | bfmtr => cases h
  | launch => cases h
  | spawn => cases h
  | yieldSlot => cases h
  | yieldTimed => cases h
  | migr => cases h
  | tqpush => cases h
  | tqpop => cases h
  | tqsteal => cases h
  | ccinitPhase => cases h
  | ccinitJob => cases h
  | ccadd => cases h
  | ccwait => cases h
  | ccan => cases h
  | bsetRead => cases h
  | bsetWrite => cases h
  | bar => cases h
  | barw => cases h
  | graph => cases h
  | pbind => cases h
  | punb => cases h
  | pput => cases h
  | pget => cases h
  | pputv => cases h
  | pgetv => cases h
  | ptry => cases h
  | pwdr => cases h
  | cload => cases h
  | cstart => cases h
  | cstopStop => cases h
  | cstopFree => cases h
  | cstatConnector => cases h
  | cstatRegion => cases h
  | cstatPort => cases h
  | cstatBinding => cases h
  | wmark => cases h
  | widle => cases h
  | wbind => cases h
  | wnext => cases h
  | wpub => cases h
  | wamend => cases h
  | wcloseDrain => cases h
  | wcloseDiscard => cases h
  | wcloseStatus => cases h
  | wcloseWatermark => cases h
  | osend => cases h
  | oqcfgRead => cases h
  | oqcfgWrite => cases h
  | ostatQueue => cases h
  | ostatPort => cases h
  | ostatRelay => cases h
  | ocalRead => cases h
  | ocalWrite => cases h
  | owaitTime => cases h
  | owaitSlot => cases h
  | trap => cases h
  | tretReissue => cases h
  | tretSkip => cases h
  | jrnl => cases h
  | jrclFree => cases h
  | jrclReplay => cases h
  | jrclRedirect => cases h
  | plbiAddress => cases h
  | plbiCore => cases h
  | plbiModule => cases h
  | ctxs => cases h
  | ctxl => cases h
  | haltSelf => cases h
  | haltFence => cases h
  | haltUnfence => cases h
  | domsw => cases h
  | waymRead => cases h
  | waymRequest => cases h
  | scrub => cases h
  | preemptReady => cases h
  | preemptHold => cases h
  | preemptRelease => cases h
  | ret => cases h
  | nop => cases h
  | uiret => cases h
  | mrels => cases h
  | mzero => cases h
  | exit => cases h
  | brk => cases h
  | powerUp => exact ⟨_, rfl⟩
  | rootSelfTest => exact ⟨_, rfl⟩
  | loaderCopy => exact ⟨_, rfl⟩
  | linkTraining => exact ⟨_, rfl⟩
  | plynvasLoad => exact ⟨_, rfl⟩
  | readyReport => exact ⟨_, rfl⟩
  | instructionFill => exact ⟨_, rfl⟩
  | owedResultWrite => exact ⟨_, rfl⟩
  | loadReturn => exact ⟨_, rfl⟩
  | storeDrain => exact ⟨_, rfl⟩
  | storePerform => exact ⟨_, rfl⟩
  | atomicPerform => exact ⟨_, rfl⟩
  | clockPacketArrival => exact ⟨_, rfl⟩
  | clockProbe => exact ⟨_, rfl⟩
  | syncAccessAtHome => exact ⟨_, rfl⟩
  | syncTryFailReturn => exact ⟨_, rfl⟩
  | syncResend => exact ⟨_, rfl⟩
  | withdrawalAtHome => exact ⟨_, rfl⟩
  | waitlimExpiry => exact ⟨_, rfl⟩
  | burstWindowClose => exact ⟨_, rfl⟩
  | burstFill => exact ⟨_, rfl⟩
  | controllerRequest => exact ⟨_, rfl⟩
  | wayChangeover => exact ⟨_, rfl⟩
  | plbFill => exact ⟨_, rfl⟩
  | copyAccept => exact ⟨_, rfl⟩
  | copyUnitWrite => exact ⟨_, rfl⟩
  | copyComplete => exact ⟨_, rfl⟩
  | copyUnitTimeout => exact ⟨_, rfl⟩
  | watchArmAtHome => exact ⟨_, rfl⟩
  | watchWakeArrival => exact ⟨_, rfl⟩
  | uiEntry => exact ⟨_, rfl⟩
  | asyncTrapEntry => exact ⟨_, rfl⟩
  | wakeDuty => exact ⟨_, rfl⟩
  | cancelAtBoundary => exact ⟨_, rfl⟩
  | journalAck => exact ⟨_, rfl⟩
  | journalRefusal => exact ⟨_, rfl⟩
  | storeRefusal => exact ⟨_, rfl⟩
  | faultReportArrival => exact ⟨_, rfl⟩
  | mapMessage => exact ⟨_, rfl⟩
  | declineMessage => exact ⟨_, rfl⟩
  | wakeMessage => exact ⟨_, rfl⟩
  | serviceResponse => exact ⟨_, rfl⟩
  | svcStatus => exact ⟨_, rfl⟩
  | svcPartitionConfig => exact ⟨_, rfl⟩
  | svcJobLoad => exact ⟨_, rfl⟩
  | svcJobStart => exact ⟨_, rfl⟩
  | svcJobCancel => exact ⟨_, rfl⟩
  | svcFaultRecords => exact ⟨_, rfl⟩
  | svcAttest => exact ⟨_, rfl⟩
  | svcFirmwareUpdate => simp only [exec_svcFirmwareUpdate, execSvcFirmwareUpdate]; repeat (first | exact ⟨_, rfl⟩ | split)
  | launchStart => exact ⟨_, rfl⟩
  | releaseFlushDone => exact ⟨_, rfl⟩
  | slotAssign => exact ⟨_, rfl⟩
  | threadStart => exact ⟨_, rfl⟩
  | contextSwapOut => exact ⟨_, rfl⟩
  | contextRestore => exact ⟨_, rfl⟩
  | migrationReservation => exact ⟨_, rfl⟩
  | migrationArrival => exact ⟨_, rfl⟩
  | barrierRowCompletion => exact ⟨_, rfl⟩
  | barrierColumnCompletion => exact ⟨_, rfl⟩
  | barrierRelease => exact ⟨_, rfl⟩
  | yieldDeadline => exact ⟨_, rfl⟩
  | yieldReadyTimeout => exact ⟨_, rfl⟩
  | leaseGrant => exact ⟨_, rfl⟩
  | leaseCycleLimit => exact ⟨_, rfl⟩
  | plankAccept => exact ⟨_, rfl⟩
  | governorStart => exact ⟨_, rfl⟩
  | plankCommandEnd => exact ⟨_, rfl⟩
  | portRequestArrival => exact ⟨_, rfl⟩
  | carderStep => exact ⟨_, rfl⟩
  | idleTimeout => exact ⟨_, rfl⟩
  | portCompletionArrival => exact ⟨_, rfl⟩
  | carderCompletionTimeout => exact ⟨_, rfl⟩
  | bufferItemArrival => exact ⟨_, rfl⟩
  | creditArrival => exact ⟨_, rfl⟩
  | watermarkTokenArrival => exact ⟨_, rfl⟩
  | brimRecord => exact ⟨_, rfl⟩
  | brimWatermarkMessage => exact ⟨_, rfl⟩
  | frameMarker => exact ⟨_, rfl⟩
  | frameSend => exact ⟨_, rfl⟩
  | frameReceive => exact ⟨_, rfl⟩
  | ackFrameReceive => exact ⟨_, rfl⟩
  | completionAckArrival => exact ⟨_, rfl⟩
  | frameResendDue => exact ⟨_, rfl⟩
  | relayDiscard => exact ⟨_, rfl⟩
  | queueResetArrival => exact ⟨_, rfl⟩
  | osendBytesHeld => exact ⟨_, rfl⟩
  | gangTick => exact ⟨_, rfl⟩
  | bandboxExchangeDone => exact ⟨_, rfl⟩
  | saveDeadline => exact ⟨_, rfl⟩
  | gangLateTimeout => exact ⟨_, rfl⟩
  | gschedTakeEffect => exact ⟨_, rfl⟩
  | faultEvent => exact ⟨_, rfl⟩
  | unitReplacementDone => exact ⟨_, rfl⟩
  | linkCheckFailure => exact ⟨_, rfl⟩
  | laneFailure => exact ⟨_, rfl⟩
  | plankStateError => exact ⟨_, rfl⟩
  | ethIncomingWrite => exact ⟨_, rfl⟩
  | ethIncomingSend => exact ⟨_, rfl⟩
  | ethTailNotify => exact ⟨_, rfl⟩
  | ethOperationEnd => exact ⟨_, rfl⟩
  | ingressSend => exact ⟨_, rfl⟩
  | ingressOpComplete => exact ⟨_, rfl⟩
  | ingressBind => exact ⟨_, rfl⟩
  | ingressUnbind => exact ⟨_, rfl⟩
  | thermalOverTemp => exact ⟨_, rfl⟩
  | thermalTrip => exact ⟨_, rfl⟩
  | pcfgWrite => exact ⟨_, rfl⟩
  | pgrpWrite => exact ⟨_, rfl⟩
  | pnextWrite => exact ⟨_, rfl⟩
  | gschedWrite => exact ⟨_, rfl⟩
  | wshareWrite => exact ⟨_, rfl⟩
  | frelWrite => exact ⟨_, rfl⟩
  | configWrite => exact ⟨_, rfl⟩
  | kSourceTake => exact ⟨_, rfl⟩
  | kDestinationOffer => exact ⟨_, rfl⟩
  | qPop => exact ⟨_, rfl⟩
  | qEnginePush => exact ⟨_, rfl⟩
  | evqPop => exact ⟨_, rfl⟩
  | msgWrite => exact ⟨_, rfl⟩
  | missingMarker => exact ⟨_, rfl⟩
  | rotorEvent => exact ⟨_, rfl⟩
  | ccwaitResend => exact ⟨_, rfl⟩
  | writeQueueDrain => exact ⟨_, rfl⟩
  | writeAcknowledgement => exact ⟨_, rfl⟩
  | waiterWakeArrival => exact ⟨_, rfl⟩
  | powerLoss => exact ⟨_, rfl⟩
  | connectionSetup => exact ⟨_, rfl⟩
  | ethIncomingRead => exact ⟨_, rfl⟩
  | remoteAtomicOperation => exact ⟨_, rfl⟩

/-- Every instruction and event goes on to a next state, where the current slot holds a thread. -/
theorem exec_goes (i : Instr) (s : State) (t : Thread) (h : s.thread s.cur = some t) : ∃ s', exec i s = .next s' := by
  by_cases hb : i.body.isSome = true
  · by_cases hs : ∃ o, i = .sel o
    · obtain ⟨o, rfl⟩ := hs
      exact State.runIn_goes h _ _ _ _ _
    · by_cases ht : ∃ o, i = .tretReissue o ∨ i = .tretSkip o
      · obtain ⟨o, rfl | rfl⟩ := ht <;> exact State.tret_goes h o
      · obtain ⟨svc, srcs, dsts, body, e⟩ := exec_courses i s hb (fun o e => hs ⟨o, e⟩)
          (fun o => ⟨fun e => ht ⟨o, .inl e⟩, fun e => ht ⟨o, .inr e⟩⟩)
        rw [e]; exact State.runIn_goes h _ _ _ _ _
  · exact exec_event_goes i s (by simpa using hb)

end Sys2Proof.Machine
end

