-- ==== Sys2Proof/Tests/Witness.lean ====
section
/-! SUPPORT. Concrete states and operands that meet the hypotheses of the statements, clause by clause. -/

namespace Sys2Proof.Tests

set_option Elab.async false

open Machine Claims

/-! ## States -/

/-- The module with one thread in slot 0 of core 0, in partition 0 on group 0, with one identity-mapped page (State.withFetchWord). -/
def w : State := State.reset.withFetchWord 16 0xA800

/-- Its thread. -/
def t0 : Thread := { Thread.start with tid := 1, pc := 0x10000 }

/-- The same with the thread changed. -/
def wt (t : Thread) : State := { w with threads := [(0, t)] }

/-- The same on service core 0. -/
def ws : State := { w with threads := [(65536, t0)], cur := 65536 }

/-- Operands of an F2 instruction, all 0 but for d, s and T. -/
def op (d s : Nat) (t : Third) : Op := ⟨BitVec.ofNat 6 d, BitVec.ofNat 6 s, t, 0, 0, 0⟩

/-- The same with an element type. -/
def opE (et d s : Nat) (t : Third) : Op := ⟨BitVec.ofNat 6 d, BitVec.ofNat 6 s, t, 0, 0, BitVec.ofNat 3 et⟩

/-- Operands of an FI instruction. -/
def opI (d imm : Nat) : OpI := ⟨BitVec.ofNat 6 d, BitVec.ofNat 25 imm⟩

theorem wit_slot : w.thread w.cur = some t0 := by rfl

/-- A register that the model's thread start holds full. -/
def plainSrc : Src → Bool
  | .x n _ _ => n < 24
  | .v n _ _ => n < 8
  | .p n _ _ => n < 32
  | .sub n => n < 24

/-- A destination that nothing is owed to at thread start. -/
def plainDst : Dst → Bool
  | .x n => n < 24
  | .v n => n < 8
  | .p n => n < 32

theorem full_g : ∀ n, n < 24 → t0.isFull (.g n) = true ∧ t0.isOwed (.g n) = false := by decide
theorem full_p : ∀ n, n < 32 → t0.isFull (.p n) = true ∧ t0.isOwed (.p n) = false := by decide
theorem full_v : ∀ n, n < 8 → t0.isFull (.v n) = true ∧ t0.isOwed (.v n) = false := by
  intro n h
  have : n = 0 ∨ n = 1 ∨ n = 2 ∨ n = 3 ∨ n = 4 ∨ n = 5 ∨ n = 6 ∨ n = 7 := by omega
  rcases this with rfl | rfl | rfl | rfl | rfl | rfl | rfl | rfl <;> exact ⟨rfl, rfl⟩

theorem readable_plain (s : State) (x : Src) (before : List Src) (h : plainSrc x = true) : x.readable s t0 before = true := by
  cases x <;> simp only [plainSrc, decide_eq_true_eq] at h
  · simp [Src.readable, h, (full_g _ h).1]
  · simp [Src.readable, (full_v _ h).1]
  · simp [Src.readable, (full_p _ h).1]
  · simp [Src.readable, (full_g _ h).1]

theorem readable_all (s : State) : ∀ (l before : List Src), l.all plainSrc = true → srcsReadable s t0 before l = true
  | [], _, _ => rfl
  | x :: l, before, h => by
    simp only [List.all_cons, Bool.and_eq_true] at h
    simp only [srcsReadable, readable_plain s x before h.1, Bool.true_and]
    exact readable_all s l _ h.2

theorem accepts_plain (s : State) (d : Dst) (h : plainDst d = true) : d.accepts s t0 = true := by
  cases d <;> simp only [plainDst, decide_eq_true_eq] at h
  · simp [Dst.accepts, h, (full_g _ h).2]
  · simp [Dst.accepts, (full_v _ h).2]
  · simp [Dst.accepts, (full_p _ h).2]

/-- Any sources and destinations among g0 to g23, v0 to v7 and p0 to p31: an instruction with them executes on core 0 from `w`, and
from every state that differs from it elsewhere. -/
theorem wit_executes (s : State) (srcs : List Src) (dsts : List Dst) (hs : s.thread s.cur = some t0) (hq : s.q = .plain)
    (h1 : srcs.all plainSrc = true) (h2 : dsts.all plainDst = true) : Executes s t0 false srcs dsts where
  slot := hs
  core := by
    right
    have a : srcs.any Src.special = false := by
      rw [List.any_eq_false]; intro x hx
      have := List.all_eq_true.mp h1 x hx
      cases x <;> simp_all [plainSrc, Src.special]; omega
    have b : dsts.any Dst.special = false := by
      rw [List.any_eq_false]; intro x hx
      have := List.all_eq_true.mp h2 x hx
      cases x <;> simp_all [plainDst, Dst.special]; omega
    simp [a, b]
  pred := by rw [hq]; rfl
  reads := readable_all s srcs [] h1
  writes := by
    rw [List.all_eq_true]; intro x hx
    exact accepts_plain s x (List.all_eq_true.mp h2 x hx)
  on := by rw [hq]; rfl

/-! ## Register forms -/

theorem wit_two_sources : Executes w t0 false ((op 3 1 (.reg 2)).sx w.q ++ (op 3 1 (.reg 2)).tx w.q) [.x 3] :=
  wit_executes w _ _ rfl rfl rfl rfl
theorem wit_immediate : Executes w t0 false ((op 23 23 (.imm 0xFFFFF)).sx w.q ++ (op 23 23 (.imm 0xFFFFF)).tx w.q) [.x 23] :=
  wit_executes w _ _ rfl rfl rfl rfl
theorem wit_one_source : Executes w t0 false ((op 0 23 (.imm 0)).sx w.q) [.x 0] := wit_executes w _ _ rfl rfl rfl rfl
theorem wit_fi : Executes w t0 false [.x 23 2 w.q.td] [.x 23] := wit_executes w _ _ rfl rfl rfl rfl
theorem wit_li : Executes w t0 false [] [.x 0] := wit_executes w _ _ rfl rfl rfl rfl
theorem wit_nothing : Executes w t0 false [] [] := wit_executes w _ _ rfl rfl rfl rfl
theorem wit_three_sources : Executes w t0 false ((op 3 1 (.reg 2)).sx w.q ++ (op 3 1 (.reg 2)).tx w.q ++ (op 3 1 (.reg 2)).dx w.q)
    [.x 3] := wit_executes w _ _ rfl rfl rfl rfl
theorem wit_compare : Executes w t0 false ((op 31 1 (.reg 2)).sx w.q ++ (op 31 1 (.reg 2)).tx w.q) [.p 31] :=
  wit_executes w _ _ rfl rfl rfl rfl
theorem wit_predicates : Executes w t0 false (.p 31 0 w.q.ts :: (op 1 31 (.reg 30)).tp w.q) [.p 1] :=
  wit_executes w _ _ rfl rfl rfl rfl
theorem wit_whole_word : Executes w t0 false ((List.range' 1 31).map (fun i => .p i 0 w.q.ts)) [.x 5] ∧
    Executes w t0 false ((op 0 5 (.imm 0)).sx w.q) ((List.range' 1 31).map .p) :=
  ⟨wit_executes w _ _ rfl rfl rfl rfl, wit_executes w _ _ rfl rfl rfl rfl⟩
theorem wit_vectors : Executes w t0 false (vsAndVt (op 7 6 (.reg 5)) w.q ++ [.v 7 2 w.q.td]) [.v 7] :=
  wit_executes w _ _ rfl rfl rfl rfl
theorem wit_branch_on_predicate : Executes w t0 false [.p 31 2 w.q.td] [] := wit_executes w _ _ rfl rfl rfl rfl
theorem wit_lea_scale : (op 3 1 (.imm 5)).t = .imm 5 ∧ ({ op 3 1 (.imm 5) with scale := 3 } : Op).scale ≠ 0 := ⟨rfl, by decide⟩
/-- A k source with its item, a k destination with its port free, a q source and a q destination execute as well. -/
def tk : Thread := { t0 with
  k := (t0.k.setIfInBounds 0 (some ⟨0, ⟨0, 0, 0⟩, true, false, some ⟨5, 6⟩, false⟩)).setIfInBounds 1
    (some ⟨0, ⟨0, 0, 1⟩, false, false, none, false⟩)
  q0 := [9, 10], qmap := 1 }
theorem wit_port_forms : Executes (wt tk) tk false [.x 24 0 false, .x 28 1 false, .x 28 2 false] [.x 25, .x 44] where
  slot := rfl
  core := .inr rfl
  pred := rfl
  reads := rfl
  writes := rfl
  on := rfl
theorem wit_service_forms : Executes { ws with cores := [(8192, { Core.reset with evq := [1] })] } t0 false [.x 56 0 false] [.x 57] where
  slot := rfl
  core := .inl rfl
  pred := rfl
  reads := rfl
  writes := rfl
  on := rfl

/-! ## Results -/

theorem wit_deliver_k : isK 25 = true ∧ tk.kb (kIndex 25) = some ⟨0, ⟨0, 0, 1⟩, false, false, none, false⟩ := ⟨rfl, rfl⟩
theorem wit_deliver_q : isQdst 44 = true ∧ tk.qcode 44 = 1 ∧ (tk.fifo.toList.getD 0 []).length ≠ 2 := by decide
theorem wit_deliver_msg : 24 ≤ 57 ∧ isK 57 = false ∧ isQdst 57 = false ∧
    ([(0 : DW)].length < 1 + bits (0x1000000000000 : DW).toNat 51 48) ∧ (1 + bits (0 : DW).toNat 51 48 ≤ [(0 : DW)].length) ∧
    bits (0x100000000000000 : DW).toNat 63 56 = 1 := by decide

/-- A result owed to g3, to v7, and to k1. -/
def wOwed (ws : List (RegRef × VReg)) (out : Option (OutDest × DW)) : State :=
  { wt tk with owed := [⟨7, 0, ws, out, 1, true, false, none⟩], arg := .n1 7 }
theorem wit_owed_g : (wOwed [(.g 23, 5)] none).arg = .n1 7 ∧ (wOwed [(.g 23, 5)] none).thread 0 = some tk ∧
    ((wOwed [(.g 23, 5)] none).owed.find? (fun x => x.id == 7)).map (·.writes) = some [(.g 23, 5)] := ⟨rfl, rfl, rfl⟩
theorem wit_owed_v : ((wOwed [(.v 7, 5)] none).owed.find? (fun x => x.id == 7)).map (·.writes) = some [(.v 7, 5)] := rfl

/-! ## Special registers -/

theorem wit_movs : Executes w t0 false [] [.x 23] ∧ flagsOwed w = false ∧ (opI 23 18).imm.toNat ≤ 18 :=
  ⟨wit_executes w _ _ rfl rfl rfl rfl, rfl, by decide⟩
theorem wit_movs_waits : flagsOwed (wOwed [] none) = true ∧ (opI 0 4).imm.toNat = 4 ∧ 18 < (opI 0 19).imm.toNat := by decide
theorem wit_movsw_domain : isService (coreOf ws.cur) = true ∧ ws.thread ws.cur = some t0 ∧ (opI 0 3).imm.toNat = 3 := ⟨rfl, rfl, rfl⟩
theorem wit_movsw_domain_refused : isService (coreOf w.cur) = false ∧ (opI 0 3).imm.toNat = 3 := by decide
theorem wit_movsw_vlive : (t0.gv 5).getLsbD 11 = false ∧ t0.owesV = false ∧ (opI 5 0).imm.toNat = 0 := ⟨rfl, rfl, rfl⟩

/-! ## Accesses -/

/-- A request of thread 1 in slot 0 for n bytes at a DRAM place of group 0, arrived, its lines there. -/
def rq (kind : ReqKind) (loc n : Nat) : Req :=
  ⟨7, 0, 1, 0, 0, 0, kind, [⟨loc, loc, n, 0⟩], none, [], 0, 0, false, true, true, true, none, some true, false, none⟩

/-- Whether a result is a given answer, as a Boolean the kernel evaluates. -/
def okIs {α : Type} [DecidableEq α] (r : Res α) (a : α) : Bool :=
  match r with
  | .ok x => decide (x = a)
  | .error _ => false

theorem ok_of_okIs {α : Type} [DecidableEq α] {r : Res α} {a : α} (h : okIs r a = true) : r = .ok a := by
  cases r with
  | ok x => simp only [okIs, decide_eq_true_eq] at h; rw [h]
  | error e => cases h

/-- gd := g3, gs + T = 0x400. -/
def oa : Op := op 3 1 (.imm 0x400)

theorem wit_sum : sumAddr w t0 oa = 0x400 ∧ baseAddr w t0 oa = 0 := by decide +kernel
theorem wit_access : w.access 0 t0 0x400 8 8 .rd false = .ok ⟨0x400, 0x400, none⟩ ∧ w.access 0 t0 0x400 8 8 .wr true = .ok ⟨0x400, 0x400, none⟩ ∧
    w.access 0 t0 0x400 8 8 .wr false = .ok ⟨0x400, 0x400, none⟩ ∧ w.access 0 t0 0x400 8 8 .rw false = .ok ⟨0x400, 0x400, none⟩ ∧
    w.acquiring 0 t0 = false :=
  ⟨ok_of_okIs (by decide +kernel), ok_of_okIs (by decide +kernel), ok_of_okIs (by decide +kernel), ok_of_okIs (by decide +kernel), rfl⟩
theorem wit_reaches : Reaches w t0 0x400 8 8 .rd false ⟨0x400, 0x400, none⟩ := ⟨wit_access.1, rfl, rfl⟩
theorem wit_reaches_rw : Reaches w t0 0 8 8 .rw false ⟨0, 0, none⟩ ∧ w.mem.badWord 0 8 = none :=
  ⟨⟨ok_of_okIs (by decide +kernel), rfl, rfl⟩, rfl⟩
theorem wit_clean : Clean w t0 0x400 8 0x400 ∧ w.forward 0 0x400 8 = .none := ⟨⟨rfl, rfl⟩, rfl⟩
/-- A store of 8 bytes at 0x400 in the buffer of core 0. -/
def wBuf : State := { w with cores := mput w.cores 0 { w.core 0 with sbuf := [⟨5, 0, 1, 0, 0, 0, [⟨0x400, 0x400, 8, 77⟩], none, false, false⟩] }, nextId := 6 }
theorem wit_forward_hit : (match wBuf.forward 0 0x400 4 with
    | .hit e x v => e == 5 && x == 1 && v == 77
    | _ => false) = true ∧ Reaches wBuf t0 0x400 4 4 .rd false ⟨0x400, 0x400, none⟩ ∧
    Clean wBuf t0 0x400 4 0x400 ∧ wBuf.lastOwn t0 [⟨0x400, 0x400, 4, 0⟩] = 0 :=
  ⟨by decide +kernel, ⟨ok_of_okIs (by decide +kernel), by decide +kernel, rfl⟩, ⟨by decide +kernel, rfl⟩, by decide +kernel⟩
/-- The thread's own later access to the same bytes, sent after the store. -/
def wOwn : State := { wBuf with reqs := [rq (.load 4 8 false false) 0x400 8] }
theorem wit_forward_older : wOwn.lastOwn t0 [⟨0x400, 0x400, 4, 0⟩] = 7 ∧ Clean wOwn t0 0x400 4 0x400 ∧
    Reaches wOwn t0 0x400 4 4 .rd false ⟨0x400, 0x400, none⟩ :=
  ⟨by decide +kernel, ⟨by decide +kernel, rfl⟩, ok_of_okIs (by decide +kernel), by decide +kernel, rfl⟩
/-- The line of 0x400 in the data cache of core 0. -/
def wHit : State := { w with cores := mput w.cores 0 { w.core 0 with dcache := [⟨0, 0x20, 0x400, 77, 0⟩] } }
theorem wit_cache_hit : ((wHit.taken t0 (oa.sx .plain ++ oa.tx .plain)).claimFor (wHit.cx t0) ⟨0x400, 0x400, none⟩).cacheHit (wHit.cx t0)
      0x400 0x400 8 = some 77 ∧ ((w.taken t0 (oa.sx .plain ++ oa.tx .plain)).claimFor (w.cx t0) ⟨0x400, 0x400, none⟩).cacheHit (w.cx t0)
      0x400 0x400 8 = none ∧ wHit.forward 0 0x400 8 = .none ∧ Reaches wHit t0 0x400 8 8 .rd false ⟨0x400, 0x400, none⟩ ∧
    Clean wHit t0 0x400 8 0x400 ∧ Executes wHit t0 false (oa.sx wHit.q ++ oa.tx wHit.q) [.x oa.dn] :=
  ⟨by decide +kernel, by decide +kernel, rfl, ⟨ok_of_okIs (by decide +kernel), by decide +kernel, rfl⟩, ⟨by decide +kernel, rfl⟩,
    wit_executes wHit _ _ rfl rfl rfl rfl⟩
theorem wit_load_executes : Executes w t0 false (oa.sx w.q ++ oa.tx w.q) [.x oa.dn] ∧
    Executes wBuf t0 false (oa.sx wBuf.q ++ oa.tx wBuf.q) [.x oa.dn] :=
  ⟨wit_executes w _ _ rfl rfl rfl rfl, wit_executes wBuf _ _ rfl rfl rfl rfl⟩
theorem wit_store_executes : Executes w t0 false (oa.sx w.q ++ oa.tx w.q ++ oa.dx w.q) [] ∧
    (w.core (coreOf w.cur)).sbuf.length < 16 := ⟨wit_executes w _ _ rfl rfl rfl rfl, by decide +kernel⟩
theorem wit_journal_free : mget (w.core (coreOf w.cur)).journal 0 = none ∧ 0 < 64 ∧
    ∀ i < 64, (mget (w.core (coreOf w.cur)).journal i).isNone = true → 0 ≤ i := ⟨rfl, by decide, fun i _ _ => Nat.zero_le i⟩
/-- A core whose PLB sends 0x400 to group 1, which partition 0 does not hold. -/
def wRef : State := { w with cores := [(0, { Core.reset with plb := [⟨0, 0, 0xFFFF, 0, 1, false, true, true, true⟩] })] }
theorem wit_access_refused : wRef.access 0 t0 0x400 8 8 .wr true = .ok ⟨0x400, dramLoc 1 0x400, some causePROT⟩ ∧
    Executes wRef t0 false (oa.sx wRef.q ++ oa.tx wRef.q ++ oa.dx wRef.q) [] :=
  ⟨ok_of_okIs (by decide +kernel), wit_executes wRef _ _ rfl rfl rfl rfl⟩
/-- A request's own premise: the state it is sent in still holds its thread. -/
theorem wit_request : w.thread w.cur = some t0 ∧ (3 : Nat) < 24 := ⟨rfl, by decide⟩

/-- LDM and STM of two registers at 0x400. -/
def om : Op := op 5 1 (.imm 2)
def tm : Thread := { t0 with g := t0.g.setIfInBounds 1 ⟨0x400, true, false, false⟩ }
theorem wit_multi : Executes (wt tm) tm false (om.sx (wt tm).q ++ om.tx (wt tm).q) [] ∧ tm.prog = 0 ∧
    ((((wt tm).cx tm).tval om).toNat = 2 ∧ om.dn + 2 ≤ 24 ∧ (wt tm).acquiring (wt tm).cur tm = false ∧ baseAddr (wt tm) tm om = 0x400) :=
  ⟨⟨⟨rfl, .inr rfl, rfl, rfl, rfl⟩, rfl⟩, rfl, by decide +kernel⟩
/-- Every premise about one word of the transfer. -/
def multiWord (i loc : Nat) : Bool :=
  (wt tm).mem.badWord loc 8 == none && okIs ((wt tm).access 0 tm (0x400 + 8 * i) 8 8 .rd false) ⟨0x400 + 8 * i, loc, none⟩ &&
    okIs ((wt tm).access 0 tm (0x400 + 8 * i) 8 1 .rd false) ⟨0x400 + 8 * i, loc, none⟩ && okIs ((wt tm).access 0 tm (0x400 + 8 * i) 8 8 .wr true) ⟨0x400 + 8 * i, loc, none⟩ &&
    okIs ((wt tm).access 0 tm (0x400 + 8 * i) 8 1 .wr true) ⟨0x400 + 8 * i, loc, none⟩ && !((wt tm).cx tm).posting (0x400 + 8 * i) 8
theorem wit_multi_words : multiWord 0 0x400 = true ∧ multiWord 1 0x408 = true ∧ (wt tm).forward 0 0x400 8 = .none ∧
    (wt tm).forward 0 0x408 8 = .none := ⟨by decide +kernel, by decide +kernel, rfl, rfl⟩
theorem wit_multi_registers : (∀ i < 2, tm.isOwed (.g (om.dn + i)) = false ∧ tm.isFull (.g (om.dn + i)) = true) ∧
    ¬ (om.dn ≤ om.sn ∧ om.sn < om.dn + 2) ∧ ((wt tm).core (coreOf (wt tm).cur)).sbuf.length + 2 ≤ 16 := by decide +kernel

theorem wit_fence : w.releasedNow w.cur t0 .die = true ∧ w.acquiring w.cur t0 = false ∧ scope (op 0 0 (.imm 0)) .die = .die ∧
    wBuf.releasedNow wBuf.cur t0 .die = false ∧ Executes wBuf t0 false [] [] :=
  ⟨by decide +kernel, by decide +kernel, by decide +kernel, by decide +kernel, wit_executes wBuf _ _ rfl rfl rfl rfl⟩
theorem wit_watch : ((w.cx t0).tval (op 3 1 (.imm 7))).toNat = 7 ∧ ((w.cx t0).tval (op 3 1 (.imm 6))).toNat = 6 ∧
    w.access w.cur t0 (baseAddr w t0 (op 3 1 (.imm 7))) 8 8 .rd false = .ok ⟨0, 0, none⟩ ∧
    w.access w.cur t0 (baseAddr w t0 (op 3 1 (.imm 6))) 8 8 .rd false = .ok ⟨0, 0, none⟩ :=
  ⟨by decide +kernel, by decide +kernel, ok_of_okIs (by decide +kernel), ok_of_okIs (by decide +kernel)⟩
/-- An instruction with destination g3 and no sources executes for a thread with its watch in any state. -/
theorem wit_wait (x : Watch) : Executes (wt { t0 with watch := x }) { t0 with watch := x } false [] [.x 3] :=
  ⟨⟨rfl, .inr rfl, rfl, rfl, rfl⟩, rfl⟩
theorem wit_uien : (((wt tm).cx tm).sval (op 0 1 (.imm 0))).getLsbD 0 = false ∧
    ((((wt { tk with g := tk.g.setIfInBounds 1 ⟨1, true, false, false⟩, uivec := 2 }).cx
      { tk with g := tk.g.setIfInBounds 1 ⟨1, true, false, false⟩, uivec := 2 }).sval (op 0 1 (.imm 0))).getLsbD 0 = true) := by
  decide +kernel
theorem wit_uiret : t0.thsBit 14 = false ∧ ({ t0 with ths := 0x4000 } : Thread).thsBit 14 = true ∧
    ({ t0 with ths := 0x4000 } : Thread).owesFrame = false ∧
    Executes (wt { t0 with ths := 0x4000 }) { t0 with ths := 0x4000 } false [] [] :=
  ⟨by decide +kernel, by decide +kernel, by decide +kernel, ⟨rfl, .inr rfl, rfl, rfl, rfl⟩, rfl⟩

/-! ## Checks of an access -/

theorem wit_span : 1 ≤ 8 ∧ 0x400 + 8 ≤ 2 ^ 56 := by decide
theorem wit_region : (0xF2 * 2 ^ 48) / 2 ^ 48 = 0xF2 ∧ 0xF1 * 2 ^ 48 / 2 ^ 48 = 0xF1 ∧ isService (coreOf w.cur) = false ∧
    (0xF0 * 2 ^ 48 - 1 + 2 - 1) / 2 ^ 48 = 0xF0 ∧ (0xF0 * 2 ^ 48 - 1) / 2 ^ 48 < 0xF0 ∧ (0x10 * 2 ^ 48 - 1 + 2 - 1) / 2 ^ 48 < 0xF0 := by decide +kernel
/-- A scratch way of cluster 0, way 0. -/
def wScr : State := { w with clusters := [(0, { Cluster.reset with wmask := 1 })] }
theorem wit_scratch : (0xF0 * 2 ^ 48 + 0x5FFFC + 4 - 1) % 2 ^ 19 < 0x60000 ∧ (0xF0 * 2 ^ 48 + 0x5FFFC) % 8 ≠ 0 ∧
    0x60000 ≤ (0xF0 * 2 ^ 48 + 0x5FFFC + 8 - 1) % 2 ^ 19 ∧ (w.cluster 0).wmask.getLsbD 0 = false ∧ (wScr.cluster 0).wmask.getLsbD 0 = true ∧
    (wScr.partn 0).gone.contains (groupOfCluster 0) = false ∧
    ({ w with parts := mput w.parts 0 { w.partn 0 with gone := [0] } } : State).partn 0 = { w.partn 0 with gone := [0] } := by
  decide +kernel
/-- A PLB entry for all of domain 0's first 2^28 bytes, on group h of die 0. -/
def rgx (h : Nat) (x wr rd : Bool) : Range := ⟨0, 0, 0xFFFF, 0, h, false, x, wr, rd⟩
theorem wit_plb_held : ((w.core 0).plb.find? (fun e => e.dom == t0.domN && e.covers 0x400 8)).isSome = true ∧
    (({ w with cores := [] } : State).core 0).plb.find? (fun e => e.dom == t0.domN && e.covers 0x400 8) = none ∧
    ({ w with io := { w.io with doms := [] } } : State).rangeOf 0 0x400 8 = none ∧ (rgx 0 true false true).grants .wr = false ∧ (rgx 0 true true true).grants .rw = true := by
  decide +kernel
theorem wit_plb_to_fill : (w.rangeOf 0 0x400 8).isSome = true := by decide +kernel
theorem wit_placed : (match w.placeIn 0 0 0 false (rgx 0 true true true) 0x400 none with
      | .ok p => p == ⟨0x400, 0x400, none⟩
      | .error _ => false) = true ∧
    (match ({ w with groups := [] } : State).placeIn 0 0 0 false (rgx 0 true true true) 0x400 none with
      | .ok _ => false
      | .error x => x == .invalid) = true ∧
    (match w.placeIn 0 0 0 false (rgx 1 true true true) 0x400 none with
      | .ok p => p == ⟨0x400, dramLoc 1 0x400, some causePROT⟩
      | .error _ => false) = true := by decide +kernel
/-- A core, and a home slice, that hold the line of 0x400. -/
def wLine : State := { w with clusters := [(homeCluster 0x400, { Cluster.reset with lines := [⟨0, 8, 0x400, 0, false⟩] })] }
theorem wit_known_place : wHit.corePlace 0 0 0x400 = some 0x400 ∧ w.corePlace 0 0 0x400 = none ∧
    wLine.vaultPlace 0 ((rgx 0 true true true).home 0x400) 0x400 = some 0x400 ∧
    w.vaultPlace 0 ((rgx 0 true true true).home 0x400) 0x400 = none := by decide +kernel
theorem wit_refused_place : dieOfGroup ((rgx 1 true true true).home 0x400) = 0 ∧ w.inPart 0 ((rgx 1 true true true).home 0x400) = false ∧
    dieOfGroup (({ rgx 0 true true true with hdie := 1 } : Range).home 0x400) = 1 ∧
    ((({ w with dies := [(1, { Die.reset with fenced := true })] } : State).die 1).fenced = true) := by decide +kernel
theorem wit_home_place : w.inPart t0.partN ((rgx 0 true true true).home 0x400) = true ∧ (∀ d, (w.die d).fenced = false) ∧
    (match w.translate 0 0 0x400 false with
      | .ok pa => pa == 0x400
      | .error _ => false) = true := ⟨by decide +kernel, fun _ => rfl, by decide +kernel⟩
theorem wit_ends_in_a_trap : w.access w.cur t0 0x401 8 8 .rd false = trapWith causeMISALIGN 0x401 := rfl

/-- The same for the places of an engine. -/
def placesAre (r : Except EngErr (List Piece)) (l : List Piece) : Bool :=
  match r with
  | .ok x => x == l
  | .error _ => false
theorem ok_of_placesAre {r : Except EngErr (List Piece)} {l : List Piece} (h : placesAre r l = true) : r = .ok l := by
  cases r with
  | ok x => simp only [placesAre, beq_iff_eq] at h; rw [h]
  | error e => cases h

/-! ## Requests at their homes -/

/-- A machine with that request, and the event that performs it current. -/
def wr (t : Thread) (r : Req) : State := { wt t with reqs := [r], arg := .n1 7 }

/-- The premise that a request stands at its home, and that it may be performed now, as Booleans. -/
def stands (s : State) (id : Nat) (r : Req) : Bool :=
  s.arg == .n1 id && s.req id == some r && r.fin.isNone && r.left && r.here && s.gates r == [] && !s.precededBy r &&
    !r.pieces.any (fun p => s.ownedBusy r.dom p.va p.n .anyone) && !r.waiting && r.miss != some false
def performs (s : State) (id : Nat) (r : Req) : Bool :=
  stands s id r && s.missing r == [] && !s.yields r && r.pieces.all (fun p => !s.gonePiece r p) &&
    r.pieces.all (fun p => s.mem.badWord p.loc p.n == none)

theorem stands_of {s : State} {id : Nat} {r : Req} (h : stands s id r = true) : Stands s id r := by
  simp only [stands, Bool.and_eq_true, beq_iff_eq, Bool.not_eq_true', Option.isNone_iff_eq_none, bne_iff_ne, ne_eq] at h
  obtain ⟨⟨⟨⟨⟨⟨⟨⟨⟨a, b⟩, c⟩, d⟩, e⟩, f⟩, g⟩, i⟩, j⟩, k⟩ := h
  exact ⟨a, b, c, d, e, f, g, i, j, k⟩

theorem performs_of {s : State} {id : Nat} {r : Req} (h : performs s id r = true) : Performs s id r := by
  simp only [performs, Bool.and_eq_true, beq_iff_eq, Bool.not_eq_true', List.all_eq_true] at h
  obtain ⟨⟨⟨⟨a, b⟩, c⟩, d⟩, e⟩ := h
  exact ⟨stands_of a, b, c, d, e⟩

theorem wit_in_slot : InSlot w 0 t0 1 := ⟨rfl, rfl⟩
def rLoad : Req := rq (.load 23 4 true false) 0x400 4
theorem wit_load_performs : Performs (wr t0 rLoad) 7 rLoad ∧ (∀ d n sg, rLoad.kind ≠ .load d n sg true) ∧
    homeDie 0x400 = dieOfCore (coreOf rLoad.k) := ⟨performs_of (by decide +kernel), fun _ _ _ h => (by cases h), by decide +kernel⟩
theorem wit_ldm_performs : Performs (wr t0 (rq (.ldm 3 0 2) 0x400 8)) 7 (rq (.ldm 3 0 2) 0x400 8) := performs_of (by decide +kernel)
theorem wit_vload_performs : Performs (wr t0 (rq (.vload 7 64) 0x400 64)) 7 (rq (.vload 7 64) 0x400 64) := performs_of (by decide +kernel)
/-- A request whose answer has come. -/
def done (r : Req) (x : Ret) : Req := { r with fin := some x }
theorem wit_arrives (kind : ReqKind) (x : Ret) : Arrives (wr t0 (done (rq kind 0x400 8) x)) 7 (done (rq kind 0x400 8) x) x ∧
    InSlot (wr t0 (done (rq kind 0x400 8) x)) 0 t0 (rq kind 0x400 8).tid := ⟨⟨rfl, rfl, rfl⟩, ⟨rfl, rfl⟩⟩
/-- The same load before its line has come. -/
def rMiss : Req := { rLoad with miss := none }
theorem wit_load_misses : Stands (wr t0 rMiss) 7 rMiss ∧ (wr t0 rMiss).missing rMiss = [⟨0x400, 0x400, 4, 0⟩] :=
  ⟨stands_of (by decide +kernel), by decide +kernel⟩
theorem wit_controller : (wr t0 rMiss).arg = .n1 7 ∧ (wr t0 rMiss).req 7 = some rMiss ∧ mget ((wr t0 rMiss).group 0).windows 4 = none ∧
    mget ((wr t0 rMiss).group 0).bursts 4 = none := by decide +kernel
def wWin (open_ : Map Nat) (arg : Arg) : State := { wr t0 rMiss with
  groups := mput w.groups 0 { w.group 0 with windows := [(4, [⟨.req 7, 0, 0x400⟩])], bursts := open_ }, arg := arg }
theorem wit_window_closes : (wWin [] (.n2 0 4)).arg = .n2 0 4 ∧ mget ((wWin [] (.n2 0 4)).group 0).windows 4 = some [⟨.req 7, 0, 0x400⟩] ∧
    mget ((wWin [] (.n2 0 4)).group 0).bursts 4 = none := by decide +kernel
theorem wit_burst_leaves : (wWin [(4, 0)] (.n1 0)).nextBurst 0 = some (4, 0) ∧
    (wWin [(4, 0)] (.n1 0)).nextWrite 0 = none := by decide +kernel
theorem wit_burst_fills : mget ((wWin [(4, 0)] (.n2 0 4)).group 0).bursts 4 = some 0 ∧
    mget ((wWin [(4, 0)] (.n2 0 4)).group 0).windows 4 = some [⟨.req 7, 0, 0x400⟩] ∧ (wWin [(4, 0)] (.n2 0 4)).req 7 = some rMiss :=
  ⟨rfl, rfl, rfl⟩
theorem wit_vault_fills : (0x400 : Nat) < 2 ^ 40 ∧ (w.cluster (homeCluster 0x400)).cacheWays ≠ [] := by decide +kernel

theorem wit_store_drains : { wBuf with arg := .n1 0 }.arg = .n1 0 ∧ (wBuf.core 0).sbuf.find? (fun x => !x.sent) =
      some ⟨5, 0, 1, 0, 0, 0, [⟨0x400, 0x400, 8, 77⟩], none, false, false⟩ ∧
    wBuf.storeWaits 0 ⟨5, 0, 1, 0, 0, 0, [⟨0x400, 0x400, 8, 77⟩], none, false, false⟩ = false ∧
    ({ wBuf with reqs := [{ rq .strl 0x400 8 with id := 3, left := false, here := false }] } : State).storeWaits 0
      ⟨5, 0, 1, 0, 0, 0, [⟨0x400, 0x400, 8, 77⟩], none, false, false⟩ = true := by decide +kernel
def wBufBad : State := { w with
  cores := mput w.cores 0 { w.core 0 with sbuf := [⟨0, 0, 1, 0, 0, 0, [⟨0x400, 0x400, 8, 77⟩], some 4, false, false⟩] }, arg := .n1 0 }
theorem wit_store_refused_drains : wBufBad.arg = .n1 0 ∧ wBufBad.takesTraps 1 = true ∧
    ((wBufBad.core 0).sbuf.find? (fun x => !x.sent)).map (·.bad) = some (some 4) := by decide +kernel
theorem wit_store_performs : Performs (wr t0 (rq (.store false) 0x400 8)) 7 (rq (.store false) 0x400 8) ∧
    Performs (wr t0 (rq .strl 0x400 8)) 7 (rq .strl 0x400 8) := ⟨performs_of (by decide +kernel), performs_of (by decide +kernel)⟩
/-- Entries of domains 1 and 4, the second ready first, in a write queue and in a vault write buffer. -/
def ent (dom : Nat) (ready : Option Nat) : WEnt := ⟨dom, 0x400, 1, dom, none, ready, [⟨.powerUp, .none⟩]⟩
def wQ (wins : Map Nat) : State := { w with
  groups := mput w.groups 0 { w.group 0 with wq := [ent 1 (some 6), ent 4 (some 5)], bursts := wins }
  clusters := [(0, { Cluster.reset with wbuf := [ent 1 (some 6), ent 4 (some 5)] })] }
theorem wit_write_queue : (wQ []).nextBurst 0 = none ∧ (wQ []).nextWrite 0 = some (ent 4 (some 5)) ∧
    nextEnt ((wQ []).cluster 0).wbufLast ((wQ []).cluster 0).wbuf = some (ent 4 (some 5)) ∧
    nextEnt 3 [ent 1 (some 5), ent 4 (some 5)] = some (ent 4 (some 5)) := by decide +kernel
theorem wit_acknowledged : ({ w with acks := [⟨7, 0, some 5, 1, 0, 0, 0⟩] } : State).acks.find? (fun x => x.id == 7) = some ⟨7, 0, some 5, 1, 0, 0, 0⟩ ∧
    w.residentOn 0 (groupOf 0) = true := by decide +kernel

/-- Journal entry 5 of core 0, of thread 1. -/
def jent (st : JState) (rep : Option Nat) : JEnt := ⟨0, 1, 0, 0x400, 0, true, 0, 0, 0x400, 77, st, rep⟩
def wJ (st : JState) (rep : Option Nat) (arg : Arg) : State := { w with
  cores := mput w.cores 0 { w.core 0 with journal := [(5, jent st rep)] }, arg := arg }
theorem wit_journal_ack : (wJ .pending none (.n2 0 5)).arg = .n2 0 5 ∧
    mget ((wJ .pending none (.n2 0 5)).core 0).journal 5 = some (jent .pending none) := by decide +kernel
theorem wit_journal_refusal : (wJ .pending none (.n3 0 5 4)).arg = .n3 0 5 4 ∧ InSlot (wJ .pending none (.n3 0 5 4)) 0 t0 1 ∧
    coreOf (jent .pending none).k = 0 := ⟨rfl, ⟨rfl, rfl⟩, rfl⟩
theorem wit_store_refusal : ({ w with arg := .val 1 4 0x400 } : State).arg = .val 1 4 0x400 ∧ InSlot { w with arg := .val 1 4 0x400 } 0 t0 1 :=
  ⟨rfl, ⟨rfl, rfl⟩⟩

def rAtom : Req := rq (.atomic .cas 23 5 0) 0x400 8
theorem wit_atomic : Performs (wr t0 rAtom) 7 rAtom ∧ InSlot (wr t0 rAtom) 0 t0 1 ∧ (0x400 : Nat) % 8 = 0 :=
  ⟨performs_of (by decide +kernel), ⟨rfl, rfl⟩, rfl⟩
theorem wit_accz : Performs (wr t0 (rq .accz 0x400 96)) 7 (rq .accz 0x400 96) := performs_of (by decide +kernel)

def rSync (op : Sop) (final : Bool) : Req := rq (.sync op 23 5 final) 0x400 8
def tSync : Thread := { t0 with run := .parked (.sync 7) }
theorem wit_sync_succeeds : Performs (wr tSync (rSync .stef false)) 7 (rSync .stef false) ∧ NoneWaits (wr tSync (rSync .stef false)) ∧
    NoneSwapped (wr tSync (rSync .stef false)) 0x400 ∧ InSlot (wr tSync (rSync .stef false)) 0 tSync 1 ∧
    (wr tSync (rSync .stef false)).mem.fe 0x400 = false :=
  ⟨performs_of (by decide +kernel), by unfold NoneWaits; decide +kernel, by unfold NoneSwapped; decide +kernel, ⟨rfl, rfl⟩, rfl⟩
def wFull (op : Sop) : State := { wr tSync (rSync op false) with mem := w.mem.setFe 0x400 true }
theorem wit_sync_full : Performs (wFull .ldfe) 7 (rSync .ldfe false) ∧ (wFull .ldfe).mem.fe 0x400 = true ∧
    Performs (wFull .stff) 7 (rSync .stff false) ∧ Performs (wFull .ldff) 7 (rSync .ldff false) :=
  ⟨performs_of (by decide +kernel), by decide +kernel, performs_of (by decide +kernel), performs_of (by decide +kernel)⟩
theorem wit_sete_probe : Performs (wr t0 (rq .sete 0x400 8)) 7 (rq .sete 0x400 8) ∧
    Performs (wr t0 (rq (.probe 31) 0x400 8)) 7 (rq (.probe 31) 0x400 8) := ⟨performs_of (by decide +kernel), performs_of (by decide +kernel)⟩

theorem wit_try_fails : Performs (wr tSync (rSync .ldfe false)) 7 (rSync .ldfe false) ∧ (wr tSync (rSync .ldfe false)).mem.fe 0x400 ≠ true ∧
    Performs (wr tSync (rSync .ldfe true)) 7 (rSync .ldfe true) ∧
    (rSync .ldfe false).near = true ∧ (wr tSync (rSync .ldfe false)).waiters (homeCluster 0x400) < 128 :=
  ⟨performs_of (by decide +kernel), by decide +kernel, performs_of (by decide +kernel), by decide +kernel, by decide +kernel⟩
/-- A request from another cluster. -/
def rFar : Req := { rSync .ldfe false with k := 8 * 4 }
theorem wit_try_waits : Performs (wr tSync rFar) 7 rFar ∧ rFar.near = false := ⟨performs_of (by decide +kernel), by decide +kernel⟩
/-- A home whose table of waiters is full. -/
def wManyWaiters : State := { wr t0 rFar with
  clusters := [(homeCluster 0x400, { Cluster.reset with swapped := (List.range 128).map (fun i => ⟨i + 20, 0, 8 * i, true⟩) })] }
theorem wit_try_resent : Performs wManyWaiters 7 rFar ∧ 128 ≤ wManyWaiters.waiters (homeCluster 0x400) :=
  ⟨performs_of (by decide +kernel), by decide +kernel⟩
theorem wit_withdrawn : ({ wr tSync rFar with arg := .n2 0 7 } : State).arg = .n2 0 7 ∧
    ({ wr tSync rFar with arg := .n2 0 7 } : State).req 7 = some rFar ∧
    ({ wr tSync rFar with arg := .n2 0 7 } : State).thread 0 = some tSync ∧ tSync.run = .parked (.sync 7) := ⟨rfl, rfl, rfl, rfl⟩
def tWord : Thread := { t0 with run := .parked (.word 0x400 true), leaving := some false }
theorem wit_word_wake : InSlot { wt tWord with arg := .n2 0 1 } 0 tWord 1 := ⟨rfl, rfl⟩

def rFetch : Req := rq (.fetch 0x10000) 0x10000 32
def tFill : Thread := { t0 with run := .parked (.fill (0x10000 / 32)) }
theorem wit_fill_line : Performs (wr tFill rFetch) 7 rFetch ∧ InSlot (wr tFill (done rFetch (.ok 5 0))) 0 tFill 1 ∧
    Arrives (wr tFill (done rFetch (.ok 5 0))) 7 (done rFetch (.ok 5 0)) (.ok 5 0) ∧ (Ret.ok 5 0).trap = none :=
  ⟨performs_of (by decide +kernel), ⟨rfl, rfl⟩, ⟨rfl, rfl, rfl⟩, rfl⟩
theorem wit_fill_plb : ({ w with arg := .val (0 * 4096 + 0) 8 0x400 } : State).arg = .val 0 8 0x400 ∧ (w.rangeOf 0 0x400 8).isSome = true := by
  decide +kernel
/-- A packet that is to make the given hops. -/
def pkt (writes : Bool) (hops : List Hop) : Packet := ⟨1, hops, none, [], none, writes, 0, ⟨.powerUp, .none⟩⟩
/-- From die 1 to die 0: the last two hops, from the package switch on, and the first, at which it leaves die 1. -/
theorem wit_package_hop : ({ w with fabric := [pkt true [⟨0, 1⟩]] } : State).canSend 0 = true ∧ packageOut 0 = true ∧
    ({ w with fabric := [pkt true [⟨0, 1⟩]] } : State).fabric.filter (fun x => x.waitsAt 0 w.cycle) = [pkt true [⟨0, 1⟩]] ∧
    (pkt true [⟨0, 1⟩]).leaves = none ∧ (w.die 0).clk.length = 8 ∧ (w.die 0).known.length = 8 := by decide +kernel
theorem wit_leaves (writes : Bool) : (pkt writes (route 0 (diePath 1) (diePath 0))).leaves = some 1 ∧ (pkt writes (route 0 (diePath 1) (diePath 0))).writes =
    writes := by
  refine ⟨?_, rfl⟩
  show (if packageOut 0 && ([] : List Nat).isEmpty then some ((1 + 32 * upTo [1] (diePath 0)) % 32) else none) = some 1
  rw [Nat.add_mul_mod_self_left]
  rfl
theorem wit_clock_probe : ({ w with arg := .n2 0 1 } : State).arg = .n2 0 1 := rfl
def rWatch (rel : Nat) : Req := rq (.watch rel 0) 0x400 8
theorem wit_watch_arms : Performs (wr t0 (rWatch 6)) 7 (rWatch 6) ∧ Performs (wr t0 (rWatch 0)) 7 (rWatch 0) ∧
    ((wr t0 (rWatch 6)).cluster (homeCluster 0x400)).watches.length < 256 :=
  ⟨performs_of (by decide +kernel), performs_of (by decide +kernel), by decide +kernel⟩
def wManyWatches : State := { wr t0 (rWatch 6) with
  clusters := [(homeCluster 0x400, { Cluster.reset with watches := (List.range 256).map (fun i => ⟨i + 20, i + 20, 8 * i, 0, 1⟩) })] }
theorem wit_watch_table_full : Performs wManyWatches 7 (rWatch 6) ∧
    256 ≤ (wManyWatches.cluster (homeCluster 0x400)).watches.length := ⟨performs_of (by decide +kernel), by decide +kernel⟩
def tArmed : Thread := { t0 with watch := .armed 7 0x400 }
theorem wit_watch_wakes (v : Option DW) : InSlot { wt tArmed with arg := .wake 1 7 v } 0 tArmed 1 ∧ tArmed.watch = .armed 7 0x400 :=
  ⟨⟨rfl, rfl⟩, rfl⟩
/-- Way 3 of cluster 0 is about to become scratch; it holds a dirty line, which may be on its way to memory. -/
def wWay (lines : List VLine) : State := { w with clusters := [(0, { Cluster.reset with wmask := 0x100080000, lines := lines })], arg := .n1 0 }
theorem wit_way_changes : (wWay []).arg = .n1 0 ∧ ((wWay []).cluster 0).wmask.getLsbD 32 = true ∧
    ((wWay []).cleanLeaving 0).copyIntoLeaving 0 = false ∧ ((wWay []).cleanLeaving 0).cleaning 0 = false ∧
    ((wWay []).cluster 0).wmask.getLsbD 3 ≠ ((wWay []).cluster 0).wmask.getLsbD 19 := by decide +kernel
theorem wit_way_cleans : ((wWay [⟨0, 8, 0x400, 3, true⟩]).cluster 0).leavingLines = [⟨0, 8, 0x400, 3, true⟩] ∧
    ((wWay [⟨0, 8, 0x400, 3, true⟩]).cleanLeaving 0).cleaning 0 = true := by decide +kernel

/-! ## Copies -/

/-- CPY of 4 elements. -/
theorem wit_copy : Executes w t0 false ((op 2 1 (.imm 4)).sx w.q ++ (op 2 1 (.imm 4)).tx w.q ++ (op 2 1 (.imm 4)).dx w.q) [] ∧
    ((w.cx t0).tval (op 2 1 (.imm 4))).toNat = 4 := ⟨wit_executes w _ _ rfl rfl rfl rfl, by decide +kernel⟩
/-- A CPYT whose block is in g0 to g7, COLS and ROWS 1. -/
def tBlock (f : List Nat) : Thread := { t0 with g := Vector.ofFn (fun i : Fin 24 => ⟨dw (f.getD i.val 0), true, false, false⟩) }
def opb : OpP := ⟨op 0 0 (.imm 0), 0, 0, 0, 0⟩
/-- CPYT from literals: one row of one element. -/
theorem wit_copy_counts : (w.cx t0).tval (op 3 1 (.imm 0)) = 0 ∧ (w.cx t0).field .cpyt ⟨op 0 0 (.imm 0), 0x800, 0x400, 0, 0⟩ 2 = 0 ∧
    Executes w t0 false (blockSrcs .cpyt ⟨op 0 0 (.imm 0), 0x800, 0x400, 0, 0⟩) [] := ⟨by decide +kernel, by decide +kernel, wit_executes w _ _ rfl rfl rfl rfl⟩
def ocpyt : OpP := ⟨op 0 0 (.imm 0), 0x800, 0x400, 0x10001, 0⟩
theorem wit_cpyt : Executes w t0 false (blockSrcs .cpyt ocpyt) [] ∧ (w.cx t0).field .cpyt ocpyt 2 = 1 ∧ (w.cx t0).field .cpyt ocpyt 3 = 1 :=
  ⟨wit_executes w _ _ rfl rfl rfl rfl, by decide +kernel, by decide +kernel⟩

/-- A copy command of 4 doublewords from 0x400 to 0x800, or a fill of one word at 0x800. -/
def copyCmd (fill : Option (DW × Bool)) (cnt : Nat) (status : Byte) : CopyCmd := ⟨0, 1, 0, 0, 0, 0, fill, 0x800, 0x400, cnt, 1, 0, 0,
  dw (plainFmt 3 0), dw (plainFmt 3 0), 0, 0, 0, 0, status, none, [(0, 4), (0, 8)]⟩
def tCopy : Thread := { t0 with run := .parked .copyAccept, pend := some (.copy (copyCmd none 4 0)) }
def wAccept : State := { wt tCopy with arg := .n1 0 }
theorem wit_copy_accepts : wAccept.arg = .n1 0 ∧ wAccept.thread 0 = some tCopy ∧ (wAccept.cluster (clusterOf (coreOf 0))).copyq.length < 32 ∧
    wAccept.releasedNow 0 tCopy .die = true ∧ isService (coreOf 0) = false ∧ wAccept.copyWinner (clusterOf (coreOf 0)) = some 0 ∧
    tCopy.took = [] ∧ (∃ c', wAccept.acceptCopy false (copyCmd none 4 0) = .ok c' ∧
      wAccept.ownedElsewhere c'.own (.copy (clusterOf (coreOf 0))) = false) :=
  ⟨rfl, rfl, by decide +kernel, by decide +kernel, rfl, by decide +kernel, rfl, copyCmd none 4 0, ok_of_okIs (by decide +kernel),
    by decide +kernel⟩
/-- The same thread with the item of k0 taken by its command. -/
theorem wit_copy_took : ({ tk with took := [24] } : Thread).took = [24] ∧ isK 24 = true ∧ (tk.kb (kIndex 24)).isSome = true := ⟨rfl, rfl, rfl⟩
def wCopy (c : CopyCmd) : State := { w with clusters := [(0, { Cluster.reset with copyq := [c] })], arg := .n1 0 }

theorem wit_copy_unit : (wCopy (copyCmd none 4 0)).arg = .n1 0 ∧ ((wCopy (copyCmd none 4 0)).cluster 0).copyq = [copyCmd none 4 0] ∧
    (wCopy (copyCmd none 4 0)).switching (groupOfCluster 0) = false ∧ sameElems (dw (plainFmt 3 0)).toNat (dw (plainFmt 3 0)).toNat = true ∧
    bfFmt (dw (plainFmt 3 0)).toNat ≠ 11 ∧ bfSparse (dw (plainFmt 3 0)).toNat = false ∧
    (wCopy (copyCmd none 4 0)).engPlaces ⟨false, dieOfCluster 0, 0, 0, .copy 0, [(0, 4), (0, 8)]⟩ .rd
      (pageParts 0x400 (fmtLen (dw (plainFmt 3 0)).toNat 4)) = .ok [⟨0x400, 0x400, fmtLen (dw (plainFmt 3 0)).toNat 4, 0⟩] ∧
    (wCopy (copyCmd none 4 0)).engPlaces ⟨false, dieOfCluster 0, 0, 0, .copy 0, [(0, 4), (0, 8)]⟩ .wr
      (pageParts 0x800 (fmtLen (dw (plainFmt 3 0)).toNat 4)) = .ok [⟨0x800, 0x800, fmtLen (dw (plainFmt 3 0)).toNat 4, 0⟩] :=
  ⟨rfl, rfl, by decide +kernel, by decide +kernel, by decide +kernel, by decide +kernel, ok_of_placesAre (by decide +kernel),
    ok_of_placesAre (by decide +kernel)⟩
theorem wit_fill_unit : (copyCmd (some (9, true)) 1 0).cnt = (copyCmd (some (9, true)) 1 0).done + 1 ∧ (0x800 : Nat) % 8 = 0 ∧
    NoneWaits (wCopy (copyCmd (some (9, true)) 1 0)) ∧ NoneSwapped (wCopy (copyCmd (some (9, true)) 1 0)) 0x800 ∧
    (wCopy (copyCmd (some (9, true)) 1 0)).engPlaces ⟨true, dieOfCluster 0, 0, 0, .copy 0, [(0, 4), (0, 8)]⟩ .wr (pageParts 0x800 8) =
      .ok [⟨0x800, 0x800, 8, 0⟩] :=
  ⟨rfl, rfl, by unfold NoneWaits; decide +kernel, by unfold NoneSwapped; decide +kernel, ok_of_placesAre (by decide +kernel)⟩
/-- A write of cluster 0's engine still stands in a write queue. -/
theorem wit_copy_drains : ({ wCopy (copyCmd none 4 3) with
      groups := mput w.groups 0 { w.group 0 with wq := [⟨0, 0x800, 1, 1, some 0, none, []⟩] } } : State).draining 0 = true ∧
    (wCopy (copyCmd none 4 3)).draining 0 = false := by decide +kernel
theorem wit_copy_ends : ((wCopy (copyCmd none 4 3)).cluster 0).copyq = [copyCmd none 4 3] ∧ (copyCmd none 4 3).status ≠ 0 ∧
    InSlot (wCopy (copyCmd none 4 3)) 0 t0 1 := ⟨rfl, by decide, ⟨rfl, rfl⟩⟩

/-! ## Vector instructions -/

/-- vd 7, vs 6, vt 5 with an element type. -/
def ov (et : Nat) : Op := opE et 7 6 (.reg 5)
theorem wit_vector_forms (et : Nat) : Executes w t0 false (vsAndVt (ov et) w.q) [.v (ov et).dn] ∧
    Executes w t0 false [.v (ov et).sn 0 w.q.ts] [.v (ov et).dn] ∧
    Executes w t0 false (vsAndVt (ov et) w.q ++ [.v (ov et).dn 2 w.q.td]) [.v (ov et).dn] ∧ (ov et).dn < 8 ∧ (ov et).et.toNat < 8 := by
  refine ⟨wit_executes w _ _ rfl rfl rfl rfl, wit_executes w _ _ rfl rfl rfl rfl, wit_executes w _ _ rfl rfl rfl rfl, ?_, ?_⟩
  · show (BitVec.ofNat 6 7).toNat < 8; decide
  · exact (ov et).et.isLt
theorem wit_vector_kinds : etFp (ov 0).et.toNat = false ∧ etFp (ov 6).et.toNat = true := by decide
theorem wit_vector_shift_immediate : Executes w t0 false (vsAndVt (opE 3 7 6 (.imm 65)) w.q) [.v 7] := wit_executes w _ _ rfl rfl rfl rfl
theorem wit_vcmp : Executes w t0 false (vsAndVt (opE 3 31 6 (.reg 5)) w.q) [.x ((opE 3 31 6 (.reg 5)).dn % 8)] := wit_executes w _ _ rfl rfl rfl rfl
theorem wit_vsel : Executes w t0 false (.v 6 0 w.q.ts :: (opE 3 7 6 (.reg 23)).tx w.q ++ [.v 7 2 w.q.td]) [.v 7] :=
  wit_executes w _ _ rfl rfl rfl rfl
theorem wit_reduction : Executes w t0 false [.v 6 0 w.q.ts] [.x 23] := wit_executes w _ _ rfl rfl rfl rfl
theorem wit_vbcast : Executes w t0 false ((opE 3 7 23 (.imm 0)).sx w.q) [.v 7] := wit_executes w _ _ rfl rfl rfl rfl
theorem wit_lane_moves : Executes w t0 false (.v 6 0 w.q.ts :: (opE 3 23 6 (.imm 7)).tx w.q) [.x 23] ∧
    Executes w t0 false ((opE 3 7 23 (.imm 7)).sx w.q ++ (opE 3 7 23 (.imm 7)).tx w.q ++ [.v 7 2 w.q.td]) [.v 7] ∧
    ((w.cx t0).tvalZ (opE 3 23 6 (.imm 7))).toNat < 512 / etW 3 ∧ 512 / etW 3 ≤ ((w.cx t0).tvalZ (opE 3 23 6 (.imm 8))).toNat :=
  ⟨wit_executes w _ _ rfl rfl rfl rfl, wit_executes w _ _ rfl rfl rfl rfl, by decide +kernel, by decide +kernel⟩
theorem wit_vcvt : vcvtOk ((w.cx t0).tvalZ (opE 3 7 6 (.imm 0x67))).toNat = true ∧
    vcvtOk ((w.cx t0).tvalZ (opE 3 7 6 (.imm 0xFFFFF))).toNat = false := by decide +kernel

/-- Whether lanes reach their places and are clean, as a Boolean. -/
def lanesOk (s : State) (t : Thread) (n : Nat) (rt : Right) (late : Bool) (l : List Nat) : Bool :=
  !s.acquiring s.cur t && l.all (fun a => okIs (s.access s.cur t a n n rt late) ⟨a, a, none⟩ && !(s.cx t).posting a n &&
    s.mem.badWord a n == none && (s.core (coreOf s.cur)).sbuf.isEmpty)
theorem wit_vld : sumAddr w t0 (op 7 1 (.imm 0x400)) = 0x400 ∧ lanesOk w t0 64 .rd false [0x400] = true ∧
    lanesOk w t0 64 .wr true [0x400] = true ∧ w.forward w.cur 0x400 64 = .none := ⟨by decide +kernel, by decide +kernel, by decide +kernel, rfl⟩
theorem wit_strided : (List.range (512 / etW 3)).map (fun i =>
      ((w.cx t0).sval (opE 3 7 1 (.imm 16)) + BitVec.ofNat 64 i * (w.cx t0).tval (opE 3 7 1 (.imm 16))).toNat % 2 ^ 56) =
        (List.range 8).map (16 * ·) ∧
    lanesOk w t0 8 .rd false ((List.range 8).map (16 * ·)) = true ∧ lanesOk w t0 8 .wr true ((List.range 8).map (16 * ·)) = true := by
  decide +kernel
theorem wit_vector_accesses : Executes w t0 false ((op 7 1 (.imm 0x400)).sx w.q ++ (op 7 1 (.imm 0x400)).tx w.q) [.v 7] ∧
    Executes w t0 false ((op 7 1 (.imm 0x400)).sx w.q ++ (op 7 1 (.imm 0x400)).tx w.q ++ [.v 7 2 w.q.td]) [] ∧
    Executes w t0 false ((op 7 1 (.reg 5)).sx w.q ++ (op 7 1 (.reg 5)).tv w.q) [.v 7] :=
  ⟨wit_executes w _ _ rfl rfl rfl rfl, wit_executes w _ _ rfl rfl rfl rfl, wit_executes w _ _ rfl rfl rfl rfl⟩
theorem wit_acc_object : accMisplaced 0 = false ∧ w.access w.cur t0 0 96 1 .rw true = .ok ⟨0, 0, none⟩ ∧
    w.access w.cur t0 0 96 1 .rd false = .ok ⟨0, 0, none⟩ ∧ ((w.cx t0).dval (opE 0 3 1 (.imm 0))).toNat % 2 ^ 56 = 0 ∧
    (w.cx t0).posting 0 96 = false ∧ Executes w t0 false ((opE 0 3 1 (.imm 0)).sx w.q ++ (opE 0 3 1 (.imm 0)).dx w.q) [] :=
  ⟨by decide, ok_of_okIs (by decide +kernel), ok_of_okIs (by decide +kernel), by decide +kernel, by decide +kernel,
    wit_executes w _ _ rfl rfl rfl rfl⟩
theorem wit_vdota : Executes w t0 false (vsAndVt (opE 0 3 6 (.reg 5)) w.q ++ (opE 0 3 6 (.reg 5)).dx w.q) [] :=
  wit_executes w _ _ rfl rfl rfl rfl
/-! ## The Plank -/

def tHeld : Thread := { t0 with lease := .held }
/-- Group 0 with a Plank, and an event. -/
def wPl (t : Thread) (p : Plank) (arg : Arg) : State := { wt t with groups := mput w.groups 0 { w.group 0 with plank := p }, arg := arg }
def plk : Plank := (w.group 0).plank

theorem wit_lease_forms (l : Lease) : Executes (wt { t0 with lease := l }) { t0 with lease := l } false [] [.x 3] ∧
    Executes (wt { t0 with lease := l }) { t0 with lease := l } false [] [] :=
  ⟨⟨⟨rfl, .inr rfl, rfl, rfl, rfl⟩, rfl⟩, ⟨⟨rfl, .inr rfl, rfl, rfl, rfl⟩, rfl⟩⟩
theorem wit_lapsed_owed : ({ t0 with lease := .lapsed, leaseOwe := some (3, 5) } : Thread).leaseOwe ≠ none := by decide
theorem wit_lapsed : t0.lease = .none ∧ t0.leaseOwe = none ∧ ({ t0 with lease := .lapsed } : Thread).leaseOwe = none := by decide +kernel
def tAsk : Thread := { t0 with lease := .requested, leaseOwe := some (3, 0) }
theorem wit_lease_granted : (wPl tAsk plk (.n1 0)).arg = .n1 0 ∧ ((wPl tAsk plk (.n1 0)).group 0).plank.holder = none ∧
    (wPl tAsk plk (.n1 0)).leaseWaiters 0 ≠ [] ∧
    InSlot (wPl tAsk plk (.n1 0)) 0 tAsk 1 ∧ (0, 1) ∈ (wPl tAsk plk (.n1 0)).leaseWaiters 0 ∧ tAsk.leaseOwe = some (3, 0) :=
  ⟨rfl, by decide +kernel, by decide +kernel, ⟨rfl, rfl⟩, by decide +kernel, rfl⟩
def tRelapsed : Thread := { t0 with lease := .requested }
theorem wit_lease_granted_again : InSlot (wPl tRelapsed plk (.n1 0)) 0 tRelapsed 1 ∧ tRelapsed.leaseOwe = none ∧
    (wPl tRelapsed plk (.n1 0)).leaseWaiters 0 = [(0, 1)] := ⟨⟨rfl, rfl⟩, rfl, by decide +kernel⟩
theorem wit_lease_limit : (wPl tHeld { plk with holder := some 1 } (.n2 0 0)).arg = .n2 0 plk.granted ∧
    (wPl tHeld { plk with holder := some 1 } (.n2 0 0)).leaseWaiters 0 = [] ∧
    (wPl tAsk { plk with holder := some 5 } (.n2 0 0)).leaseWaiters 0 ≠ [] := by decide +kernel

theorem wit_plank_ready : PlankReady (wt tHeld) tHeld ∧ Executes (wt tHeld) tHeld false [] [] :=
  ⟨⟨by decide +kernel, by decide +kernel, by decide +kernel⟩, ⟨⟨rfl, .inr rfl, rfl, rfl, rfl⟩, rfl⟩⟩
/-- MLDW of 32 bytes, MMUL and MMULS of one row, one column and K = 64, MDRAIN of one accumulator. -/
def omldw : OpP := ⟨op 0 0 (.imm 0), 0x400, 32, 0, 0⟩
def ommul : OpP := ⟨op 0 0 (.imm 0), 0x400, 0, 0x400101, 0⟩
def omdrain : OpP := ⟨op 0 0 (.imm 0), 0x800, 0x101, 0, 0⟩
theorem wit_mldw : Executes (wt tHeld) tHeld false (blockSrcs .mldw omldw) [] ∧
    (∃ r, (wt tHeld).checks (wt tHeld).cur tHeld 0x400 32 1 .rd = .ok r) ∧ ((wt tHeld).cx tHeld).field .mldw omldw 0 = 0x400 ∧
    ((wt tHeld).cx tHeld).field .mldw omldw 1 = 32 ∧ ((wt tHeld).cx tHeld).field .mldw omldw 2 = 0 :=
  ⟨⟨⟨rfl, .inr rfl, rfl, rfl, rfl⟩, rfl⟩, ⟨rgx 0 true true true, ok_of_okIs (by decide +kernel)⟩, by decide +kernel, by decide +kernel,
    by decide +kernel⟩
theorem wit_mmul : Executes (wt tHeld) tHeld false (blockSrcs .mmul ommul) [] ∧ Executes (wt tHeld) tHeld false (blockSrcs .mmuls ommul) [] ∧
    (∀ m ∈ [Mnem.mmul, .mmuls],
      let f := ((wt tHeld).cx tHeld).field m ommul
      f 4 = 64 ∧ bits (f 3) 15 8 = 1 ∧ bits (f 3) 7 0 = 1 ∧ f 6 < 4 ∧ bit (f 6) 1 = false) :=
  ⟨⟨⟨rfl, .inr rfl, rfl, rfl, rfl⟩, rfl⟩, ⟨⟨rfl, .inr rfl, rfl, rfl, rfl⟩, rfl⟩, by decide +kernel⟩
theorem wit_mdrain : Executes (wt tHeld) tHeld false (blockSrcs .mdrain omdrain) [] ∧
    (
      let f := ((wt tHeld).cx tHeld).field .mdrain omdrain
      bits (f 1) 15 8 = 1 ∧ bits (f 1) 7 0 = 1 ∧ f 4 < 8 ∧ bit (f 4) 2 = false) :=
  ⟨⟨⟨rfl, .inr rfl, rfl, rfl, rfl⟩, rfl⟩, by decide +kernel⟩
/-- MZERO held for acceptance, and an MDRAIN whose address is in the FIFO. -/
def plCmd (op : PlankOp) (started : Bool) : PlankCmd := ⟨0, 1, 0, 0, 0, 0, op, 0, 0, started, 0, 0, none, [(0, 4), (0, 8)], none⟩
def tPl (op : PlankOp) (fifo : Bool) (l : List DW) : Thread := { tHeld with
  run := .parked .plankAccept, pend := some (.plank (plCmd op false) fifo), fifo := tHeld.fifo.setIfInBounds 1 l }
theorem wit_plank_accepts : (wPl (tPl .zero false []) plk (.n1 0)).arg = .n1 0 ∧
    (wPl (tPl .zero false []) plk (.n1 0)).thread 0 = some (tPl .zero false []) ∧
    (wPl (tPl .zero false []) plk (.n1 0)).releasedNow 0 (tPl .zero false []) .die = true ∧
    (wPl (tPl .zero false []) plk (.n1 0)).acceptPlank (plCmd .zero false) none = .ok (plCmd .zero false) ∧
    (wPl (tPl .zero false []) plk (.n1 0)).ownedElsewhere (plCmd .zero false).own (.plank 0) = false ∧
    plk.queue = [] ∧ plk.retired = false ∧ plk.cmds + 1 ≠ 64 ∧ (wPl (tPl .zero false []) plk (.n1 0)).plankFree 0 = true :=
  ⟨rfl, rfl, by decide +kernel, rfl, by decide +kernel, by decide +kernel, by decide +kernel, by decide +kernel, by decide +kernel⟩
def wFifo : State := wPl (tPl (.drain 0 0 1 1 1 false true) true [0x800]) { plk with queue := [plCmd .zero true] } (.n1 0)
theorem wit_plank_accepts_fifo : ((tPl (.drain 0 0 1 1 1 false true) true [0x800]).fifoOf 2).head? = some 0x800 ∧
    (wFifo.group 0).plank.queue ≠ [] ∧
    wFifo.acceptPlank (plCmd (.drain 0 0 1 1 1 false true) false) (some 0x800) = .ok (plCmd (.drain 0x800 0 1 1 1 false true) false) :=
  ⟨by decide +kernel, by decide +kernel, ok_of_okIs (by decide +kernel)⟩
/-- A multiply command at the head of Plank 0, due. -/
def mulCmd : PlankCmd := plCmd (.mul false true 0x400 0 0 64 1 1 0) false
def wGov (budget : Nat) : State := { wPl tHeld { plk with queue := [mulCmd] } .none with io := { w.io with budget := budget } }
theorem wit_governor_starts :
    let s := wGov ((wGov 0).draw + mulCmd.draw)
    (s.groups.map (·.1)).Nodup ∧ (s.group 0).plank.queue = [mulCmd] ∧ isMultiply mulCmd.op = true ∧ mulCmd.started = false ∧
    s.plankFree 0 = true ∧ s.draw + mulCmd.draw ≤ s.io.budget := by
  refine ⟨?_, rfl, rfl, rfl, rfl, Nat.le_refl _⟩
  have : (wGov ((wGov 0).draw + mulCmd.draw)).groups.map (·.1) = w.groups.map (·.1) := rfl
  rw [this]; decide +kernel
/-- The draw is a free value (log 9): where it is not 0, a budget of 0 delays the command. -/
theorem wit_governor_delays (h : 0 < mulCmd.draw) : (wGov 0).io.budget < (wGov 0).draw + mulCmd.draw := by
  have : (wGov 0).io.budget = 0 := rfl
  omega
theorem wit_only_plank : ∀ g, g ≠ 0 → ¬ MultiplyDue (wGov 0) g := by
  intro g h ⟨p, l, hq, _⟩
  have e : (wGov 0).group g = w.group g := by
    show (mget (mput w.groups 0 _) g).getD _ = _
    rw [mget_mput_ne _ _ h]; rfl
  rw [e] at hq
  have : (w.group g).plank.queue = [] := by
    show ((mget (mput State.reset.groups 0 _) g).getD _).plank.queue = _
    rw [mget_mput_ne _ _ h]; rfl
  rw [this] at hq; cases hq

def wRun (c : PlankCmd) (p : Plank) : State := wPl tHeld { p with queue := [c] } (.n1 0)
theorem plank_runs (op : PlankOp) (p : Plank) : PlankRuns (wRun (plCmd op true) p) 0 (plCmd op true) [] ∧
    InSlot (wRun (plCmd op true) p) 0 tHeld 1 := ⟨⟨rfl, rfl, rfl, rfl, rfl, rfl⟩, ⟨rfl, rfl⟩⟩
def ldwCmd : PlankCmd := plCmd (.ldw 0x400 32 0) true
theorem wit_mldw_runs : (wRun ldwCmd plk).plankPlaces 0 ldwCmd .rd 0x400 32 = .ok [⟨0x400, 0x400, 32, 0⟩] ∧
    cellsWf 0 plk.wbuf = true ∧ (wRun ldwCmd plk).draining 1024 = false := ⟨ok_of_placesAre (by decide +kernel), by decide +kernel, by decide +kernel⟩
def fp64Mul : PlankCmd := { plCmd (.mul false false 0x400 0 0 64 1 1 0) true with fa := 0x8018, fb := 0x8018, got := [(0, 4), (0, 5)] }
theorem wit_mmul_conflict : ∃ i < 1, ∃ j < 1, ∃ x, mget [((0 : Nat), Accu.exact 0 0)] (i * 64 + j) = some x ∧ x.conflicts true = true :=
  ⟨0, by decide, 0, by decide, .exact 0 0, rfl, rfl⟩
theorem wit_mmul_runs : (bfFmt fp64Mul.fa.toNat == 8) = true ∧ (rowOf (wRun fp64Mul plk) 0 fp64Mul 0x400 0 64 0).err = none ∧
    (∀ i < 1, ∀ j < 1, mget plk.acc (i * 64 + j) = none) := by decide +kernel
def drainCmd (round : Bool) : PlankCmd := { plCmd (.drain 0x800 0 1 1 1 round true) true with fa := 0x3018 }
theorem wit_mdrain_runs : ((drainCmd false).nextUnit [] 0x800 0 1 1 1 false).map (fun u => (u.va, u.n)) = some (0x800, 96) ∧
    ((drainCmd true).nextUnit [] 0x800 0 1 1 1 true).map (fun u => (u.va, u.n)) = some (0x800, (fmtNumTy (bfFmt 0x3018)).w / 8) ∧
    ({ drainCmd true with done := 1 } : PlankCmd).nextUnit [] 0x800 0 1 1 1 true = none ∧
    (wRun (drainCmd false) plk).plankPlaces 0 (drainCmd false) .wr 0x800 96 = .ok [⟨0x800, 0x800, 96, 0⟩] ∧
    (wRun (drainCmd true) plk).plankPlaces 0 (drainCmd true) .wr 0x800 ((fmtNumTy (bfFmt 0x3018)).w / 8) =
      .ok [⟨0x800, 0x800, (fmtNumTy (bfFmt 0x3018)).w / 8, 0⟩] ∧ bfFmt (drainCmd true).fa.toNat ≠ 11 :=
  ⟨by decide +kernel, by decide +kernel, by decide +kernel, ok_of_placesAre (by decide +kernel), ok_of_placesAre (by decide +kernel),
    by decide +kernel⟩
theorem wit_plank_ended : ({ fp64Mul with ended := some 1 } : PlankCmd).ended = some 1 ∧
    (wRun { fp64Mul with ended := some 1 } plk).switching 0 = false ∧ (wRun { fp64Mul with ended := some 1 } plk).draining 1024 = false ∧
    ({ wRun { fp64Mul with ended := some 1 } plk with
      clusters := [(0, { Cluster.reset with wbuf := [⟨0, 0x800, 1, 1, some 1024, none, []⟩] })] } : State).draining 1024 = true := by decide +kernel
def wPlErr (x : Nat) (p : PlankCmd) : State := wPl tHeld { plk with queue := [p] } (.n3 0 x 0)
theorem wit_plank_error : (wPlErr 0 fp64Mul).arg = .n3 0 0 0 ∧ (wPlErr 1 fp64Mul).arg = .n3 0 1 0 ∧
    ((wPlErr 1 fp64Mul).group 0).plank.queue = [fp64Mul] ∧ fp64Mul.started = true ∧ (wPlErr 1 fp64Mul).draining 1024 = false ∧
    (rowOf (wPlErr 1 fp64Mul) 0 fp64Mul 0x400 0 64 0).err = none ∧
    (∃ b ∈ (wPlErr 1 fp64Mul).mulCols 0 fp64Mul (fun o => o == 0 / 8 * 8) 0 0 64 1, b.err ≠ none) := by decide +kernel

theorem wit_mstat : Executes w t0 false ((op 3 0 (.imm 3)).tx w.q) [.x 3] ∧ ((w.cx t0).tvalZ (op 3 0 (.imm 259))).toNat = 256 * 1 + 3 ∧
    ((w.cx t0).tvalZ (op 3 0 (.imm 4))).toNat = 4 := ⟨wit_executes w _ _ rfl rfl rfl rfl, by decide +kernel, by decide +kernel⟩
theorem wit_status_word : ({ plk with holder := some 1 } : Plank).holder = some 1 ∧ plk.queue.length ≤ 16 ∧ plk.lastKey < 512 ∧
    plk.cmds ≤ 64 ∧ plk.granted ≤ 5 ∧ 5 ≤ plk.granted + 65536 := by decide +kernel
/-- A bank format at scratch way 0 of cluster 0. -/
def tBank : Thread := { t0 with g := (t0.g.setIfInBounds 1 ⟨0xF0000000000000, true, false, false⟩).setIfInBounds 3 ⟨0x3018, true, false, false⟩ }
def wBank : State := { wt tBank with
  clusters := [(0, { Cluster.reset with wmask := 1 })],
  cores := [(0, { Core.reset with plb := [⟨0, 0xF0000000000, 0xF00000000FF, 0, 0, false, true, true, true⟩] })] }
theorem wit_bank_format : baseAddr wBank tBank (op 3 1 (.imm 0)) = 0xF0000000000000 ∧ regionOf 0xF0000000000000 = 0xF0 ∧
    wBank.access wBank.cur tBank 0xF0000000000000 1 1 .wr false = .ok ⟨0xF0000000000000, scratchLoc 0 0 0, none⟩ ∧
    wBank.access wBank.cur tBank 0xF0000000000000 1 1 .rd false = .ok ⟨0xF0000000000000, scratchLoc 0 0 0, none⟩ ∧
    bfBad ((wBank.cx tBank).dval (op 3 1 (.imm 0))).toNat = false ∧
    Executes wBank tBank false ((op 3 1 (.imm 0)).sx wBank.q ++ (op 3 1 (.imm 0)).dx wBank.q) [] ∧
    Executes wBank tBank false ((op 3 1 (.imm 0)).sx wBank.q) [.x 3] :=
  ⟨by decide +kernel, by decide, ok_of_okIs (by decide +kernel), ok_of_okIs (by decide +kernel), by decide +kernel,
    ⟨⟨rfl, .inr rfl, rfl, rfl, rfl⟩, rfl⟩, ⟨⟨rfl, .inr rfl, rfl, rfl, rfl⟩, rfl⟩⟩

/-! ## Work -/

def cnt (n : Nat) (done : Bool) : Counter := ⟨0, true, 0, n, done, false, false, 0, 0, []⟩
def lch (n : Nat) (done : Bool) (st : LStage) : Launch := ⟨cnt n done, 0x80000000, 0, 0, 0, 0, 0, 2, 1, 0x10000, 7, 2, st⟩
/-- Partition 0 with a job of 5, phase 0 of 3, graph 0 of two members on die 0, and launch 0 of two threads on die 0. -/
def wWk (t : Thread) (arg : Arg) : State := { wt t with
  parts := mput w.parts 0 { w.partn 0 with job := cnt 5 false, phases := [(0, cnt 3 false), (1, cnt 0 true)] }
  dies := mput w.dies 0 { w.die 0 with
    launches := [(0, lch 2 false .started)], graphs := [(0, ⟨cnt 2 false, 0x80000000, 2, 0, [], 0, 0⟩)] }
  arg := arg }
def wk : State := wWk t0 .none
/-- LAUNCH of one core under phase 0, and under graph 0. -/
def olaunch (parent : Nat) : OpP := ⟨op 3 1 (.imm 0), 0x10000, 7, 0, BitVec.ofNat 32 parent⟩
theorem wit_launch : Executes wk t0 false ((olaunch 0x80000000).o.sx wk.q ++ blockSrcs .launch (olaunch 0x80000000)) [.x 3] ∧
    ((wk.cx t0).sval (olaunch 0x80000000).o).toNat = 0 ∧
    (∀ i ∈ [2, 3], (wk.cx t0).field .launch (olaunch 0x80000000) i = 0) ∧ wk.rectInPart t0.partN 0 0 0 1 1 = true ∧
    wk.releasedNow wk.cur t0 .die = true ∧ lowestFree (fun i => (wk.launch 0 i).c.used) 1024 0 = some 1 ∧
    checkHandle wk t0.partN ((wk.cx t0).field .launch (olaunch 0x80000000) 4) = .live (.phase 0 0) ∧
    (wk.counter (.phase 0 0)).done = false ∧ (wk.counter (.phase 0 0)).can = false :=
  ⟨⟨⟨rfl, .inr rfl, rfl, rfl, rfl⟩, rfl⟩, by decide +kernel, by decide +kernel, by decide +kernel, by decide +kernel, by decide +kernel, rfl,
    rfl, rfl⟩
theorem wit_launch_of_graph : checkHandle wk t0.partN ((wk.cx t0).field .launch (olaunch 0x40000000) 4) = .live (.graph 0 0) ∧
    (wk.graph 0 0).next ≠ (wk.graph 0 0).nlaunch := ⟨rfl, by decide +kernel⟩
def ograph : OpP := ⟨op 3 0 (.imm 0), 2, 0x80000000, 0, 0⟩
theorem wit_graph : Executes wk t0 false (blockSrcs .graph ograph) [.x 3] ∧ (wk.cx t0).field .graph ograph 0 = 2 ∧
    checkHandle wk t0.partN ((wk.cx t0).field .graph ograph 1) = .live (.phase 0 0) ∧
    lowestFree (fun i => (wk.graph 0 i).c.used) 256 0 = some 1 :=
  ⟨⟨⟨rfl, .inr rfl, rfl, rfl, rfl⟩, rfl⟩, by decide +kernel, rfl, by decide +kernel⟩
theorem wit_spawn : checkHandle wk t0.partN t0.launchid.toNat = .live (.launch 0 0) ∧ (wk.launch 0 0).c.done = false ∧
    (wk.cluster (clusterOf (coreOf wk.cur))).seeds.length < 256 ∧ (wk.launch 0 0).c.count + 1 < 2 ^ 32 :=
  ⟨rfl, rfl, by decide +kernel, by decide +kernel⟩

def wQueued : State := { wWk t0 (.n1 0) with dies := mput w.dies 0 { w.die 0 with
  launches := [(0, lch 2 false .queued)], lqueues := #v[[0], [], [], []] } }
theorem wit_launch_starts : wQueued.arg = .n1 0 ∧ wQueued.eligibleLaunches 0 = [] ∧ (wQueued.die 0).headLaunch = some (0, 0) ∧
    wQueued.seedsFit 0 (wQueued.launch 0 0) = true := by decide +kernel
def seed : Seed := ⟨0, 5, 6, 0x10000, 0, 0, 0⟩
def wSeed : State := { wt t0 with clusters := [(0, { Cluster.reset with seeds := [seed] })], arg := .n1 0 }
theorem wit_slot_for_seed : wSeed.nextClaim 0 = some (.seed seed 1) := rfl
def ctxOf (t : Thread) (ready : Option Nat) : Ctx := ⟨9, 2, t, ready, false⟩
def wCtx : State := { wt t0 with cores := mput w.cores 0 { w.core 0 with cache := [ctxOf t0 (some 0)] }, arg := .n1 0 }
theorem wit_slot_for_context : wCtx.nextClaim 0 = some (.ctx 0 (ctxOf t0 (some 0)) 1) := rfl
def wInbox : State := { wt t0 with clusters := [(0, { Cluster.reset with inbox := [ctxOf t0 none] })], arg := .n1 0 }
theorem wit_slot_for_inbox : wInbox.nextClaim 0 = some (.inbox (ctxOf t0 none) 1) := rfl
theorem wit_thread_starts : ({ wt t0 with arg := .seed 1 seed } : State).arg = .seed 1 seed ∧
    ({ wt t0 with arg := .seed 1 seed } : State).thread 1 = none := ⟨rfl, rfl⟩
theorem wit_flush : ({ w with flushes := [⟨0, 0, 0, []⟩], arg := .n2 0 0 } : State).flushes.find?
      (fun f => f.part == 0 && f.launch == 0) = some ⟨0, 0, 0, []⟩ ∧
    ({ w with flushes := [⟨0, 0, 0, []⟩], arg := .n2 0 0 } : State).launchWrites 0 0 = false := by decide +kernel

theorem wit_yield : ((w.cx t0).tvalZ (op 0 0 (.imm 0))).toNat = 0 ∧ ((w.cx t0).tvalZ (op 0 0 (.imm 5))).toNat = 5 ∧
    (w.taken t0 []).claimWaits (coreOf w.cur) = false ∧ (wSeed.taken t0 []).claimWaits (coreOf wSeed.cur) = true := by decide +kernel
def tBig (n : Nat) : Thread := { t0 with g := t0.g.setIfInBounds 2 ⟨BitVec.ofNat 64 n, true, false, false⟩ }
theorem wit_yield_too_long : 2 ^ 32 ≤ (((wt (tBig (2 ^ 32))).cx (tBig (2 ^ 32))).tvalZ (op 0 0 (.reg 2))).toNat := by decide +kernel
theorem wit_migr : (((wt (tBig 1)).cx (tBig 1)).sval (op 0 2 (.imm 0))).getLsbD 0 = true ∧ (tBig 1).thsBit 11 = false ∧
    ({ tBig 1 with ths := 0x800 } : Thread).thsBit 11 = true := by decide +kernel
theorem wit_tqpush : Executes w t0 false ((List.range 4).map (fun i => Src.x (4 + i) 0 w.q.ts)) [] ∧
    bits (t0.gv 4).toNat 47 32 = 0 ∧ (w.cluster ((w.ring 0).getD 0 0)).tasks.length < 1024 ∧ (w.ring 0).length = 4 :=
  ⟨wit_executes w _ _ rfl rfl rfl rfl, by decide +kernel, by decide +kernel, by decide +kernel⟩
def wTasks (cl : Key) : State := { w with clusters := [(cl, { Cluster.reset with tasks := [[1, 2, 3, 4]] })] }
theorem wit_tqpop : Executes w t0 false [] ((List.range 4).map (fun i => Dst.x (4 + i)) ++ [.p 31]) := wit_executes w _ _ rfl rfl rfl rfl
theorem wit_tqsteal : ((w.ring 0).drop ((w.ring 0).idxOf 0 + 1) ++ (w.ring 0).take ((w.ring 0).idxOf 0)) = [1] ++ 8 :: [9] ∧
    (∀ c ∈ [1, 8, 9], (w.cluster c).tasks = []) ∧ ((wTasks 8).cluster 1).tasks = [] ∧ ((wTasks 8).cluster 8).tasks ≠ [] := by decide +kernel

theorem wit_ccinit : ((w.cx t0).tvalZ (op 3 1 (.imm 2))).toNat = 2 ∧ (wk.counter (.job 0)).done = false ∧
    (wk.counter (.job 0)).count + 1 < 2 ^ 32 ∧ lowestFree (fun i => (wk.counter (.phase 0 i)).used) 64 0 = some 2 ∧
    0 < (((wt tm).cx tm).sval (op 3 1 (.imm 2))).toNat := by decide +kernel
/-- A handle in g2. -/
def th (h : Nat) : Thread := { t0 with g := t0.g.setIfInBounds 2 ⟨dw h, true, false, false⟩ }
def oh (t : Nat) : Op := op 3 2 (.imm (BitVec.ofNat 20 t))
theorem wit_handles : checkHandle (wWk (th 0x80000000) .none) 0 0x80000000 = .live (.phase 0 0) ∧
    checkHandle (wWk (th 0x80000001) .none) 0 0x80000001 = .live (.phase 0 1) ∧ checkHandle (wWk (th 0x80000002) .none) 0 0x80000002 = .stale ∧
    checkHandle (wWk (th (2 ^ 32)) .none) 0 (2 ^ 32) = .bad ∧ checkHandle (wWk (th 0xC0000000) .none) 0 0xC0000000 = .live (.job 0) ∧
    checkHandle (wWk (th 0) .none) 1 0 = .prot := ⟨rfl, rfl, rfl, rfl, rfl, rfl⟩
theorem wit_cc_forms (h : Nat) : Executes (wWk (th h) .none) (th h) false ((oh 1).sx (wWk (th h) .none).q ++ (oh 1).tx (wWk (th h) .none).q)
    [.x 3] ∧ Executes (wWk (th h) .none) (th h) false ((oh 1).sx (wWk (th h) .none).q) [.x 3] ∧
    Executes (wWk (th h) .none) (th h) false ((oh 1).sx (wWk (th h) .none).q) [] :=
  ⟨⟨⟨rfl, .inr rfl, rfl, rfl, rfl⟩, rfl⟩, ⟨⟨rfl, .inr rfl, rfl, rfl, rfl⟩, rfl⟩, ⟨⟨rfl, .inr rfl, rfl, rfl, rfl⟩, rfl⟩⟩
theorem wit_ccadd : (wk.counter (.phase 0 0)).count = 3 ∧ (0 : Int) < 3 + (((wk.cx t0).tval (oh 1)).toInt) ∧
    3 + (((wk.cx t0).tval (oh 0xFFFFB)).toInt) < 0 ∧ (wk.counter (.phase 0 1)).done = true := by decide +kernel
theorem wit_ccwait : wk.levelOver (.phase 0 1) (dieOfCore (coreOf wk.cur)) = true ∧
    wk.levelOver (.phase 0 0) (dieOfCore (coreOf wk.cur)) = false ∧ (wk.counter (.phase 0 0)).waiters = [] := by decide +kernel
def wJob : State := { wWk (th 0xC0000000) .none with
  parts := mput w.parts 0 { w.partn 0 with job := cnt 5 false, phases := [(1, cnt 0 true)] }, io := { w.io with evCore := 8192 } }
theorem wit_ccan_job : checkHandle wJob 0 0xC0000000 = .live (.job 0) ∧ (∀ r ∈ (wJob.partn 0).phases, r.2.used = false ∨ r.2.done = true) ∧
    wJob.io.evCore ≠ coreOf wJob.cur := ⟨rfl, by decide +kernel, by decide +kernel⟩

/-- Barrier 2 of core 0, for the rectangle of core 0 and core 1, one arrival a core. -/
def barV (narr : Nat) : DW := dw (narr * 2 ^ 40 + 2 * 65536 + 1 * 1024)
def wBar (b : Barrier) (t : Thread) (arg : Arg) : State := { wt t with
  cores := mput w.cores 0 { w.core 0 with bars := (w.core 0).bars.setIfInBounds 2 b }, arg := arg }
theorem wit_bset : w.bsetBad 0 t0.partN 2 (barV 1) = false ∧ w.bsetBad 0 t0.partN 2 (barV 9) = true ∧
    ((w.cx t0).tvalZ (op 3 1 (.imm 6))).toNat = 4 + 2 := by decide +kernel
theorem wit_bar (narr : Nat) (arrived held : Bool) (h : narr = 1 ∨ narr = 2) :
    barNarr ((wBar ⟨barV narr, arrived, held, false, false⟩ t0 .none).core 0).bars[2].reg ≠ 0 ∧
    ((wBar ⟨barV narr, arrived, held, false, false⟩ t0 .none).core 0).bars[2].heldArr = held := by
  rcases h with rfl | rfl <;> exact ⟨by show barNarr (barV _) ≠ 0; decide, rfl⟩
theorem wit_bar_last : barCnt (barV 1) + 1 = barNarr (barV 1) ∧ barCnt (barV 2) + 1 ≠ barNarr (barV 2) := by decide +kernel
theorem wit_barw : barNarr (barV 1) ≠ 0 ∧ ((⟨barV 1, false, false, false, false⟩ : Barrier).epoch + 256 - 1) % 256 = 255 ∧
    ((⟨barV 1, false, false, false, false⟩ : Barrier).epoch + 256 - 0) % 256 < 128 := by decide +kernel
theorem wit_bar_sweep : (wBar ⟨barV 1, true, true, true, false⟩ t0 (.n2 0 2)).arg = .n2 0 2 ∧
    (wBar ⟨barV 1, true, true, true, false⟩ t0 (.n3 0 2 0)).arg = .n3 0 2 0 ∧ (wBar ⟨barV 1, true, true, true, false⟩ t0 (.n3 0 2 1)).arg = .n3 0 2 1 ∧
    ((wBar ⟨barV 1, true, true, true, false⟩ t0 (.n2 0 2)).core 0).bar 2 = ⟨barV 1, true, true, true, false⟩ := ⟨rfl, rfl, rfl, rfl⟩

def tLeave (r : Run) : Thread := { t0 with leaving := some false, run := r }
theorem wit_swap_out : (tLeave .ready).mayLeave = true ∧ (wt (tLeave .ready)).settled 0 (tLeave .ready) = true ∧
    (tLeave .ready).thsBit 15 = false ∧ ((wt (tLeave .ready)).core 0).cache.length < 8 ∧
    (tLeave (.parked .copyAccept)).mayLeave = false ∧ ({ wt (tLeave .ready) with arg := .n2 0 1 } : State).arg = .n2 0 (tLeave .ready).tid := by
  decide +kernel
theorem wit_restore : ({ wCtx with arg := .n3 0 9 1 } : State).thread 1 = none ∧
    ((({ wCtx with arg := .n3 0 9 1 } : State).core 0).cache ++ (({ wCtx with arg := .n3 0 9 1 } : State).core 0).backing).find?
      (fun y => y.id == 9) = some (ctxOf t0 (some 0)) := ⟨rfl, rfl⟩
def tMig (cl : Key) : Thread := { t0 with run := .parked (.migrate cl) }
theorem wit_reservation : ({ wt (tMig 64) with arg := .n2 0 64 } : State).clusterSlot 64 = some 8192 ∧
    (tMig 64).run = .parked (.migrate 64) := by decide +kernel
/-- Cluster 64 with every slot taken, its inbox empty or full. -/
def wNoSlot (n : Nat) : State := { wt (tMig 64) with
  clusters := [(64, { Cluster.reset with
    resSlots := (List.range 16).flatMap (fun i => (List.range 8).map (fun j => 8 * coreInCluster 64 i + j)), resInbox := n })], arg := .n2 0 64 }
theorem wit_reservation_inbox : (wNoSlot 15).clusterSlot 64 = none ∧ ((wNoSlot 15).cluster 64).inbox.length + ((wNoSlot 15).cluster 64).resInbox < 16 ∧
    (wNoSlot 16).clusterSlot 64 = none ∧ 16 ≤ ((wNoSlot 16).cluster 64).inbox.length + ((wNoSlot 16).cluster 64).resInbox := by decide +kernel
theorem wit_arrival : ({ wt (tMig 64) with arg := .n3 1 64 8193 } : State).slotOfTid 1 = some 0 ∧
    ({ wt (tMig 64) with arg := .n3 1 64 8193 } : State).settled 0 (tMig 64) = true ∧ (8192 : Nat) ≠ 0 ∧
    (({ wt (tMig 64) with arg := .n3 1 64 8193 } : State).core 0).sbuf = [] := by decide +kernel
def tWait (p : Park) : Thread := { t0 with run := .parked p, waitId := 3 }
theorem wit_timed_waits : (tWait (.cycle 5)).waitId = 3 ∧ (tWait (.yield 3)).run = .parked (.yield 3) ∧
    (wWk (tWait (.counterFull 0x80000000)) (.n2 1 3)).threadOf 1 = some (tWait (.counterFull 0x80000000)) ∧
    (wWk (tWait (.counterFull 0x80000000)) (.n2 1 3)).slotOfTid 1 = some 0 := by decide +kernel

def tBound : Thread := { t0 with ths := 0x2000, uivec := 0x20, q0 := [5], asyncTraps := [(20, 9)], duty := [(0, 1)] }
theorem wit_boundary : tBound.uiDue = true ∧ tBound.atBoundary = true ∧ tBound.asyncTraps = (20, 9) :: [] ∧ tBound.thsBit 12 = false ∧
    tBound.duty = (0, 1) :: [] ∧ ({ t0 with ths := 0x8000 } : Thread).thsBit 15 = true := by decide +kernel
theorem wit_limit : (tWait .watch).run = .parked .watch ∧ ({ wt (tWait .watch) with arg := .n2 1 3 } : State).threadOf 1 = some (tWait .watch) ∧
    ({ t0 with lease := .requested, leaseOwe := some (3, 4) } : Thread).leaseOwe = some (3, 4) := ⟨rfl, rfl, rfl⟩

/-! ## Ports and connectors -/

/-- An image of one region: an out port, an in port and a buffered link, and one guard that takes the out port's item to the in port. -/
def im1 : Image := ⟨[⟨0, 0, false, false⟩, ⟨0, 1, false, true⟩], [⟨0, 2, 0, 3, 4⟩], [⟨4, 1, [], [⟨0, 0, 3, [(1, 0)], []⟩]⟩], 200⟩
def pst (h : Option Holder) (o : Option POp) : PortSt := ⟨0, h, o, 0, 0, 0, 0, false, none, 0⟩
def pop (act : PAct) (dest : PDest) (fin : Option PDone) : POp := ⟨5, act, dest, true, true, false, [], false, false, [], fin⟩
def bst : BufSt := ⟨4, 1, [.item ⟨7, 8⟩ []], [], 0, false, 0, false⟩
def con1 (run : Bool) (p0 p1 : PortSt) : Conn := ⟨0, run, 0, im1, [(0, p0), (1, p1)], [(0, bst)], [(0, ⟨⟨0, 0, 0⟩, 0, 0, []⟩)]⟩
def wC (t : Thread) (c : Conn) (arg : Arg) : State := { wt t with
  dies := mput w.dies 0 { w.die 0 with conns := [(0, ⟨0, some c⟩)] }, arg := arg }
def p0 : PortId := ⟨0, 0, 0⟩
def p1 : PortId := ⟨0, 0, 1⟩
/-- A binding of k0 to the out port or of k1 to the in port. -/
def bnd (isIn isV : Bool) : Binding := ⟨0, if isIn then p1 else p0, isIn, isV, none, false⟩
def tB (isV : Bool) : Thread := { t0 with k := (t0.k.setIfInBounds 0 (some (bnd false isV))).setIfInBounds 1 (some (bnd true isV)) }
def idle0 : Conn := con1 true (pst (some (.slot 1 0)) none) (pst (some (.slot 1 1)) none)
def busy0 (d0 d1 : PDest) (f0 f1 : Option PDone) : Conn :=
  con1 true (pst (some (.slot 1 0)) (some (pop (.offer ⟨7, 8⟩ false) d0 f0))) (pst (some (.slot 1 1)) (some (pop .take d1 f1)))

theorem wit_pbind : LiveCon (wC t0 (con1 false (pst none none) (pst none none)) .none) 0 0 0 0 (con1 false (pst none none) (pst none none)) ∧
    isK (op 24 1 (.imm 1)).dn = true ∧ t0.kb (kIndex 24) = none ∧ 1 < im1.ports.length ∧
    Executes (wC t0 (con1 false (pst none none) (pst none none)) .none) t0 false
      ((op 24 1 (.imm 1)).sx .plain ++ (op 24 1 (.imm 1)).tx .plain) [] :=
  ⟨rfl, rfl, rfl, by decide, ⟨⟨rfl, .inr rfl, rfl, rfl, rfl⟩, rfl⟩⟩
theorem wit_punb : (tB false).kb (kIndex 24) = some (bnd false false) ∧
    (wC (tB false) idle0 .none).port p0 = some (pst (some (.slot 1 0)) none) ∧
    (wC (tB false) (busy0 .none .none none none) .none).port p0 = some (pst (some (.slot 1 0)) (some (pop (.offer ⟨7, 8⟩ false) .none none))) ∧
    t0.kb (kIndex 24) = none ∧ Executes (wC (tB false) idle0 .none) (tB false) false [] [] :=
  ⟨rfl, rfl, rfl, rfl, ⟨⟨rfl, .inr rfl, rfl, rfl, rfl⟩, rfl⟩⟩
theorem wit_offers : OfferFits (wC (tB false) idle0 .none) (tB false) 24 false ⟨0, 0⟩ (bnd false false) ∧
    OfferFits (wC (tB true) idle0 .none) (tB true) 24 true ⟨0, 0⟩ (bnd false true) ∧
    Executes (wC (tB false) idle0 .none) (tB false) false [.x 1 1 false, .x 2 1 false] [.p 30, .p 31] ∧
    Executes (wC (tB true) idle0 .none) (tB true) false ((op 0 24 (.reg 7)).tv .plain) [] :=
  ⟨⟨rfl, rfl, rfl, by decide, rfl⟩, ⟨rfl, rfl, rfl, by decide, rfl⟩, ⟨⟨rfl, .inr rfl, rfl, rfl, rfl⟩, rfl⟩, ⟨⟨rfl, .inr rfl, rfl, rfl, rfl⟩, rfl⟩⟩
theorem wit_takes : TakeFits (wC (tB false) idle0 .none) (tB false) 25 false (bnd true false) ∧
    TakeFits (wC (tB true) idle0 .none) (tB true) 25 true (bnd true true) ∧
    Executes (wC (tB false) idle0 .none) (tB false) false [] [.x 22, .x 23] ∧
    Executes (wC (tB true) idle0 .none) (tB true) false [] [.v 7, .x 23] :=
  ⟨⟨rfl, rfl, rfl, rfl⟩, ⟨rfl, rfl, rfl, rfl⟩, ⟨⟨rfl, .inr rfl, rfl, rfl, rfl⟩, rfl⟩, ⟨⟨rfl, .inr rfl, rfl, rfl, rfl⟩, rfl⟩⟩
theorem wit_pwdr : ((wC (tB false) idle0 .none).port (bnd false false).port).bind (·.op) = none ∧
    ((wC (tB false) (busy0 .none .none none none) .none).port (bnd false false).port).bind (·.op) ≠ none ∧
    Executes (wC (tB false) idle0 .none) (tB false) false [] [.p 31] := ⟨rfl, by decide, ⟨⟨rfl, .inr rfl, rfl, rfl, rfl⟩, rfl⟩⟩
theorem wit_start_op : (wC (tB false) idle0 .none).conn 0 0 = some idle0 ∧ mget idle0.ports 1 = some (pst (some (.slot 1 1)) none) := ⟨rfl, rfl⟩

/-- The bytes of an image of one region with one out port and one guard that fires it, at 0x400, its placement at 0x600 (R293 to R297). -/
def imgWords : List Nat := [0xCA4D * 2 ^ 48 + 2 ^ 40 + 2 ^ 16 + 1, 88 * 2 ^ 32, 40 * 2 ^ 32 + 40, 0, 0, 48 * 2 ^ 32 + 2 ^ 16, 2 ^ 55 + 2 ^ 40, 0, 0, 0, 1]
def wImg : State := { wt tm with mem := imgWords.zipIdx.foldl (fun m x => m.writeN (0x400 + 8 * x.2) 8 x.1) w.mem }
def imOne : Image := ⟨[⟨0, 0, false, false⟩], [], [⟨1, 1, [], [⟨0, 0, 1, [], []⟩]⟩], 88⟩
theorem wit_cload : (wImg.cx tm).loadImage (baseAddr wImg tm (op 3 1 (.imm 0x600))) (((wImg.cx tm).tval (op 3 1 (.imm 0x600))).toNat % 2 ^ 56) =
    .ok (imOne, [0], [0x400, 0x600]) := ok_of_okIs (by decide +kernel)
theorem wit_cload_room : wImg.freeCon 0 imOne.len = some 0 := by
  have h : ¬ (0x40000 + Config.storeExtra < (wImg.die 0).storeUsed + imOne.len) := by
    have : (wImg.die 0).storeUsed + imOne.len = 88 := rfl
    omega
  unfold State.freeCon
  rw [if_neg h]; decide +kernel
theorem wit_cload_executes : Executes wImg tm false ((op 3 1 (.imm 0x600)).sx wImg.q ++ (op 3 1 (.imm 0x600)).tx wImg.q) [.x 3] ∧
    wImg.releasedNow wImg.cur tm .die = true := ⟨⟨⟨rfl, .inr rfl, rfl, rfl, rfl⟩, rfl⟩, by decide +kernel⟩
def stopped0 : Conn := con1 false (pst none none) (pst none none)
theorem wit_cstart : stopped0.running = false ∧ idle0.running = true ∧
    (∀ p ∈ stopped0.ports, (wC t0 stopped0 .none).inPart 0 (groupOf p.2.place) = true) ∧
    (match (wC t0 stopped0 .none).placeRegions stopped0 stopped0.image.regions 0 [] with
      | .ok cs => cs == [⟨0, 0, 0⟩]
      | .error _ => false) = true := by decide +kernel
theorem wit_cstop : (∀ p ∈ stopped0.ports, p.2.holder = none) ∧ (∃ p ∈ idle0.ports, p.2.holder ≠ none) ∧
    LiveCon (wC t0 idle0 .none) 0 0 0 0 idle0 := ⟨by decide, by decide, rfl⟩
theorem wit_cstat : ((w.cx t0).tvalZ (op 3 1 (.imm 1))).toNat = 256 * 0 + 1 ∧ (0 : Nat) < im1.regions.length ∧
    ((w.cx t0).tvalZ (op 3 1 (.imm 258))).toNat = 256 * 1 + 2 ∧ 1 < im1.ports.length ∧
    ((w.cx t0).tvalZ (op 3 1 (.imm 257))).toNat = 256 * 1 + 1 ∧ im1.regions.length ≤ 1 ∧
    ((w.cx t0).tvalZ (op 3 1 (.imm 3843))).toNat = 256 * 15 + 3 := by decide +kernel

theorem wit_carder : (wC t0 idle0 (.carder ⟨0, 0, 0⟩)).arg = .carder ⟨0, 0, 0⟩ := rfl
theorem wit_fire : ∃ it, im1.endpt 0 1 = .port 1 true ∧ [((1 : Nat), (0 : Nat))].find? (fun q => q.1 == 1) = some (1, 0) ∧
    (busy0 .none .none none none).sourceItem 0 0 = some (it, []) ∧
    (wC t0 (busy0 .none .none none none) .none).port p1 = some (pst (some (.slot 1 1)) (some (pop .take .none none))) :=
  ⟨⟨7, 8⟩, rfl, rfl, rfl, rfl⟩
theorem wit_port_request : (wC t0 (busy0 .none .none none none) (.port p0)).carderOfPort p0 = some ⟨0, 0, 0⟩ ∧
    (pop (.offer ⟨7, 8⟩ false) .none none).sent = true := ⟨rfl, rfl⟩
theorem wit_port_completion (dest : PDest) (fin : Option PDone) :
    (wC (tB false) (busy0 .none dest none fin) (.port p1)).port p1 = some (pst (some (.slot 1 1)) (some (pop .take dest fin))) ∧
    (wC (tB false) (busy0 .none dest none fin) (.port p1)).slotOfTid 1 = some 0 ∧ (pop .take dest fin).wdDest = [] ∧
    (tB false).kb 1 = some (bnd true false) := ⟨rfl, rfl, rfl, rfl⟩
theorem wit_port_expired : (({ pop .take (.getg 3) (some .notFired) with expired := true, tie := true } : POp).expired &&
    ({ pop .take (.getg 3) (some .notFired) with expired := true, tie := true } : POp).tie) = true := rfl
theorem wit_buffer : (wC t0 idle0 (.buf ⟨0, 0, 0⟩)).conn 0 0 = some idle0 ∧ mget idle0.bufs 0 = some bst ∧ im1.bufs[0]? = some ⟨0, 2, 0, 3, 4⟩ ∧
    bst.flight = .item ⟨7, 8⟩ [] :: [] ∧ 0 < bst.creditsIn := ⟨rfl, rfl, rfl, rfl, by decide⟩
theorem wit_k_source : (wC (tB false) idle0 (.n2 0 1)).thread 0 = some (tB false) ∧ (tB false).kb 1 = some (bnd true false) ∧
    ((wC (tB false) idle0 (.n2 0 1)).port (bnd true false).port).bind (·.op) = none := ⟨rfl, rfl, rfl⟩
theorem wit_k_destination : isK 24 = true ∧ OfferFits (wC (tB false) idle0 (.val 0 24 5)) (tB false) 24 false
    ⟨(5 : DW).setWidth 512, (tB false).pmeta⟩ (bnd false false) := ⟨rfl, ⟨rfl, rfl, rfl, by decide, rfl⟩⟩
/-- A result owed to k0, whose port 0 holds its offer. -/
def wOffer : State := { wC (tB false) (con1 true (pst (some (.slot 1 0)) (some (pop (.offer ⟨7, 8⟩ false) .none none))) (pst none none)) (.n1 6) with
  owed := [⟨6, 0, [], some (.kreg 0, 5), 0, false, false, none⟩] }
theorem wit_owed_k : wOffer.arg = .n1 6 ∧ (wOffer.owed.find? (fun x => x.id == 6)).map (·.out) = some (some (.kreg 0, 5)) ∧
    wOffer.thread 0 = some (tB false) ∧ (tB false).kb 0 = some (bnd false false) ∧
    ((wOffer.port (bnd false false).port).bind (·.op)) = some (pop (.offer ⟨7, 8⟩ false) .none none) ∧
    (pop (.offer ⟨7, 8⟩ false) .none none).id + 1 = 6 ∧ (pop (.offer ⟨7, 8⟩ false) .none none).fin = none := ⟨rfl, rfl, rfl, rfl, rfl, rfl, rfl⟩
theorem wit_q_push : isQdst 44 = true ∧ ({ t0 with qmap := 2 } : Thread).qcode 44 = 2 ∧ (({ t0 with qmap := 2 } : Thread).fifoOf 2).length < 8 := by decide
theorem wit_msg : isService (coreOf ws.cur) = true ∧ (ws.core (coreOf ws.cur)).msgBusy = false ∧
    ((ws.core (coreOf ws.cur)).msgOut ++ [0x1000000000000]).length <
      1 + bits (((ws.core (coreOf ws.cur)).msgOut ++ [0x1000000000000]).headD 0).toNat 51 48 := by decide +kernel

theorem wit_wmark : ((wC (tB false) idle0 .none).port (bnd false false).port).bind (·.op) = none ∧ (tB false).kb (kIndex 24) = some (bnd false false) ∧
    (((wC tm idle0 .none).cx tm).sval (op 24 1 (.imm 0))).toNat = 0x400 ∧ (1000 ≤ 0x400 ∧ 0x400 ≤ 1000000000) ∧
    (((wC tm idle0 .none).cx tm).sval (op 24 2 (.imm 0))) = 0 ∧
    Executes (wC (tB false) idle0 .none) (tB false) false ((op 24 1 (.imm 0)).sx .plain) [] :=
  ⟨rfl, rfl, by decide +kernel, by decide, by decide +kernel, ⟨⟨rfl, .inr rfl, rfl, rfl, rfl⟩, rfl⟩⟩
theorem wit_widle_bad : ¬ ((1 : DW) = 0 ∨ (1 : DW) = 0xFFFFFFFFFFFFFFFF ∨ (1000 ≤ (1 : DW).toNat ∧ (1 : DW).toNat ≤ 1000000000)) := by decide

/-- A window descriptor at 0x400 (R322): k1, windows of 16, panes of 2 records in way 0 of cluster 0, publications at 0x800. -/
def wdWords : List Nat := [25, 16, 0, 0xF0 * 2 ^ 48, 2 * 2 ^ 32 + 2, 0x800, 1, 0]
def tW : Thread := { tB false with g := tm.g }
def wW : State := { wC tW idle0 .none with
  mem := wdWords.zipIdx.foldl (fun m x => m.writeN (0x400 + 8 * x.2) 8 x.1) w.mem
  clusters := [(0, { Cluster.reset with wmask := 1 })]
  cores := [(0, { Core.reset with plb := [⟨0, 0xF0000000000, 0xF00000000FF, 0, 0, false, true, true, true⟩, rgx 0 true true true] })] }
def wdNum : Nat := (wdWords.zipIdx.map (fun x => x.1 * 2 ^ (64 * x.2))).sum
theorem wit_wbind_reads : wW.access wW.cur tW 0x400 64 64 .rd false = .ok ⟨0x400, 0x400, none⟩ ∧
    wW.readNow wW.cur tW 0x400 0x400 64 = .ok wdNum := ⟨ok_of_okIs (by decide +kernel), ok_of_okIs (by decide +kernel)⟩
theorem wit_wbind_fits : (parseWDesc wdNum).map (fun d => (d.tlk, d.sk, d.paneBase, d.npane * (64 + d.cap * 16), d.pubBase, 32 * d.npub)) =
      some (0, 25, 0xF0 * 2 ^ 48, 192, 0x800, 32) ∧ tW.namedPort 25 true = some (bnd true false) ∧
    regionOf (0xF0 * 2 ^ 48) = 0xF0 ∧ scratchCl (0xF0 * 2 ^ 48) = 0 ∧ bits (0xF0 * 2 ^ 48) 18 0 + 192 ≤ 0x60000 ∧
    wW.port p1 = some (pst (some (.slot 1 1)) none) ∧ wW.releasedNow wW.cur tW .die = true ∧ wW.mem.poison = [] ∧
    lowestFree (fun i => (wW.brimB 0 i).isSome) 256 0 = some 0 := by decide +kernel
theorem wit_wbind_spans : wW.access wW.cur tW (0xF0 * 2 ^ 48) 192 1 .wr false = .ok ⟨0xF0 * 2 ^ 48, scratchLoc 0 0 0, none⟩ ∧
    (wW.cx tW).accessSpan 0x800 32 1 .wr = .ok () := ⟨ok_of_okIs (by decide +kernel), ok_of_okIs (by decide +kernel)⟩

theorem wit_wnext : ({ t0 with q2 := [[1, 2, 3, 4]], q2pos := 2 } : Thread).q2 = [1, 2, 3, 4] :: [] ∧
    Executes (wt { t0 with q2 := [[1, 2, 3, 4]] }) { t0 with q2 := [[1, 2, 3, 4]] } false [] ((List.range 4).map (fun i => Dst.x (20 + i))) :=
  ⟨rfl, ⟨⟨rfl, .inr rfl, rfl, rfl, rfl⟩, rfl⟩⟩
/-- A binding of thread 1 with a window in a state. -/
def brim1 (wins : Map Win) (counts : Map Nat) (wb : BitVec 48) : BrimB :=
  { tid := 1, part := 0, dom := 0, port := p1, tlPort := none, isV := false, slide := 16, npw := 1, late := 0, paneBase := 0xF0 * 2 ^ 48
    cap := 2, npane := 2, pubBase := 0x800, npub := 1, wb := wb, idle := false, p0 := 0, counts := counts, wins := wins, maxPane := none
    drop := 0, ovf := 0, lateCnt := 0, hold := none, waiting := [], tlWait := false, drain := false, dead := false, tail := 0 }
def wBrim (b : BrimB) (c : Conn) (t : Thread) (arg : Arg) : State := { wC t c arg with
  clusters := [(0, { Cluster.reset with wmask := 1, brim := [(0, ⟨0, some b⟩)] })] }
def tId : Thread := { t0 with g := t0.g.setIfInBounds 3 ⟨16, true, false, false⟩ }
def pubState (x : Win) : State := wBrim (brim1 [(0, x)] [(0, 1)] 16) idle0 tId .none
theorem wit_publish (x : Win) (h : x = .woken ∨ x = .amending 3) : (pubState x).windowOf tId 0 16 = some (0, brim1 [(0, x)] [(0, 1)] 16, 0) ∧
    mget (brim1 [(0, x)] [(0, 1)] 16).wins 0 = some x ∧ (brim1 [(0, x)] [(0, 1)] 16).lastExpired = none ∧
    Quiet (brim1 [(0, x)] [(0, 1)] 16) ∧ (((pubState x).cx tId).dval (op 3 4 (.imm 0))).toNat = 16 := by
  rcases h with rfl | rfl <;> exact ⟨rfl, rfl, rfl, ⟨rfl, rfl, rfl, rfl⟩, rfl⟩
theorem wit_publish_access : (pubState .woken).access 0 tId 0x800 32 8 .wr false = .ok ⟨0x800, 0x800, none⟩ ∧
    (pubState .woken).mem.fe 0x800 = false ∧ (pubState .woken).releasedNow 0 tId .die = true ∧
    (pubState .woken).releasedNow 0 tId .package = true ∧ (pubState .woken).readNow 0 tId 0x800 0x800 32 = .ok 0 ∧
    NoneWaits (pubState .woken) ∧ NoneSwapped (pubState .woken) 0x800 :=
  ⟨ok_of_okIs (by decide +kernel), by decide +kernel, by decide +kernel, by decide +kernel, ok_of_okIs (by decide +kernel),
    by unfold NoneWaits; decide +kernel, by unfold NoneSwapped; decide +kernel⟩
theorem wit_wclose : (wBrim (brim1 [] [] 0) idle0 t0 .none).checkBrim t0 0 = .ok (0, 0, brim1 [] [] 0) ∧ Quiet (brim1 [] [] 0) ∧
    ((wBrim (brim1 [] [] 0) idle0 t0 .none).port p1).bind (·.op) = none := ⟨rfl, ⟨rfl, rfl, rfl, rfl⟩, rfl⟩

/-- A taken record of event time 5 for the binding of Brim record 0. -/
def recCon : Conn := con1 true (pst none none) (pst (some (.brim 0 0)) (some (pop .take .none (some (.fired true (some ⟨7, 5⟩))))))
theorem wit_brim_record : (wBrim (brim1 [] [] 0) recCon t0 (.port p1)).port p1 =
      some (pst (some (.brim 0 0)) (some (pop .take .none (some (.fired true (some ⟨7, 5⟩)))))) ∧
    (wBrim (brim1 [] [] 0) recCon t0 (.port p1)).brimB 0 0 = some (brim1 [] [] 0) ∧ (brim1 [] [] 0).tooLate 5 = false ∧
    (brim1 [] [] 0).p0 ≤ 0 ∧ 0 < (brim1 [] [] 0).p0 + (brim1 [] [] 0).npane ∧ (brim1 [] [] 0).paneOut 0 = false ∧
    (brim1 [] [] 0).count 0 < 2 ∧ (∀ k ∈ (brim1 [] [] 0).windowsOf 0, (brim1 [] [] 0).passed k = false) ∧
    (wBrim (brim1 [] [] 0) recCon t0 (.port p1)).mem.poison = [] := by decide +kernel
theorem wit_brim_watermark : (wBrim (brim1 [] [(0, 1)] 0) idle0 t0 (.wm 0 0 16 false)).brimB 0 0 = some (brim1 [] [(0, 1)] 0) ∧
    (brim1 [] [(0, 1)] 0).wb.toNat < (0 + 1) * 16 ∧ (0 + 1) * 16 ≤ (16 : BitVec 48).toNat ∧ (16 : BitVec 48).toNat ≤ 16 + 0 ∧
    Quiet (brim1 [] [(0, 1)] 0) ∧ InSlot (wBrim (brim1 [] [(0, 1)] 0) idle0 t0 (.wm 0 0 16 false)) 0 t0 1 ∧
    (0 : BitVec 48).toNat ≤ (brim1 [] [] 0).wb.toNat := ⟨rfl, by decide, by decide, by decide, ⟨rfl, rfl, rfl, rfl⟩, ⟨rfl, rfl⟩, by decide⟩

/-! ## Traps and privileged instructions -/

/-- Thread 1 in a core with a handler at 0x20000 and its frames at 0x800. -/
def wTrap (t : Thread) (tvec : Addr) : State := { wWk t .none with cores := mput w.cores 0 { w.core 0 with tvec := tvec, tframe := 0x800 } }
theorem wit_trap_taken : ((wTrap t0 0x20000).core (coreOf 0)).tvec ≠ 0 ∧ t0.thsBit 12 = false ∧ t0.owesFrame = false ∧
    ((wTrap t0 0x20000).core (coreOf 0)).sbuf.length + 8 ≤ 16 ∧ (wTrap t0 0x20000).access 0 t0 0x800 64 8 .wr true = .ok ⟨0x800, 0x800, none⟩ :=
  ⟨by decide +kernel, by decide +kernel, by decide +kernel, by decide +kernel, ok_of_okIs (by decide +kernel)⟩
def tIn (cause : Nat) : Thread := { t0 with ths := 0x1000, trappc := 0x10000, trapcause := BitVec.ofNat 16 cause }
theorem wit_trap_ends : (tIn 0).thsBit 12 = true ∧ ((wTrap t0 0).core (coreOf 0)).tvec = 0 ∧
    checkHandle (wTrap (tIn 0) 0x20000) 0 (tIn 0).launchid.toNat = .live (.launch 0 0) ∧
    ((wTrap (tIn 0) 0x20000).counter (.launch 0 0)).done = false ∧ ((wTrap (tIn 0) 0x20000).counter (.launch 0 0)).fault = false :=
  ⟨by decide +kernel, by decide +kernel, rfl, rfl, rfl⟩
/-- An instruction with a prefix at the trapped address. -/
def wSkip : State := { wTrap (tIn 0) 0x20000 with
  cores := mput w.cores 0 { w.core 0 with tvec := 0x20000, tframe := 0x800, icache := [⟨0, 0x10000 / 32, BitVec.ofNat 256 0x38E8F01F⟩] } }
theorem wit_tret : (tIn 0).owesFrame = false ∧ ({ tIn 0 with g := t0.g.setIfInBounds 20 ⟨0, false, false, true⟩ } : Thread).owesFrame = true ∧
    wSkip.frameVa wSkip.cur = 0x800 ∧ wSkip.access wSkip.cur (tIn 0) 0x800 48 8 .rd false = .ok ⟨0x800, 0x800, none⟩ ∧
    wSkip.readNow wSkip.cur (tIn 0) 0x800 0x800 48 = .ok (wSkip.mem.readN 0x800 48) ∧ ((wSkip.cx (tIn 0)).tvalZ (op 0 0 (.imm 1))).toNat = 1 :=
  ⟨by decide +kernel, by decide +kernel, by decide +kernel, ok_of_okIs (by decide +kernel), ok_of_okIs (by decide +kernel), by decide +kernel⟩
theorem wit_tret_skips : wSkip.codeHalf 0 (tIn 0) 0x10000 = .ok 0xF01F ∧ wSkip.codeHalf 0 (tIn 0) 0x10002 = .ok 0x38E8 ∧
    0xF000 ≤ 0xF01F ∧ 0x38E8 < 0xF000 ∧ wSkip.skipFrom 0 (tIn 0) 4 0 0x10000 = .ok 2 :=
  ⟨ok_of_okIs (by decide +kernel), ok_of_okIs (by decide +kernel), by decide, by decide, ok_of_okIs (by decide +kernel)⟩
theorem wit_jrnl : mget ((wJ (.refused 4) none .none).core 0).journal 5 = some (jent (.refused 4) none) ∧ (jent (.refused 4) none).tid = t0.tid ∧
    mget ((wJ (.refused 4) none .none).core 0).journal 6 = none ∧
    Executes (wJ (.refused 4) none .none) t0 false ((op 3 1 (.imm 5)).tx .plain) [.x 3, .x 4] ∧
    (((wJ (.refused 4) none .none).cx t0).tvalZ (op 3 1 (.imm 5))).toNat = 5 := ⟨rfl, rfl, rfl, ⟨⟨rfl, .inr rfl, rfl, rfl, rfl⟩, rfl⟩, by decide +kernel⟩
theorem wit_jrcl : (wJ (.refused 4) none .none).access 0 t0 0x400 8 8 .wr true = .ok ⟨0x400, 0x400, none⟩ ∧
    (wJ (.refused 4) none .none).acquiring 0 t0 = false ∧ (jent .pending none).st = .pending ∧
    (((wJ (.refused 4) none .none).cx t0).tvalZ (op 3 1 (.imm 69))).toNat / 64 = 1 ∧
    (((wJ (.refused 4) none .none).cx t0).tvalZ (op 3 1 (.imm 133))).toNat / 64 = 2 :=
  ⟨ok_of_okIs (by decide +kernel), by decide +kernel, rfl, by decide +kernel, by decide +kernel⟩

/-- Service core 0 with thread 1 in its slot, and thread 2 in slot 0 of core 0. -/
def wSv (t : Thread) (x : Thread) : State := { wWk x .none with
  threads := [(0, { x with tid := 2 }), (65536, t)], cores := [(8192, { Core.reset with plb := [rgx 0 true true true] })], cur := 65536 }
def sv : State := wSv t0 t0
/-- Operands in g1, g2. -/
def tg (a b : Nat) : Thread := { t0 with
  g := (t0.g.setIfInBounds 1 ⟨dw a, true, false, false⟩).setIfInBounds 2 ⟨dw b, true, false, false⟩ }
theorem wit_service : isService (coreOf sv.cur) = true ∧ isService (coreOf w.cur) = false ∧ sv.thread sv.cur = some t0 := ⟨rfl, rfl, rfl⟩
theorem svc1 {p : Prop} : isService (coreOf 65536) = true ∨ p := .inl rfl
theorem wit_privileged_forms (a b : Nat) : Executes (wSv (tg a b) t0) (tg a b) true ((op 3 1 (.reg 2)).sx .plain ++ (op 3 1 (.reg 2)).tx .plain) [] ∧
    Executes (wSv (tg a b) t0) (tg a b) true ((op 3 1 (.reg 2)).sx .plain ++ (op 3 1 (.reg 2)).tx .plain) [.x 3] ∧
    Executes (wSv (tg a b) t0) (tg a b) true ((op 3 1 (.reg 2)).sx .plain) [.x 3] ∧
    Executes (wSv (tg a b) t0) (tg a b) false ((op 3 1 (.reg 2)).sx .plain ++ (op 3 1 (.reg 2)).tx .plain) [.x 3] :=
  ⟨⟨⟨rfl, svc1, rfl, rfl, rfl⟩, rfl⟩, ⟨⟨rfl, svc1, rfl, rfl, rfl⟩, rfl⟩, ⟨⟨rfl, svc1, rfl, rfl, rfl⟩, rfl⟩,
    ⟨⟨rfl, svc1, rfl, rfl, rfl⟩, rfl⟩⟩
theorem wit_plbi : sv.releasedNow sv.cur t0 .package = true ∧ w.releasedNow w.cur t0 .package = true ∧
    ({ w with acks := [⟨0, 0, none, 1, 0, 0, 0⟩] } : State).releasedNow 0 t0 .package = false ∧
    ((sv.cx t0).tvalZ (op 3 1 (.imm 2))).toNat = 2 ∧ 4096 ≤ ((dw 4096)).toNat := by decide +kernel
theorem wit_domsw : sv.releasedNow sv.cur t0 .thread = true ∧
    ({ sv with reqs := [{ rq (.load 3 8 false false) 0x400 8 with id := 0, k := 65536 }] } : State).releasedNow
      65536 t0 .thread = false := by decide +kernel
theorem wit_halt : ((sv.cx t0).tvalZ (op 3 1 (.imm 0))).toNat = 0 ∧ ((sv.cx t0).tvalZ (op 3 1 (.imm 1))).toNat = 1 ∧
    ((sv.cx t0).tvalZ (op 3 1 (.imm 2))).toNat = 2 ∧ ((sv.cx t0).sval (op 3 1 (.imm 1))).toNat < 8 ∧
    8 ≤ (((wSv (tg 8 1) t0).cx (tg 8 1)).sval (op 3 1 (.reg 2))).toNat := by decide +kernel
theorem wit_preempt : slotOfCoord 0 = 0 ∧ (sv.taken t0 []).thread 0 = some { t0 with tid := 2 } ∧ (sv.taken t0 []).thread 1 = none ∧
    slotOfCoord (coordOf 1) = 1 ∧ coreOf (slotOfCoord (coordOf 8)) ≠ coreOf w.cur ∧ t0.leaving = none ∧
    ((wSv t0 { t0 with leaving := some false }).taken t0 []).thread 0 = some { t0 with tid := 2, leaving := some false } :=
  ⟨by decide +kernel, rfl, rfl, by decide +kernel, by decide +kernel, rfl, rfl⟩
theorem wit_waym : bits (0xF0 * 2 ^ 48) 55 48 = 0xF0 ∧ bits (0xF0 * 2 ^ 48) 47 39 = 0 ∧ w.inPart 0 (groupOfCluster 0) = true ∧
    w.inPart 1 (groupOfCluster 0) = false ∧ (wScr.cluster 0).wmask.getLsbD 32 = false ∧ ((wWay []).cluster 0).wmask.getLsbD 32 = true ∧
    ((w.cx t0).tvalZ (op 3 1 (.imm 0x10001))).toNat = 65536 + 1 ∧
    (dw (65537 % 65536) ^^^ ((w.cluster 0).wmask &&& 0xFFFF)) &&& ~~~((0 : BitVec 16).setWidth 64) &&& 0xFFFF ≠ 0 ∧
    (dw (65537 % 65536) ^^^ ((wScr.cluster 0).wmask &&& 0xFFFF)) &&& ~~~((0 : BitVec 16).setWidth 64) &&& 0xFFFF = 0 := by decide +kernel
/-- A scrub descriptor at 0x400: one frame at 0x5000 of group 0, DIRTY or not. -/
def wScrub (dirty : Bool) (nfr : Nat) : State := { wSv (tg 0x400 0) t0 with
  mem := ((w.mem.writeN 0x410 8 0x5000).writeN 0x418 8 nfr)
  groups := mput w.groups 0 { w.group 0 with frames := if dirty then [(5, .dirty)] else [] } }
def scrubNum (nfr : Nat) : Nat := 0x5000 * 2 ^ 128 + nfr * 2 ^ 192
theorem wit_scrub : baseAddr (wScrub true 1) (tg 0x400 0) (op 3 1 (.imm 0)) = 0x400 ∧
    (wScrub true 1).access 65536 (tg 0x400 0) 0x400 32 32 .rd false = .ok ⟨0x400, 0x400, none⟩ ∧
    (wScrub true 1).readNow 65536 (tg 0x400 0) 0x400 0x400 32 = .ok (scrubNum 1) ∧ (wScrub true 0).readNow 65536 (tg 0x400 0) 0x400 0x400 32 = .ok (scrubNum 0) ∧
    (parseScrub (scrubNum 0)).isNone = true ∧ (parseScrub (scrubNum 1)).map (fun d => (wScrub true 1).allDirty d) = some true ∧
    (parseScrub (scrubNum 1)).map (fun d => (wScrub false 1).allDirty d) = some false :=
  ⟨by decide +kernel, ok_of_okIs (by decide +kernel), ok_of_okIs (by decide +kernel), ok_of_okIs (by decide +kernel), by decide +kernel,
    by decide +kernel, by decide +kernel⟩

/-- CTXS and CTXL with the image at 0x4000. -/
def tc (slot : Nat) : Thread := tg (coordOf slot) 0x4000
theorem wit_context_image : (((wSv (tc 0) t0).cx (tc 0)).tval (op 3 1 (.reg 2))).toNat % 2 ^ 56 = 0x4000 ∧
    bits ((((wSv (tc 0) t0).cx (tc 0)).sval (op 3 1 (.reg 2))).toNat) 19 16 < 8 ∧
    (wSv (tc 0) t0).access 65536 (tc 0) 0x4000 1024 1 .wr false = .ok ⟨0x4000, 0x4000, none⟩ ∧
    (wSv (tc 0) t0).access 65536 (tc 0) 0x4000 1024 1 .rd false = .ok ⟨0x4000, 0x4000, none⟩ ∧
    (wSv (tc 0) t0).locBusy 65536 1 0x4000 1024 = false ∧ (wSv (tc 0) t0).ownedBusy 0 0x4000 1024 .anyone = false ∧
    slotOfCoord (coordOf 0) = 0 ∧ 0x4000 % 1024 = 0 ∧ 8 ≤ bits (8 * 65536) 19 16 :=
  ⟨by decide +kernel, by decide +kernel, ok_of_okIs (by decide +kernel), ok_of_okIs (by decide +kernel), by decide +kernel, by decide +kernel,
    by decide +kernel, by decide, by decide⟩
theorem wit_ctxs : (wSv (tc 0) t0).unmovable 0 { t0 with tid := 2 } = false ∧ ({ t0 with tid := 2 } : Thread).mayLeave = true ∧
    (wSv (tc 0) t0).settled 0 { t0 with tid := 2 } = true ∧ (wSv (tc 0) tHeld).unmovable 0 { tHeld with tid := 2 } = true ∧
    (wSv (tc 1) t0).thread 1 = none := ⟨by decide +kernel, by decide +kernel, by decide +kernel, by decide +kernel, rfl⟩
/-- An image of zeros, or with a reserved doubleword. -/
theorem wit_ctxl : (wSv (tc 1) t0).readNow 65536 (tc 1) 0x4000 0x4000 1024 = .ok 0 ∧ ((wSv (tc 1) t0).freeSlots (coreOf 1)).contains 1 = true ∧
    ((wSv (tc 0) t0).freeSlots (coreOf 0)).contains 0 = false ∧ (wSv (tc 1) t0).inPart 0 (groupOf (coreOf 1)) = true ∧
    (wSv (tc 1) t0).residentOn 0 (groupOf (coreOf 1)) = true ∧
    ((wSv (tc 1) t0).inPart 0 (groupOf (coreOf 64)) && (wSv (tc 1) t0).residentOn 0 (groupOf (coreOf (8 * 8)))) = false :=
  ⟨ok_of_okIs (by decide +kernel), by decide +kernel, by decide +kernel, by decide +kernel, by decide +kernel, by decide +kernel⟩
theorem wit_ctxl_reserved : (2 ^ (64 * 111)) / 2 ^ (64 * 111) ≠ 0 := by decide +kernel

/-! ## Configuration space and gang switching -/

def tCfg (off v : Nat) : Thread := { tg (0xF1 * 2 ^ 48 + off) 0 with g := ((tg (0xF1 * 2 ^ 48 + off) 0).g).setIfInBounds 3 ⟨dw v, true, false, false⟩ }
def wCfg (off v : Nat) : State := wSv (tCfg off v) t0
theorem wit_cfg_addresses : sumAddr (wCfg 0 0) (tCfg 0 0) (op 3 1 (.imm 0)) = 0xF1 * 2 ^ 48 ∧ regionOf (0xF1 * 2 ^ 48) = 0xF1 ∧
    (0xF1 * 2 ^ 48 + 4) % 8 ≠ 0 ∧ cfgReg ((0xF1 * 2 ^ 48 + 0x28) % 2 ^ 48) = none ∧ cfgReg ((0xF1 * 2 ^ 48) % 2 ^ 48) = some .pkgid := by
  decide +kernel
theorem wit_cfg_forms : Executes (wCfg 0 0) (tCfg 0 0) false ((op 3 1 (.imm 0)).sx .plain ++ (op 3 1 (.imm 0)).tx .plain) [.x 3] ∧
    Executes (wCfg 0 0) (tCfg 0 0) false ((op 3 1 (.imm 0)).sx .plain ++ (op 3 1 (.imm 0)).tx .plain ++ (op 3 1 (.imm 0)).dx .plain) [] :=
  ⟨⟨⟨rfl, .inl rfl, rfl, rfl, rfl⟩, rfl⟩, ⟨⟨rfl, .inl rfl, rfl, rfl, rfl⟩, rfl⟩⟩
theorem wit_cfg_store : (wCfg 0 5).cfgCheck .pkgid 5 = .ok () := rfl
/-- A record of partition 1 with the identifier of partition 0. -/
def two : State := { sv with parts := mput (mput sv.parts 0 { sv.partn 0 with pcfg := 0x8000000000000005 }) 1 { sv.partn 1 with pcfg := 7 } }
theorem wit_cfg_same_domain : (two.partn 1).valid = false ∧ (two.partn 0).valid = true ∧ (0x8000000000000005 : DW).getLsbD 63 = true ∧
    bits (two.partn 0).pcfg.toNat 11 0 = bits (0x8000000000000005 : DW).toNat 11 0 := by decide +kernel
theorem wit_cfg_schedule : bits (2 ^ 40 : Nat) 41 40 ≠ 0 ∧ ¬ (1000 ≤ bits (2 ^ 40 : Nat) 63 47 ∧ bits (2 ^ 40 : Nat) 63 47 ≤ 100000) ∧
    sv.inPart (bits (2 ^ 20 : Nat) 24 20) 0 = false := by decide +kernel
def wShare : State := { sv with clusters := [(0, { Cluster.reset with wmask := 1, wshare := [(0, 1)] })] }
theorem wit_cfg_share : (((mget (wShare.cluster 0).wshare 0).getD 0) &&& ~~~((0 : DW).setWidth 16)) &&& (wShare.cluster 0).wmask.setWidth 16 ≠ 0 := by
  decide +kernel
theorem wit_cfg_event : ({ sv with arg := .val 65536 0x10000 5 } : State).arg = .val 65536 0x10000 5 ∧ cfgReg 0x10000 = some (.part 0 0) ∧
    cfgReg (0x100000000008) = some (.gsched 0) ∧ cfgReg (0x100000000010) = some (.frel 0) ∧ cfgReg (0x100000010100) = some (.wshare 0 0) := by
  decide +kernel

/-- Group 0 with a schedule of two partitions, the second due now or not. -/
def wGang (gpend : Option DW) (parts : Map Partition) (arg : Arg) : State := { w with
  groups := mput w.groups 0 { w.group 0 with gsched := dw (1000 * 2 ^ 47 + 2 ^ 40 + 1 * 2 ^ 25), gpend := gpend }
  parts := parts, arg := arg, rtime := 1000000 }
def schedNum : Nat := 1000 * 2 ^ 47 + 2 ^ 40 + 1 * 2 ^ 25
theorem wit_gang_tick : (wGang none w.parts (.n2 0 schedNum)).arg = .n2 0 schedNum ∧ 0 ∈ dieGroups 0 ∧
    ((wGang none w.parts (.n2 0 schedNum)).group 0).gsched.toNat = schedNum ∧ ((wGang none w.parts (.n2 0 schedNum)).group 0).gpend = none ∧
    (∀ e ∈ w.parts, e.2.resize = none ∧ e.2.images = []) ∧
    bits schedNum (24 + 5 * 1) (20 + 5 * 1) ≠ ((wGang none w.parts (.n2 0 schedNum)).group 0).owner := by decide +kernel
theorem wit_gang_effect : (w.group 0).gsched = 0 ∧ bits (w.group 0).gsched.toNat 63 47 = 0 := by decide +kernel
def prt (pgrp pnext : DW) (resize : Option (Vector DW 2)) : Partition := { w.partn 0 with pgrp := #v[pgrp, 0], pnext := #v[pnext, 0], resize := resize }
theorem wit_gang_resize : inMask #v[(0 : DW), 0] 0 = false ∧ inMask #v[(1 : DW), 0] 0 = true ∧
    (wGang none [(0, prt 1 0 (some #v[1, 0]))] (.n2 0 schedNum)).parts = [(0, prt 1 0 (some #v[1, 0]))] := ⟨by decide, by decide, rfl⟩
def gimg (ts : Map Thread) : GImage := ⟨ts, [], [], Plank.reset, [], 0⟩
def wExch (quiet : Bool) : State := { wt t0 with
  groups := mput w.groups 0 { w.group 0 with incoming := some 1 }
  parts := [(0, { w.partn 0 with images := [] }), (1, { w.partn 0 with images := [(0, gimg [(3, t0)])] })], arg := .n1 0
  cores := if quiet then w.cores else wBuf.cores }
theorem wit_exchange : ((wExch true).group 0).incoming = some 1 ∧ (∀ h ∈ dieGroups 0, h ≠ 0 → ((wExch true).group h).incoming = none) ∧
    ((wExch true).group 0).owner = 0 ∧ (wExch true).inPart 0 0 = true ∧
    (∀ e ∈ (wExch true).parts, inMask e.2.pgrp 0 = true ∨ mget e.2.images 0 = none) ∧ inMask ((wExch true).partn 1).pgrp 0 = true ∧
    (wExch true).io.retired = [] ∧ ((wExch true).image 1 0).threads = [(3, t0)] ∧ inGroup 0 3 = true ∧ (wExch true).groupsQuiet [0] = true ∧
    (wExch false).groupsQuiet [0] = false := by decide +kernel
def wLate : State := { w with
  dies := mput w.dies 0 { w.die 0 with joining := true, swapTick := 5 }
  groups := mput w.groups 0 { w.group 0 with incoming := some 1 } }
theorem wit_late : (wLate.die 0).joining = true ∧ (wLate.die 0).swapTick = 5 ∧
    (((dieGroups 0).filterMap (fun g => (wLate.group g).incoming)).eraseDups) = [1] ∧ (w.die 0).joining = false := by decide +kernel

/-! ## Messages, recovery, the service endpoint, boot -/

/-- Core 5 sending a message; thread 1 in slot 0 of core 0 stands as given. -/
def wMsg (t : Thread) (words : List DW) : State := { wt t with
  cores := mput w.cores 5 { w.core 5 with msgOut := words, msgBusy := true }, arg := .n1 5 }
def tDrop : Thread := { t0 with run := .dropped 0x5000 false none }
theorem wit_map_message : slotOfCoord (((wMsg tDrop [0]).core 5).msgOut.headD 0).toNat = 0 ∧ (wMsg tDrop [0]).thread 0 = some tDrop ∧
    tDrop.run = .dropped 0x5000 false none ∧ ({ tDrop with run := .dropped 0x5000 true (some ⟨4, 0, 0⟩) } : Thread).run =
      .dropped 0x5000 true (some ⟨4, 0, 0⟩) ∧ (∀ g ∈ (wMsg tDrop [0]).groups, ∀ p ∈ g.2.plank.queue, p.stalled = none) := by decide +kernel
def stalledCopy (status : Byte) : CopyCmd := { copyCmd none 4 status with k := 0, stalled := some 0x5000 }
def wMsgCopy : State := { wMsg t0 [0] with clusters := [(0, { Cluster.reset with copyq := [stalledCopy 0] })] }
theorem wit_map_message_copy : (wMsgCopy.cluster 0).copyq = [stalledCopy 0] ∧ (stalledCopy 0).k = slotOfCoord 0 ∧
    (stalledCopy 0).stalled = some 0x5000 ∧ (stalledCopy 0).status = 0 ∧ (stalledCopy 0).row < (stalledCopy 0).rows := by decide +kernel
theorem wit_wake_message : ({ ws with threads := [(65536, { t0 with run := .parked .halt })], arg := .n1 5 } : State).thread
      (((8 + (0 : DW).toNat % 16 % 8 / 4) * 1024 + (0 : DW).toNat % 16 % 8 % 4) * 8) = some { t0 with run := .parked .halt } := by decide +kernel
theorem wit_service_response : (wMsg t0 [0x100000000000000, 0x400]).arg = .n1 5 ∧ ((wMsg t0 [0x100000000000000, 0x400]).core 5).msgOut = [0x100000000000000, 0x400] ∧
    (mget w.io.conns 0).isSome = false ∧ (mget ({ w.io with conns := [(0, ⟨1, 0, []⟩)] } : Io).conns 0).isSome = true := by decide +kernel
theorem wit_lanes : 0 < (⟨16, 2, false⟩ : Link).spares ∧ w.fabricLink 3 = ⟨16, 2, false⟩ ∧
    ({ w with io := { w.io with links := [(3, ⟨16, 0, false⟩)] } } : State).fabricLink 3 = ⟨16, 0, false⟩ ∧
    ({ w with io := { w.io with links := [(3, ⟨4, 0, false⟩)] } } : State).fabricLink 3 = ⟨4, 0, false⟩ := by decide +kernel
/-- A packet of nine flits on link 3. -/
def pktOn : Packet := ⟨9, [], some 6, [], none, false, 9, ⟨.powerUp, .none⟩⟩
theorem wit_replay : ({ w with cycle := 4, fabric := [pktOn] } : State).fabric = [pktOn] ∧ pktOn.onLink 3 4 = true ∧ (w.fabricLink 3).fenced = false := by
  decide +kernel
/-- A unit with its last faults at the times given. -/
def wFault (u : HwUnit) (l : List Nat) : State := { wt t0 with io := { w.io with faults := [(u, l)] }, arg := .fault u [0x400] }
theorem wit_faults : (wFault (.core 0) [0]).io.replacing.contains (.core 0) = false ∧
    (((wFault (.core 0) [0]).faultsOf (.core 0)).take 2).filter (fun r => (wFault (.core 0) [0]).rtime ≤ r + 600000000000) = [0] ∧
    (({ w.io with replacing := [.plank 0] } : Io)).replacing.contains (.plank 0) = true := by decide +kernel
theorem wit_third_fault : ((((wFault (.plank 0) [0, 0]).faultsOf (.plank 0)).take 2).filter
      (fun r => (wFault (.plank 0) [0, 0]).rtime ≤ r + 600000000000)).length = 2 ∧ (w.die (0 / 16)).spareUsed = false ∧
    (wFault (.plank 0) [0, 0]).io.retired.contains (.plank 0) = false ∧
    ((((wFault (.core 0) [0, 0]).faultsOf (.core 0)).take 2).filter (fun r => (wFault (.core 0) [0, 0]).rtime ≤ r + 600000000000)).length = 2 ∧
    isService 0 = false ∧ (w.cluster (clusterOf 0)).spareUsed = false ∧ (wFault (.core 0) [0, 0]).io.retired.contains (.core 0) = false ∧
    (({ wFault (.plank 0) [0, 0] with dies := mput w.dies 0 { w.die 0 with spareUsed := true } } : State).die (0 / 16)).spareUsed = true := by
  decide +kernel
def wRepl (u : HwUnit) : State := { wt t0 with io := { w.io with replacing := [u] }, arg := .unit u }
theorem wit_replacement : (wRepl (.core 0)).io.replacing.contains (.core 0) = true ∧ (wRepl (.core 0)).io.retired.contains (.core 0) = false ∧
    (wRepl (.core 0)).coreQuiet 0 = true ∧ ({ wRepl (.core 0) with cores := wBuf.cores } : State).coreQuiet 0 = false ∧
    w.io.replacing.contains (.core 0) = false := by decide +kernel

/-- A request of so many zero bytes on connection 1 of port 0, with the endpoint ready or not. -/
def wSvcReq (hdr n : Nat) (ready : Bool) (f : Boot → Boot) : State := { w with
  io := { w.io with conns := [(1, ⟨1, 0, []⟩), (2 ^ 32 + 1, ⟨1, 0, []⟩)], boot := f { w.io.boot with ready := ready } }
  arg := .svc ⟨0, 1, dw hdr, List.replicate n 0⟩ }
theorem wit_service_request : ((wSvcReq 0 0 true id).connOf 0 1 |>.any (fun c => c.mode == 1)) = true ∧
    (w.connOf 0 1 |>.any (fun c => c.mode == 1)) = false ∧ (wSvcReq 0 0 true id).io.boot.ready = true ∧
    (wSvcReq 0 0 false id).io.boot.ready = false ∧ bits (dw 32).toNat 39 37 = 0 ∧ bits (dw 32).toNat 31 0 = (List.replicate 32 (0 : Byte)).length ∧
    bits (dw 5).toNat 31 0 ≠ (List.replicate 32 (0 : Byte)).length ∧ (List.replicate 32 (0 : Byte)).length ≤ 0x100000 ∧
    (List.replicate 0 (0 : Byte)).length ≠ 32 ∧ w.mem.wf = true := by decide +kernel
theorem wit_service_turn : (wSvcReq 0 0 true id).svcYields ⟨0, 1, 0, []⟩ = false ∧ (wSvcReq 0 0 true id).svcBusy ⟨0, 1, 0, []⟩ = false ∧
    ({ wSvcReq 0 0 true id with agenda := [⟨.svcStatus, .svc ⟨0, 1, 0, []⟩⟩] } : State).svcYields ⟨1, 1, 0, []⟩ = true ∧ w.io.svcPort < 8 := by
  decide +kernel
theorem wit_attest : (wSvcReq 32 32 true id).io.boot.leaf < 1048576 ∧
    1048576 ≤ (wSvcReq 32 32 true (fun b => { b with leaf := 1048576 })).io.boot.leaf := by decide +kernel
def flash (ok : Bool) : FlashImg := ⟨ok, true, 0, 0⟩
/-- What the root of trust finds of an image is open (log 8): an image it accepts and an image it does not are premises of these clauses. -/
theorem wit_update : ((wSvcReq 0 0 true (fun b => { b with updating := some (0, 1, flash true) })).io.boot.updating).isSome = true ∧
    (wSvcReq 0 0 true id).io.boot.updating = none ∧ (wSvcReq 0 0 true id).io.boot.bootedL < 2 ∧ (wSvcReq 0 0 true id).io.boot.bootedP < 2 := by
  decide +kernel
theorem wit_update_judged (body : List Byte) : let j := Config.judge body
    (j.2.1 ∧ j.2.2.1 ∧ (wSvcReq 0 0 true id).io.boot.minVersion ≤ j.2.2.2.1) ∨
      ¬ (j.2.1 ∧ j.2.2.1 ∧ (wSvcReq 0 0 true id).io.boot.minVersion ≤ j.2.2.2.1) := Decidable.em _
theorem wit_update_ends : (wSvcReq 0 0 true (fun b => { b with updating := some (0, 1, flash true) })).io.boot.updating = some (0, 1, flash true) := rfl
/-- Boot at a stage with the images given in both places of a kind. -/
def wBoot (stage : Nat) (a b : Option FlashImg) : State := { w with
  io := { w.io with boot := { w.io.boot with stage := stage, tested := true, loader := #v[a, b], plynvas := #v[a, b] } }, arg := .n1 7 }
theorem wit_self_test : (wBoot 0 none none).io.boot.stage = 0 ∧ (wBoot 0 none none).io.boot.stopped = false ∧ (wBoot 0 none none).io.boot.ready = false ∧
    w.io.boot.tested = false ∧ w.io.boot.stage = 0 ∧ (wBoot 0 none none).io.boot.tested = true := by decide +kernel
theorem wit_boot_a : (wBoot 0 (some (flash true)) none).io.boot.stage = 1 - 1 ∧ (wBoot 2 (some (flash true)) none).io.boot.stage = 3 - 1 ∧
    (wBoot 0 (some (flash true)) none).io.boot.stopped = false ∧ (wBoot 0 (some (flash true)) none).io.boot.ready = false ∧
    ((wBoot 0 (some (flash true)) none).io.boot.slots true).toList.getD 0 none = some (flash true) ∧ (flash true).ecdsa = true ∧
    (flash true).lms = true ∧ (wBoot 0 none none).io.boot.minVersion ≤ (flash true).version := by decide +kernel
theorem wit_boot_b : ((wBoot 0 (some (flash false)) (some (flash true))).io.boot.slots true).toList.getD 1 none = some (flash true) ∧
    (∀ y, ((wBoot 0 (some (flash false)) (some (flash true))).io.boot.slots true).toList.getD 0 none = some y → ¬ (y.ecdsa = true ∧ y.lms = true ∧
      (wBoot 0 (some (flash false)) (some (flash true))).io.boot.minVersion ≤ y.version)) :=
  ⟨rfl, fun y h => by cases h; decide⟩
theorem wit_boot_fails : ∀ j < 2, ∀ y, ((wBoot 0 none none).io.boot.slots true).toList.getD j none = some y →
    ¬ (y.ecdsa = true ∧ y.lms = true ∧ (wBoot 0 none none).io.boot.minVersion ≤ y.version) := by
  intro j hj y h
  have : j = 0 ∨ j = 1 := by omega
  rcases this with rfl | rfl <;> cases h
theorem wit_boot_stages : (wBoot 1 none none).arg = .n1 7 ∧ (wBoot 1 none none).io.boot.stage = 1 ∧ (wBoot 3 none none).io.boot.stage = 3 ∧
    (wBoot 3 none none).io.boot.ready = false ∧ (wBoot 3 none none).io.boot.updating = none ∧ (wBoot 1 none none).io.boot.stage ≠ 1 - 1 := by decide
theorem wit_thermal : (100 < 101 ∨ (w.io.cooling = true ∧ 95 ≤ 101)) ∧ ¬ (100 < 90 ∨ (w.io.cooling = true ∧ 95 ≤ 90)) := by decide

/-! ## Rotor -/

/-- A descriptor at 0x400: 8 bytes at 0x800 to 0x900, completion word 0x908 (R148). -/
def descWords : List Nat := [0x800, 8, 0x900, 0x908]
def tO (queue : Nat) : Thread := { t0 with g := (t0.g.setIfInBounds 1 ⟨0x400, true, false, false⟩).setIfInBounds 2 ⟨dw queue, true, false, false⟩ }
/-- Send queue 5 of partition 0, facing package 3 on port 2. -/
def sq5 (msgs : List Msg) (halt : Bool) : SendQ := ⟨true, 0, 0x20003, 0x20003, 9, msgs, halt⟩
def msg5 (held ended : Bool) : Msg := ⟨9, 0, 1, 0, 0, 0, 0x800, 8, 0x900, 0x908, some 3, held, [],
  if held then [⟨0, none, false, 0, false, false⟩] else [], ended, 0, 0, none, [(0, 8)]⟩
def wRo (t : Thread) (x : SendQ) (r : RPort) (arg : Arg) : State := { wt t with
  mem := descWords.zipIdx.foldl (fun m x => m.writeN (0x400 + 8 * x.2) 8 x.1) w.mem
  io := { w.io with sendqs := [(5, x)], rports := [(2, r)] }, arg := arg }
def descNum : Nat := 0x800 + 8 * 2 ^ 64 + 0x900 * 2 ^ 128 + 0x908 * 2 ^ 192
theorem wit_desc : parseDesc descNum = some (0x800, 8, 0x900, 0x908) ∧ parseDesc 0 = none ∧
    ¬ (1 ≤ (65537 * 2 ^ 64) / 2 ^ (64 * 1) % 2 ^ 64 ∧ (65537 * 2 ^ 64) / 2 ^ (64 * 1) % 2 ^ 64 ≤ 65536) := by decide +kernel
def wOs (halt : Bool) (msgs : List Msg) : State := wRo (tO 5) (sq5 msgs halt) RPort.reset .none
theorem wit_osend : Executes (wOs false []) (tO 5) false ((op 3 1 (.reg 2)).sx .plain ++ (op 3 1 (.reg 2)).tx .plain) [.x 3] ∧
    (tO 5).pend = none ∧ (wOs false []).acquiring 0 (tO 5) = false ∧ (wOs false []).access 0 (tO 5) 0x400 32 32 .rd false = .ok ⟨0x400, 0x400, none⟩ ∧
    baseAddr (wOs false []) (tO 5) (op 3 1 (.reg 2)) = 0x400 ∧ (((wOs false []).cx (tO 5)).tvalZ (op 3 1 (.reg 2))).toNat = 5 ∧
    ((wOs false []).sendq 5).valid = true ∧ ((wOs false []).sendq 5).part = (tO 5).partN :=
  ⟨⟨⟨rfl, .inr rfl, rfl, rfl, rfl⟩, rfl⟩, rfl, by decide +kernel, ok_of_okIs (by decide +kernel), by decide +kernel, by decide +kernel, rfl, rfl⟩
theorem wit_osend_reads : (wOs false []).readNow 0 (tO 5) 0x400 0x400 32 = .ok descNum ∧ (wOs false []).releasedNow 0 (tO 5) .die = true ∧
    64 ≤ ((wOs false (List.replicate 64 (msg5 false false))).sendq 5).msgs.length ∧ ((wOs true []).sendq 5).halt = true ∧
    ((wOs false []).sendq 4).valid = false ∧ 1024 ≤ (((wOs false []).cx (tO 1024)).tvalZ (op 3 1 (.reg 2))).toNat :=
  ⟨ok_of_okIs (by decide +kernel), by decide +kernel, by decide +kernel, rfl, rfl, by decide +kernel⟩
/-- OQCFG, OSTAT, OCAL, OWAIT with gs in g1 and T in g2, on core 0 and on a service core. -/
def tS (a b : Nat) : Thread := tg a b
def wR1 (a b : Nat) (msgs : List Msg) : State := wRo (tg a b) (sq5 msgs false) RPort.reset .none
def wR2 (a b : Nat) (r : RPort) : State := { wRo (tg a b) (sq5 [] false) r .none with threads := [(65536, tg a b)], cur := 65536 }
theorem wit_rotor_forms (a b : Nat) : Executes (wR1 a b []) (tg a b) false ((op 3 1 (.reg 2)).sx .plain ++ (op 3 1 (.reg 2)).tx .plain) [.x 3] ∧
    Executes (wR1 a b []) (tg a b) false ((op 3 1 (.reg 2)).tx .plain) [.x 3] ∧
    Executes (wR2 a b RPort.reset) (tg a b) false ((op 3 1 (.reg 2)).sx .plain ++ (op 3 1 (.reg 2)).tx .plain) [.x 3] :=
  ⟨⟨⟨rfl, .inr rfl, rfl, rfl, rfl⟩, rfl⟩, ⟨⟨rfl, .inr rfl, rfl, rfl, rfl⟩, rfl⟩, ⟨⟨rfl, svc1, rfl, rfl, rfl⟩, rfl⟩⟩
theorem wit_oqcfg : (((wR1 0x20003 1029 []).cx (tg 0x20003 1029)).tvalZ (op 3 1 (.reg 2))).toNat % 1024 = 5 ∧
    ((wR1 0x20003 1029 []).sendq 5).valid = true ∧ ((wR1 0x20003 1029 []).sendq 5).part = (tg 0 0).partN ∧ ((wR1 0 0 []).sendq 5).msgs = [] ∧
    ((wR1 0 0 [msg5 false false]).sendq 5).msgs ≠ [] ∧ isService (coreOf (wR1 0 0 []).cur) = false ∧
    isService (coreOf (wR2 0 0 RPort.reset).cur) = true ∧ bits (dw 0x30003 &&& 0xFFFF100F0FFF).toNat 19 16 ≠ bits ((wR1 0 0 []).sendq 5).cfg.toNat 19 16 ∧
    ¬ (((wR1 0 0 []).sendq 4).valid = true) := by decide +kernel
theorem wit_ostat : ((wR1 0 5 []).sendq 5).msgs.length ≤ 64 ∧ ((wR1 0 0 []).rport 2).misroute < 65536 ∧ ((wR1 0 0 []).rport 2).slot < 64 ∧
    (((wR1 0 1026 []).cx (tg 0 1026)).tvalZ (op 3 1 (.reg 2))).toNat = 1026 ∧ (((wR1 0 3071 []).cx (tg 0 3071)).tvalZ (op 3 1 (.reg 2))).toNat = 3071 ∧
    16 ≤ 3071 % 1024 ∧ 2050 % 1024 < 16 := by decide +kernel
theorem wit_ocal : (((wR2 0 0x1880 RPort.reset).cx (tg 0 0x1880)).tvalZ (op 3 1 (.reg 2))).toNat = 0x1880 ∧ 0x1880 < 2 ^ 14 ∧ bit 0x1880 10 = false ∧
    bit 0x1880 12 = true ∧ bits 0x1880 5 0 = 0 ∧ bit 0x1880 11 = true ∧ bits 0x1880 9 6 = 2 ∧ bit 0x880 12 = false ∧ bit 0x1881 12 = true ∧
    bits 0x1881 5 0 ≠ 0 ∧ bit 0x400 10 = true ∧ bit 0x400 11 = false ∧ bit (2 ^ 31 + 300 * 64) 31 = true ∧ bit (300 * 64) 31 = false := by
  decide +kernel
theorem wit_ocal_commits : 100 ≤ bits (2 ^ 31 + 300 * 64) 15 6 ∧ bits (2 ^ 31 + 300 * 64) 15 6 ≤ 1000 ∧ bits (2 ^ 31 + 300 * 64) 5 0 = 0 ∧
    (∀ n, n ≤ 0 → 200 ≤ ((mget RPort.reset.shad.slots n).getD (false, 0, 500)).2.2 ∧
      ((mget RPort.reset.shad.slots n).getD (false, 0, 500)).2.2 ≤ 4000 ∧ ((mget RPort.reset.shad.slots n).getD (false, 0, 500)).1 ≠ true) ∧
    ¬ (100 ≤ bits (2 ^ 31) 15 6) := by
  refine ⟨by decide, by decide, by decide, ?_, by decide⟩
  intro n h
  have : n = 0 := by omega
  subst this; decide
theorem wit_owait : bits 32896 14 10 = 0 ∧ 32768 ≤ 32896 ∧ 32896 < 65536 ∧ bits 32896 5 0 ≤ ((wR1 0 32896 []).rport 2).act.last ∧ bits 32896 9 6 = 2 ∧
    ((wR1 0 32897 []).rport 2).act.last < bits 32897 5 0 ∧ bits 1024 14 10 ≠ 0 ∧ (0 : Nat) ≤ (wR1 0 0 []).rtime ∧ (wR1 5 0 []).rtime < 5 ∧
    (tg 0 0).waitlim = 0 := by decide +kernel

def tWs : Thread := { t0 with g := t0.g.setIfInBounds 3 ⟨0, false, false, true⟩ }
def wBh (m : Msg) : State := wRo tWs (sq5 [m] false) RPort.reset (.n2 5 9)
theorem wit_bytes_held : ((wBh (msg5 false false)).sendq 5).msgs = [msg5 false false] ∧ (msg5 false false).held = false ∧
    (msg5 false false).ended = false ∧ (msg5 false false).stalled = none ∧ InSlot (wBh (msg5 false false)) 0 tWs 1 ∧
    (msg5 false false).dest = some 3 ∧ 1 ≤ (msg5 false false).len ∧ (msg5 false false).src % 4096 + (msg5 false false).len ≤ 4096 ∧
    (msg5 false false).seq.toNat = 9 ∧
    (wBh (msg5 false false)).behindStalled (msg5 false false) = false ∧ (msg5 false false).status = 0 ∧
    (wBh (msg5 false false)).engPlaces (msg5 false false).acc .rd [(0x800, 8)] = .ok [⟨0x800, 0x800, 8, 0⟩] :=
  ⟨rfl, rfl, rfl, rfl, ⟨rfl, rfl⟩, rfl, by decide, by decide, rfl, by decide +kernel, rfl, ok_of_placesAre (by decide +kernel)⟩
/-- A source whose home's partition does not admit it. -/
def wBhNo : State := { wBh (msg5 false false) with parts := [] }
/-- The status of an access that fails. -/
def statusOf (r : Except EngErr (List Piece)) : Option Nat :=
  match r with
  | .error (.status st) => some st
  | _ => none
theorem wit_bytes_unsent : statusOf (wBhNo.engPlaces (msg5 false false).acc .rd [(0x800, 8)]) = some 3 ∧
    (wBhNo.sendq 5).msgs = [msg5 false false] ∧ InSlot wBhNo 0 tWs 1 ∧ (∀ x ∈ ([] : List Msg), x.ended = false ∧ x.seq ≠ 9) ∧ (wBhNo.io.sendqs.map (·.1)).Nodup ∧
    (∀ e ∈ wBhNo.io.sendqs, e.1 ≠ 5 → ∀ y, e.2.msgs.head? = some y → y.ended = false) ∧ tWs.q3.length < 16 :=
  ⟨by decide +kernel, rfl, ⟨rfl, rfl⟩, (by intro x h; cases h), by decide +kernel, (by intro e h n; cases h with
    | head => exact absurd rfl n
    | tail _ h => cases h), by decide +kernel⟩
theorem wit_completion : ((wRo t0 (sq5 [msg5 true false] false) RPort.reset (.n2 5 9)).sendq 5).msgs = [msg5 true false] ∧
    (msg5 true false).ended = false ∧ (msg5 true false).seq.toNat = 9 ∧ InSlot (wRo t0 (sq5 [msg5 true false] false) RPort.reset (.n2 5 9)) 0 t0 1 :=
  ⟨rfl, rfl, rfl, ⟨rfl, rfl⟩⟩
theorem wit_completion_full : t0.q3.length < 16 ∧ 16 ≤ ({ t0 with q3 := List.replicate 16 0 } : Thread).q3.length := by decide
/-- Port 2 at slot 0, facing package 3, 300 ns into a slot of 5000 ns, locked. -/
def rp (lock : Bool) (late good : Nat) : RPort := { RPort.reset with
  act := ⟨300, 0, [(0, (true, 3, 500))]⟩, lock := lock, late := late, good := good, seen := true }
def wRp (r : RPort) (arg : Arg) : State := { wRo t0 (sq5 [msg5 true false] false) r arg with
  rtime := 300, io := { (wRo t0 (sq5 [msg5 true false] false) r arg).io with pkgid := 1 } }
/-- Before the end of slot 0, and within 50 ns of it. -/
theorem wit_marker : (wRp (rp true 2 0) (.n2 2 0)).arg = .n2 2 0 ∧ ((wRp (rp true 2 0) .none).rport 2).lock = true ∧
    ((wRp (rp true 2 0) .none).rport 2).sending = none ∧ 2 ≤ ((wRp (rp true 2 0) .none).rport 2).late ∧
    ((wRp (rp false 0 7) .none).rport 2).lock = false ∧ 7 ≤ ((wRp (rp false 0 7) .none).rport 2).good ∧
    ((wRp { rp true 0 0 with pending := true } .none).rport 2).pending = true ∧ ¬ (5000 ≤ (wRp (rp true 2 0) .none).rtime + 50) ∧
    (0 + 10 * ((mget (rp true 2 0).act.slots (rp true 2 0).slot).getD (false, 0, 500)).2.2 = 5000) ∧
    (∀ e ∈ (wRp (rp false 0 7) .none).io.rports, e.2.lock = false) := by decide +kernel
theorem wit_missing_marker : (wRp (rp true 0 0) (.n1 2)).arg = .n1 2 ∧ (wRp { rp true 0 0 with missed := 2 } (.n1 2)).rport 2 ≠
    RPort.reset := by decide +kernel
def tRot (x : Option (Nat × Nat)) : Thread := { t0 with run := .parked (.rotor 3 true x), waitId := 8 }
theorem wit_rotor_event : (tRot none).run = .parked (.rotor 3 true none) ∧ (tRot (some (2, 0))).run = .parked (.rotor 3 true (some (2, 0))) ∧
    (tRot none).waitId = 8 ∧ InSlot { wt (tRot none) with arg := .n2 1 8 } 0 (tRot none) 1 ∧
    ((wRp (rp true 0 0) .none).rport 2).lock = true ∧ ((wRp (rp false 0 0) .none).rport 2).lock = false :=
  ⟨rfl, rfl, rfl, ⟨rfl, rfl⟩, rfl, rfl⟩
theorem wit_frame_send : let s := wRp (rp true 0 0) (.n1 2)
    (s.rport 2).busyUntil ≤ s.rtime ∧ (s.rport 2).slotAt + (s.rport 2).act.guard ≤ s.rtime ∧ (s.rport 2).peer = some 3 ∧
    (s.rport 2).owedAcks = [] ∧ (s.rport 2).relay = [] ∧ s.io.sendqs = [(5, sq5 [msg5 true false] false)] ∧
    bits (sq5 [] false).cfg.toNat 19 16 = 2 ∧ bits (sq5 [] false).cfg.toNat 11 0 = 3 ∧ s.resident 0 = true ∧ (msg5 true false).held = true ∧
    (msg5 true false).frames = [⟨0, none, false, 0, false, false⟩] ∧
    s.rtime + (64 + 8 + 99) / 100 ≤ (s.rport 2).slotAt + 10 * ((mget (s.rport 2).act.slots 0).getD (false, 0, 500)).2.2 ∧
    bits (sq5 [] false).liveCfg.toNat 47 32 = 0 := by decide +kernel
theorem wit_frame_too_long : let s := { wRp (rp true 0 0) (.n1 2) with rtime := 5000 }
    (s.rport 2).slotAt + (s.rport 2).act.guard ≤ s.rtime ∧
    ¬ (s.rtime + (64 + 8 + 99) / 100 ≤ (s.rport 2).slotAt + 10 * ((mget (s.rport 2).act.slots 0).getD (false, 0, 500)).2.2) := by decide +kernel

/-- A frame of queue 7 of package 3 for package 1: 8 bytes to 0x900. -/
def fr (cnt : Nat) (rcw : Addr) : Sys2Proof.Frame := ⟨3, 1, 4, 7, 0, 0, cnt, 0x900, rcw, 0, [1, 2, 3, 4, 5, 6, 7, 8], false⟩
/-- A grant of partition 0 to it for 0x900 to 0xFFF. -/
def grant : DW × DW × DW := (dw (2 ^ 63 + 3 * 2 ^ 32 + 7 * 2 ^ 22 + 4 * 2 ^ 5), 0x900, 0xFFF)
def wFr (f : Sys2Proof.Frame) (g : Map (DW × DW × DW)) (rx : Map RxQ) : State := { wRp (rp true 0 0) (.frame 2 f) with
  io := { (wRp (rp true 0 0) .none).io with grants := g, rx := rx, got := [(0, 6), (0, 7), (0, 8), (0, 9), (0, 10)] } }
theorem wit_frame_peer : ((wFr (fr 1 0) [] []).rport 2).peer = some (fr 1 0).pkg ∧ (fr 1 0).dpkg = (wFr (fr 1 0) [] []).io.pkgid.toNat ∧
    (fr 1 0).relayed = false ∧ ((wRo t0 (sq5 [] false) RPort.reset .none).rport 2).peer ≠ some (fr 1 0).pkg ∧
    ((fr 1 0).seq - ((wFr (fr 1 0) [] []).rxq (3 * 1024 + 7)).expect).toNat < 64 ∧ ((wFr (fr 1 0) [] []).rxq (3 * 1024 + 7)).msgs = [] := by
  decide +kernel
theorem wit_frame_ungranted : (wFr (fr 1 0) [] []).grantOf (fr 1 0) = none ∧ (wFr (fr 1 0) [(0, grant)] []).grantOf (fr 1 0) = some grant ∧
    (wFr { fr 1 0 with dst := 0x1000 } [(0, grant)] []).admitted grant { fr 1 0 with dst := 0x1000 } = false := by decide +kernel
theorem wit_frame_taken : (wFr (fr 2 0) [(0, grant)] []).admitted grant (fr 2 0) = true ∧
    (wFr (fr 2 0) [(0, grant)] []).restored (bits grant.1.toNat 4 0) = true ∧ (fr 2 0).rcw = 0 ∧ 1 < (fr 2 0).cnt ∧
    ((wFr (fr 2 0) [(0, grant)] []).setCredit 2 3 0).engPlaces (((wFr (fr 2 0) [(0, grant)] []).setCredit 2 3 0).ioAcc 0) .wr (pageParts 0x900 8) =
      .ok [⟨0x900, 0x900, 8, 0⟩] ∧ (wFr (fr 2 0) [(0, grant)] []).mem.wf = true :=
  ⟨by decide +kernel, by decide +kernel, rfl, by decide, ok_of_placesAre (by decide +kernel), by decide +kernel⟩
theorem wit_frame_again : ((wFr (fr 2 0) [] [(3079, ⟨0, [⟨0, [0], 2, 0, 0⟩]⟩)]).rxq (3 * 1024 + 7)).msgs = [⟨0, [0], 2, 0, 0⟩] ∧
    (⟨0, [0], 2, 0, 0⟩ : RxMsg).got.contains (fr 2 0).idx = true ∧ (⟨0, [0], 2, 0, 0⟩ : RxMsg).got.length < 2 := by decide +kernel
def wFc : State := wFr (fr 1 0xA08) [(0, grant)] []
theorem wit_frame_completes : wFc.grantOf (fr 1 0xA08) = some grant ∧ wFc.admitted grant (fr 1 0xA08) = true ∧
    wFc.restored (bits grant.1.toNat 4 0) = true ∧ (fr 1 0xA08).rcw ≠ 0 ∧ (fr 1 0xA08).seq = (wFc.rxq (3 * 1024 + 7)).expect ∧
    (wFc.setCredit 2 3 0).engPlaces ((wFc.setCredit 2 3 0).ioAcc 0) .wr (pageParts 0x900 8) = .ok [⟨0x900, 0x900, 8, 0⟩] ∧
    (∀ s1 : State, s1 = (wFc.setCredit 2 3 0).ioWrite 0 [⟨0x900, 0x900, 8, 0⟩] (bytesNat (fr 1 0xA08).data) →
      s1.engPlaces (s1.ioAcc 0) .wr [((fr 1 0xA08).rcw.toNat, 8)] = .ok [⟨0xA08, 0xA08, 8, 0⟩]) ∧
    0xA08 % 8 = 0 ∧ NoneWaits wFc ∧ NoneSwapped wFc 0xA08 :=
  ⟨by decide +kernel, by decide +kernel, by decide +kernel, by decide, by decide +kernel, ok_of_placesAre (by decide +kernel),
    fun s1 h => h ▸ ok_of_placesAre (by decide +kernel), by decide, by unfold NoneWaits; decide +kernel, by unfold NoneSwapped; decide +kernel⟩
def ackOf (k : AckKind) : AckFrame := ⟨3, 9, [⟨1, 5, 9, 0, k⟩]⟩
theorem wit_ack : ((wRp (rp true 0 0) (.ack 2 (ackOf .ok))).rport 2).peer = some (ackOf .ok).pkg ∧
    ((wRp (rp true 0 0) .none).sendq 5).msgs = [msg5 true false] ∧ (msg5 true false).seq = 9 ∧
    (1 : Nat) = (wRp (rp true 0 0) .none).io.pkgid.toNat ∧ (wRo t0 (sq5 [] false) RPort.reset .none).rport 2 = RPort.reset := by decide +kernel
def sent (acked due : Bool) (resends : Nat) : Msg := { msg5 true false with frames := [⟨0, some 0, due, resends, false, acked⟩] }
theorem wit_resend : ((wRo t0 (sq5 [sent false false 3] false) RPort.reset (.n3 5 9 0)).sendq 5).msgs = [sent false false 3] ∧
    (sent true false 3).frames = [⟨0, some 0, false, 3, false, true⟩] ∧ (sent false false 16).frames = [⟨0, some 0, false, 16, false, false⟩] :=
  ⟨rfl, rfl, rfl⟩
theorem wit_relay_and_reset : (wRp { rp true 0 0 with relay := [(0, fr 1 0)], rot := 5 } (.n1 2)).arg = .n1 2 ∧
    (wRp (rp true 0 0) (.n3 3 7 0)).arg = .n3 3 7 0 := ⟨rfl, rfl⟩

/-! ## Ethernet and ingress -/

/-- Ethernet queue 2 of partition 0 on port 0, its control block at 0x600. -/
def eq2 : EthQ := ⟨dw (2 ^ 63), 0x600, 0, 0, [], [], []⟩
def wE (q : EthQ) (ing : Map Ingress) (arg : Arg) : State := { wt t0 with
  io := { w.io with eths := [(2, q)], conns := [(1, ⟨1, 0, []⟩)], ingress := ing, got := [(0, 6), (0, 7), (0, 8), (0, 9)] }, arg := arg }
def cr (mode pfc cc sec : Nat) (credit spray : Bool) : ConnReq := ⟨0, 1, mode, credit, pfc, cc, spray, sec, 0⟩
theorem wit_connection : supported (cr 1 2 0 1 false false) = true ∧ supported (cr 0 0 1 0 false true) = true ∧ supported (cr 3 0 0 0 false false) = false ∧
    supported (cr 1 0 0 0 true false) = false ∧ supported (cr 1 3 0 0 false false) = false ∧ supported (cr 1 0 2 0 false false) = false ∧
    supported (cr 1 0 0 0 false true) = false ∧ supported (cr 1 0 0 2 false false) = false ∧ supported ⟨8, 1, 1, false, 0, 0, false, 0, 0⟩ = false := by
  decide
theorem wit_remote_atomic : (wE eq2 [] (.n2 0 1)).arg = .n2 0 1 := rfl
def ew (cw : Addr) : EthWrite := ⟨0, 1, 2, 0x900, [1, 2, 3, 4], cw⟩
theorem wit_rma_write : (wE eq2 [] (.ethWrite (ew 0))).connOf 0 1 = some ⟨1, 0, []⟩ ∧
    (wE eq2 [] .none).mayUse ((wE eq2 [] .none).eth 2) 0 1 = true ∧ (wE eq2 [] .none).mayUse ((wE eq2 [] .none).eth 3) 0 1 = false ∧
    (ew 4).cw.toNat % 8 ≠ 0 ∧ (wE eq2 [] .none).ethPlaces 0 .wr 0x900 4 = .ok [⟨0x900, 0x900, 4, 0⟩] ∧
    (wE eq2 [] .none).ethPlaces 0 .wr 0x908 8 = .ok [⟨0x908, 0x908, 8, 0⟩] ∧
    (wE eq2 [] .none).mem.wf = true ∧ NoneWaits (wE eq2 [] (.ethWrite (ew 0x908))) :=
  ⟨rfl, by decide +kernel, by decide +kernel, by decide, ok_of_placesAre (by decide +kernel), ok_of_placesAre (by decide +kernel),
    by decide +kernel, by unfold NoneWaits; decide +kernel⟩
/-- Whether a port's access fails for good. -/
def failsFor (r : Except EngErr (List Piece)) : Bool :=
  match r with
  | .error e => !e.waits
  | .ok _ => false
theorem wit_rma_fails : failsFor ((wE eq2 [] .none).ethPlaces 0 .wr (2 ^ 40) 4) = true ∧
    failsFor ((wE eq2 [] .none).ethPlaces 0 .rd (2 ^ 40) 4) = true := by decide +kernel
theorem wit_backlog : let c : EthConn := ⟨1, 0, [.read ⟨0, 1, 2, 0x900, 4⟩]⟩
    ({ wE eq2 [] (.ethWrite (ew 0)) with io := { (wE eq2 [] .none).io with conns := [(1, c)] } } : State).connOf 0 1 = some c ∧ c.mode = 1 ∧
      c.backlog ≠ [] := by decide +kernel
theorem wit_rma_read : (wE eq2 [] .none).ethPlaces 0 .rd 0x900 4 = .ok [⟨0x900, 0x900, 4, 0⟩] := ok_of_placesAre (by decide +kernel)
theorem wit_send_entry : parseSend (1 * 2 ^ 56 + 1 + 0x800 * 2 ^ 64 + 16 * 2 ^ 128 + 0x908 * 2 ^ 320) = (true, 1, 1, 0x800, 16, 0x908) ∧
    (parseSend 0).1 = false := by decide +kernel
/-- A control block at 0x600 with a ring of 4 send entries at 0x700, one posted. -/
def wRing : State := { wE eq2 [] (.n1 2) with
  mem := (((((((w.mem.writeN 0x600 8 0x700).writeN 0x608 8 4).writeN 0x610 8 1).writeN 0x700 8 (2 ^ 56 + 1)).writeN 0x708 8 0x800)
    ).writeN 0x710 8 16).writeN 0x728 8 0x908 }
def wordIs (r : Except EngErr Nat) (n : Nat) : Bool :=
  match r with
  | .ok x => x == n
  | .error _ => false
theorem word_of {r : Except EngErr Nat} {n : Nat} (h : wordIs r n = true) : r = .ok n := by
  cases r with
  | ok x => simp only [wordIs, beq_iff_eq] at h; rw [h]
  | error e => cases h
theorem wit_tail : eq2.valid = true ∧ EthQ.valid ⟨0, 0, 0, 0, [], [], []⟩ = false ∧ wRing.qcbWord eq2 0 = .ok 0x700 ∧ wRing.qcbWord eq2 8 = .ok 4 ∧
    wRing.qcbWord eq2 16 = .ok 1 ∧ bits 4 16 0 ≠ 0 ∧ bits 1 31 0 ≠ eq2.staken ∧
    wRing.ethPlaces 0 .rd (0x700 + 64 * (0 % 4)) 64 = .ok [⟨0x700, 0x700, 64, 0⟩] ∧
    wRing.ethPlaces 0 .wr (0x600 + 48) 8 = .ok [⟨0x630, 0x630, 8, 0⟩] ∧ parseSend (wRing.mem.readN 0x700 64) = (true, 1, 1, 0x800, 16, 0x908) :=
  ⟨by decide, by decide, word_of (by decide +kernel), word_of (by decide +kernel), word_of (by decide +kernel), by decide, by decide,
    ok_of_placesAre (by decide +kernel), ok_of_placesAre (by decide +kernel), by decide +kernel⟩
/-- Whether the check of an entry lets it start. -/
def starts (r : Except EngErr (Option Nat × State)) : Bool :=
  match r with
  | .ok (none, _) => true
  | _ => false
theorem wit_tail_starts :
    let s1 := ((wRing.ethRead 0 [⟨0x700, 0x700, 64, 0⟩]).ioWrite 0 [⟨0x630, 0x630, 8, 0⟩] 1).modEth 2 (fun q => { q with staken := 1 })
    starts (s1.sendStatus (s1.eth 2) 1 1 0x800 16) = true := by decide +kernel
def eop (op cw : Nat) : EthOp := ⟨0, true, op, 0x800, 16, cw, none⟩
def wEnd (op cw : Nat) : State := wE { eq2 with ops := [eop op cw] } [] (.ethEnd ⟨2, 0, 0, [1, 2, 3]⟩)
theorem wit_operation_end : ((wEnd 1 0x908).eth 2).ops = [eop 1 0x908] ∧ ((wEnd 1 0x908).eth 2).rcvs = [] ∧ (eop 1 0x908).op ≠ 3 ∧
    (wEnd 1 0x908).ethPlaces 0 .wr 0x908 8 = .ok [⟨0x908, 0x908, 8, 0⟩] ∧
    (wEnd 3 0).ethPlaces 0 .wr 0x800 3 = .ok [⟨0x800, 0x800, 3, 0⟩] ∧ [1, 2, 3].length ≤ (eop 3 0).len :=
  ⟨rfl, rfl, by decide, ok_of_placesAre (by decide +kernel), ok_of_placesAre (by decide +kernel), by decide⟩
def ing (held : Nat) (ents : List IngEnt) : Ingress := ⟨some p0, true, 2, 0, 0, 0, 0, held, false, ents⟩
def es (data : List Byte) : EthSend := ⟨0, 1, 2, data⟩
theorem wit_incoming_send : (wE eq2 [] .none).io.ingress.any (fun h => h.2.valid && h.2.eq == 2) = false ∧
    (wE eq2 [(0, ing 0 [])] .none).io.ingress.any (fun h => h.2.valid && h.2.eq == 2) = true ∧ eq2.posted = [] ∧
    ({ eq2 with posted := [0x800 + 16 * 2 ^ 64] } : EthQ).posted = [0x800 + 16 * 2 ^ 64] ∧
    (0x800 + 16 * 2 ^ 64) / 2 ^ (64 * 0) % 2 ^ 64 = 0x800 ∧ (0x800 + 16 * 2 ^ 64) / 2 ^ (64 * 2) % 2 ^ 64 = 0 ∧
    min [(1 : Byte), 2, 3].length 16 = 3 := by decide +kernel
theorem wit_incoming_send_places : (wE { eq2 with posted := [0x800 + 16 * 2 ^ 64] } [] .none).ethPlaces 0 .wr 0x800 3 = .ok [⟨0x800, 0x800, 3, 0⟩] :=
  ok_of_placesAre (by decide +kernel)
/-- The same channel on port 0 of a connector held by it. -/
def wIng (x : EthSend) (c : Ingress) (op : Option POp) : State := { wC t0 (con1 true (pst (some (.ingress 0)) op) (pst none none)) (.ethSend x) with
  io := (wE eq2 [(0, c)] .none).io }
def wmk : List Byte := [5, 0, 0, 0, 0, 0, 0, 0x40]
theorem wit_ingress : (wIng (es wmk) (ing 0 []) none).io.ingress = [(0, ing 0 [])] ∧ (wIng (es wmk) (ing 0 []) none).connOf 0 1 = some ⟨1, 0, []⟩ ∧
    wmk.length = 8 ∧ bits (bytesNat (wmk.take 8)) 63 62 = 1 ∧ (ing 0 []).held + 8 ≤ 2 ^ 20 ∧ 2 ^ 20 < (ing (2 ^ 20) []).held + 8 ∧ (ing (2 ^ 20) []).held ≠ 0 ∧ (ing 0 []).bound = some p0 ∧
    (wIng (es wmk) (ing 0 []) none).port p0 = some (pst (some (.ingress 0)) none) ∧ (es [1]).data.length < 8 ∧ (es []).data = [] := by decide +kernel
def wIngEnd : State := { wIng (es wmk) (ing 8 [.record ⟨7, 8⟩, .fin 0 1 8]) (some (pop (.offer ⟨7, 8⟩ false) .none (some (.fired true none)))) with
  arg := .port p0 }
theorem wit_ingress_end : wIngEnd.arg = .port p0 ∧ wIngEnd.port p0 = some (pst (some (.ingress 0))
    (some (pop (.offer ⟨7, 8⟩ false) .none (some (.fired true none))))) ∧ (wIngEnd.ingress 0).valid = true ∧ (wIngEnd.ingress 0).portId = p0 ∧
    (wIngEnd.ingress 0).ents = [.record ⟨7, 8⟩, .fin 0 1 8] := by decide +kernel
def wBnd (v : DW) (valid : Bool) : State := { wC t0 (con1 true (pst none none) (pst none none)) (.val 0 0x400000 v) with
  io := (wE eq2 [(0, { ing 0 [] with valid := valid, bound := none })] .none).io }
theorem wit_ingress_bind : ((wBnd 2 false).ingress 0).valid = false ∧ ((wBnd 2 false).eth (bits (2 : DW).toNat 7 0)).valid = true ∧
    (wBnd 2 false).checkCon 0 ((wBnd 2 false).ingress 0).handle.toNat = .ok (0, 0, con1 true (pst none none) (pst none none)) ∧
    (wBnd 2 false).port ⟨0, 0, 0⟩ = some (pst none none) ∧ ((wBnd 3 false).eth (bits (3 : DW).toNat 7 0)).valid = false :=
  ⟨by decide +kernel, by decide +kernel, by rfl, by decide +kernel, by decide +kernel⟩

/-! ## Clauses about what else stands in the state -/

theorem wit_refusal_runs : (∃ t, ({ w with arg := .val 1 4 0x400 } : State).threadOf 1 = some t ∧ t.run ≠ .ending) ∧
    (wt { t0 with run := .ending }).threadOf 1 = some { t0 with run := .ending } ∧ InSlot (wt { t0 with run := .ending }) 0 { t0 with run := .ending } 1 :=
  ⟨⟨t0, rfl, by decide⟩, rfl, ⟨rfl, rfl⟩⟩
/-- A withdrawal while another event of the cycle is due, alone, and after its request was performed. -/
def wWd (fin : Option Ret) (agenda : List Ev) : State := { wr tSync { rFar with fin := fin } with arg := .n2 0 7, agenda := agenda }
theorem wit_withdrawal_waits : (∃ e ∈ (wWd none [⟨.powerUp, .none⟩]).agenda, e.i ≠ .withdrawalAtHome) ∧
    (∀ e ∈ (wWd none [⟨.withdrawalAtHome, .none⟩]).agenda, e.i = .withdrawalAtHome) ∧
    (wWd none []).req 7 = some rFar ∧ rFar.fin = none ∧ ((wWd (some (.ok 5 0)) []).req 7).map (·.fin) = some (some (.ok 5 0)) := by decide +kernel
theorem wit_started_this_cycle : ({ wQueued with dies := mput wQueued.dies 0 { wQueued.die 0 with launchAt := wQueued.cycle + 1 } } : State).eligibleLaunches 0 = [] ∧
    (({ wQueued with dies := mput wQueued.dies 0 { wQueued.die 0 with launchAt := wQueued.cycle + 1 } } : State).die 0).launchAt = wQueued.cycle + 1 ∧
    (wQueued.die 0).launchAt ≠ wQueued.cycle + 1 := by decide +kernel
/-- Two adjustments of phase 0 that reach its record in one cycle, from cores 4 and 0 of its die. -/
def adj (core : Key) : Adj := ⟨0x80000000, 0, 1, core, 0⟩
def wAdj (others : List Owed) : State := { wWk t0 (.n1 5) with owed := ⟨5, 0, [(.g 3, 0)], none, 0, false, false, some (adj 4)⟩ :: others, nextId := 9 }
theorem wit_adjustment : (wAdj []).adjustedLater (adj 4) = false ∧
    (wAdj [⟨6, 8, [(.g 3, 0)], none, 0, false, false, some (adj 0)⟩]).adjustedLater (adj 4) = true ∧
    (∀ x ∈ (wAdj []).owed, x.id < (wAdj []).nextId) ∧ checkHandle (wAdj []) (adj 4).part (adj 4).h.toNat = .live (.phase 0 0) ∧
    ((wAdj []).owed.find? (fun x => x.id == 5)).map (·.adj) = some (some (adj 4)) ∧ (wAdj []).thread 0 = some t0 := by decide +kernel
theorem wit_bars_unequal : (wBar ⟨barV 1, true, true, true, false⟩ t0 .none).barEqual 0 2 = false ∧
    ({ wBar ⟨barV 1, true, true, true, false⟩ t0 .none with cores := [(0, { Core.reset with bars := Core.reset.bars.setIfInBounds 2 ⟨barV 1, true, true, true, false⟩ }),
      (1, { Core.reset with bars := Core.reset.bars.setIfInBounds 2 ⟨barV 1, true, true, true, false⟩ })] } : State).barEqual 0 2 = true := by decide +kernel
theorem wit_bar_settles : (let b := ((wBar ⟨barSetCnt (barV 1) 1, true, false, true, false⟩ t0 .none).core 0).bar 2
    barNarr b.reg ≠ 0 ∧ barCnt b.reg = barNarr b.reg ∧ b.heldArr = false) := by decide +kernel
theorem wit_severed : ({ wt (tMig 64) with arg := .n2 0 64, dies := [(1, { Die.reset with fenced := true })] } : State).severed 0 64 = true ∧
    ({ wt (tMig 64) with arg := .n2 0 64 } : State).severed 0 64 = false ∧ (wNoSlot 15).severed 0 64 = false := by decide +kernel
def tRotor (w : Option (Nat × Nat)) : Thread := { t0 with run := .parked (.rotor 3 true w), waitId := 3, g := t0.g.setIfInBounds 3 ⟨0, false, false, true⟩ }
theorem wit_unwait : (tRotor none).run = .parked (.rotor 3 true none) ∧ (tRotor none).unwait.isFull (.g 3) = true ∧
    (∀ d was x, t0.run ≠ .parked (.rotor d was x)) ∧ InSlot (wt (tRotor none)) 0 (tRotor none) 1 ∧ InSlot (wt (tRotor (some (2, 0)))) 0 (tRotor (some (2, 0))) 1 ∧
    (tRotor none).waitId = 3 := ⟨rfl, by decide +kernel, (by intro d was x h; cases h), ⟨rfl, rfl⟩, ⟨rfl, rfl⟩, rfl⟩
theorem wit_limit_of_try : ({ tSync with waitId := 3 } : Thread).run = .parked (.sync 7) ∧
    ({ wt { tSync with waitId := 3 } with arg := .n2 1 3 } : State).threadOf 1 = some { tSync with waitId := 3 } ∧
    ({ wt { tSync with waitId := 3 } with arg := .n2 1 3 } : State).slotOfTid 1 = some 0 := ⟨rfl, rfl, rfl⟩
theorem wit_limit_of_lease : ({ t0 with lease := .requested, leaseOwe := some (3, 4) } : Thread).run = .ready ∧
    (wt { t0 with lease := .requested, leaseOwe := some (3, 4) }).threadOf 1 = some { t0 with lease := .requested, leaseOwe := some (3, 4) } := ⟨rfl, rfl⟩
theorem wit_lease_limit_switching : ({ wPl tHeld { plk with holder := some 1 } (.n2 0 0) with
      groups := mput w.groups 0 { w.group 0 with plank := { plk with holder := some 1 }, incoming := some 1 } } : State).switching 0 = true ∧
    (wPl tHeld { plk with holder := some 1 } (.n2 0 0)).switching 0 = false ∧ plk.since = 0 := by decide +kernel
theorem wit_plank_waits : ({ wPl (tPl .zero false []) plk (.n1 0) with
      groups := mput w.groups 1 { w.group 1 with plank := { plk with queue := [plCmd (.drain 0x800 0 1 1 1 false false) true] } } } : State).ownedElsewhere
        (plCmd (.drain 0x800 0 1 1 1 false false) false).own (.plank 0) = true := by decide +kernel
/-- A binding whose too-late offer is awaited. -/
def bLate : BrimB := { brim1 [] [] 0 with tlWait := true }
theorem wit_brim_waits : (wBrim bLate idle0 t0 (.wm 0 0 16 false)).brimB 0 0 = some bLate ∧ bLate.dead = false ∧ bLate.drain = false ∧
    bLate.tlWait = true := ⟨rfl, rfl, rfl, rfl⟩
/-- A trap whose frame's page is missing, and one of a service core without a handler. -/
def wNoFrame : State := { wTrap t0 0x20000 with groups := [] }
theorem wit_trap_drops : (match wNoFrame.access 0 t0 0x800 64 8 .wr true with
      | .error ⟨.drop va w, _⟩ => va == 0x800 && w
      | .error _ => false
      | .ok _ => false) = true ∧ (wNoFrame.core 0).tvec ≠ 0 ∧ t0.thsBit 12 = false ∧ ({ t0.unwait with pend := none, took := [] } : Thread).owesFrame = false ∧
    (wNoFrame.core 0).sbuf.length + 8 ≤ 16 := by decide +kernel
theorem wit_trap_ends_on_service : sv.thread 65536 = some t0 ∧ (sv.core (coreOf 65536)).tvec = 0 ∧ isService (coreOf 65536) = true := ⟨rfl, rfl, rfl⟩
theorem wit_tret_skips_whole : wSkip.skipFrom wSkip.cur (tIn 0) (2 ^ 55) 0 (target ((tIn 0).trappc.setWidth 64)).toNat = .ok 2 ∧
    wSkip.acquiring wSkip.cur (tIn 0) = false := ⟨ok_of_okIs (by decide +kernel), by decide +kernel⟩
theorem wit_tret_ends : Executes wSkip (tIn 0) false ((op 0 0 (.imm 1)).tx .plain) [] ∧ wSkip.thread wSkip.cur = some (tIn 0) ∧ t0.thsBit 12 = false :=
  ⟨⟨⟨rfl, .inr rfl, rfl, rfl, rfl⟩, rfl⟩, rfl, by decide⟩
theorem wit_halt_cluster : mget (wSv (tg 0 2) t0).clusters 0 = none ∧ mget wScr.clusters 0 = some { Cluster.reset with wmask := 1 } ∧
    dieOfCluster 0 = 0 := ⟨rfl, rfl, rfl⟩
theorem wit_reserved_coordinates : coordReserved 8 = true ∧ coordReserved (2 ^ 20) = true ∧ coordReserved (coordOf 1) = false ∧
    coordReserved (coordOf 0) = false := by decide +kernel
theorem wit_image_home_joined : (wSv (tc 0) t0).joined (homeDie 0x4000) = true ∧ (wSv (tc 0) t0).acquiring 65536 (tc 0) = false ∧
    ({ t0 with tid := 2, run := .parked .copyAccept } : Thread).mayLeave = false ∧ ({ t0 with tid := 2, ths := 0x8000 } : Thread).thsBit 15 = true := by
  decide +kernel
/-- A range of configuration space. -/
def rCfg : Range := ⟨0, 0xF1000000000, 0xF10000000FF, 0, 0, false, true, true, true⟩
def wCfgPlb : State := { wCfg 0 5 with cores := [(8192, { Core.reset with plb := [rCfg] })] }
theorem wit_cfg_plb : wCfgPlb.plb wCfgPlb.cur 0 (0xF1 * 2 ^ 48) 8 .rd = .ok rCfg ∧ wCfgPlb.plb wCfgPlb.cur 0 (0xF1 * 2 ^ 48) 8 .wr = .ok rCfg ∧
    wCfgPlb.acquiring wCfgPlb.cur (tCfg 0 5) = false := ⟨ok_of_okIs (by decide +kernel), ok_of_okIs (by decide +kernel), by decide +kernel⟩
theorem wit_gang_tick_next : ∀ e ∈ (wGang none w.parts (.n2 0 schedNum)).alarms, e.2.i ≠ .gangTick := by decide +kernel
theorem wit_exchange_image : (∀ e ∈ (wExch true).parts, inMask e.2.pgrp 0 = true ∨ mget e.2.images 0 = none) ∧
    (([(3, t0)] : Map Thread).map (·.1)).Nodup ∧ (∀ e ∈ ([(3, t0)] : Map Thread), inGroup 0 e.1 = true) ∧ (1 : Nat) ≠ ((wExch true).group 0).owner := by
  decide +kernel
theorem wit_message_entry : (∀ e, ({ tDrop with run := .dropped 0x5000 true (some e) } : Thread).run = .dropped 0x5000 true (some e)) ∧
    (wMsg { tDrop with run := .dropped 0x5000 true (some ⟨4, 0, 0⟩) } [0]).thread 0 = some { tDrop with run := .dropped 0x5000 true (some ⟨4, 0, 0⟩) } :=
  ⟨fun _ => rfl, rfl⟩
/-- One send queue, alone, and two of which the other has nothing ended first. -/
theorem wit_alone : let s := wRo t0 (sq5 [msg5 true false] false) RPort.reset (.n2 5 9)
    (s.io.sendqs.map (·.1)).Nodup ∧ (∀ e ∈ s.io.sendqs, e.1 ≠ 5 → ∀ y, e.2.msgs.head? = some y → y.ended = false) ∧
    (∀ t, s.threadOf (msg5 true false).tid = some t → t.q3.length < 16) := by
  refine ⟨by decide +kernel, ?_, ?_⟩
  · intro e h n
    cases h with
    | head => exact absurd rfl n
    | tail _ h => cases h
  · intro t h
    have : (wRo t0 (sq5 [msg5 true false] false) RPort.reset (.n2 5 9)).threadOf (msg5 true false).tid = some t0 := rfl
    rw [this] at h; cases h; decide
theorem wit_frame_send_queue : (sq5 [msg5 true false] false).valid = true ∧ (sq5 [msg5 true false] false).halt = false ∧
    ((wRp (rp true 0 0) (.n1 2)).rport 2).lock = true := ⟨rfl, rfl, rfl⟩
theorem wit_frame_relay : 0 < (wFr { fr 1 0 with dpkg := 4 } [] []).relayCredit 2 ∨ (wFr { fr 1 0 with dpkg := 4 } [] []).relayCredit 2 = 0 := by omega
theorem wit_frame_not_mine : ((wFr { fr 1 0 with dpkg := 4 } [] []).rport 2).peer = some 3 ∧ (4 : Nat) ≠ (wFr { fr 1 0 with dpkg := 4 } [] []).io.pkgid.toNat ∧
    (fr 1 0).relayed = false := ⟨rfl, by decide +kernel, rfl⟩
theorem wit_frame_unrestored : ({ wFr (fr 2 0) [(0, grant)] [] with dies := mput w.dies 0 { w.die 0 with joining := true } } : State).admitted grant (fr 2 0) = true ∧
    ({ wFr (fr 2 0) [(0, grant)] [] with dies := mput w.dies 0 { w.die 0 with joining := true } } : State).restored (bits grant.1.toNat 4 0) = false := by decide +kernel
theorem wit_osend_pends : (wOs false []).releasedNow 0 (tO 5) .die = true ∧
    ({ wOs false [] with reqs := [{ rq (.load 3 8 false false) 0x400 8 with id := 0 }] } : State).releasedNow 0 (tO 5) .die = false := by decide +kernel

/-! ## Frames, stops before the operation, steps -/

/-- Whether an instruction goes on. -/
def goesOn (i : Instr) (s : State) : Bool :=
  match exec i s with
  | .next _ => true
  | _ => false
theorem wit_frames : goesOn (.add (op 3 1 (.reg 2))) w = true ∧ goesOn (.cmpeq (op 31 1 (.reg 2))) w = true ∧ goesOn (.addi (opI 23 5)) w = true ∧
    goesOn (.ldd oa) w = true ∧ goesOn (.std oa) w = true ∧ goesOn (.pand (op 1 30 (.reg 31))) w = true := by decide +kernel
/-- A thread with p5 full or empty, marked or not, and g1 and g2 full or empty. -/
def tPr (pfull mark : Bool) (g1 g2 : RegCell 64) : Thread := { t0 with
  p := t0.p.setIfInBounds 5 ⟨1, pfull, mark, false⟩, g := (t0.g.setIfInBounds 1 g1).setIfInBounds 2 g2 }
def full1 : RegCell 64 := ⟨5, true, false, false⟩
def empty1 (mark : Bool) : RegCell 64 := ⟨0, false, mark, false⟩
theorem wit_predicate_off : (Instr.add (op 3 1 (.reg 2))).body.isSome = true ∧ (tPr true false full1 full1).isFull (.p 5) = true ∧
    ((tPr true false full1 full1).pv 5 != true) = false := by decide +kernel
theorem wit_predicate_empty : (tPr false true full1 full1).isFull (.p 5) = false ∧ (tPr false true full1 full1).isMarked (.p 5) = true ∧
    (tPr false false full1 full1).isMarked (.p 5) = false := by decide +kernel
theorem wit_source_empty : (tPr true false (empty1 false) full1).isFull (.g 1) = false ∧ (tPr true false (empty1 true) full1).isMarked (.g 1) = true ∧
    (tPr true false (empty1 false) full1).isMarked (.g 1) = false ∧ (tPr true false full1 (empty1 false)).isFull (.g 1) = true ∧
    (tPr true false full1 (empty1 false)).isFull (.g 2) = false ∧ ((tPr true false full1 full1).pv 5 != false) = true := by decide +kernel
theorem wit_not_service : isService (coreOf w.cur) = false ∧ t0.isFull (.p w.q.pred.toNat) = true ∧ (t0.pv w.q.pred.toNat != w.q.inv) = true := by
  decide +kernel

/-- The error of a decoding, and whether it gives an instruction. -/
def errOf (r : Except DecodeError Decoded) : Option DecodeError :=
  match r with
  | .error e => some e
  | .ok _ => none
def decIs (r : Except DecodeError Decoded) (d : Decoded) : Bool :=
  match r with
  | .error _ => false
  | .ok x => x == d
theorem wit_step_runs : w.nextSlot w.threads = some 0 ∧ w.thread 0 = some t0 ∧ t0.boundary = none ∧ t0.declined = none := by decide +kernel
theorem wit_step_fetches :
    (let u := { t0 with lastIssue := some w.cycle, run := if t0.run = .again then .ready else t0.run }
    let s1 : State := { w with cur := 0, cursor := coreOf 0 + 1, threads := mput w.threads 0 u }
    s1.fetch 0 t0) = .ok ⟨.plain, .nop, 1⟩ := ok_of_okIs (by decide +kernel)
/-- The bytes that the instruction cache of core 0 holds from an address on, to the end of the line. -/
def lineBytes (s : State) (va : Nat) : List Byte :=
  (List.range (32 - va % 32)).map (fun i => BitVec.ofNat 8 (((s.iLine 0 0 va).getD 0).toNat / 256 ^ (va % 32 + i)))
theorem wit_fetch_line : 0x10000 / 2 ^ 48 < 0xF0 ∧ 0x10000 % 2 = 0 ∧
    (w.core 0).plb.find? (fun r => r.dom == t0.domN && r.covers 0x10000 2) = some ⟨0, 0, 0xFFFF, 0, 0, false, true, true, true⟩ ∧
    (w.iLine 0 0 0x10000).isSome = true ∧ decIs (decodeBytes (lineBytes w 0x10000)) ⟨.plain, .nop, 1⟩ = true := by decide +kernel
/-- LI with an IMM prefix that begins in the last halfword of a line, and a reserved halfword. -/
def wCross (h : Nat) : State := { w with cores := mput w.cores 0 { w.core 0 with
  icache := [⟨0, 0x10000 / 32, BitVec.ofNat 256 (h * 2 ^ 240)⟩, ⟨0, 0x10020 / 32, BitVec.ofNat 256 0x38E8⟩] } }
theorem wit_fetch_across : errOf (decodeBytes (lineBytes (wCross 0xF01F) 0x1001E)) = some .truncated ∧
    0x1001E / 32 * 32 + 32 = 0x10020 ∧ ((wCross 0xF01F).iLine 0 0 0x10020).isSome = true ∧
    decIs (decodeBytes (lineBytes (wCross 0xF01F) 0x1001E ++ (List.range 32).map (fun i => BitVec.ofNat 8 (0x38E8 / 256 ^ i))))
      ⟨.plain, .li (opI 7 1000), 2⟩ = true := by decide +kernel
theorem wit_fetch_illegal : (errOf (decodeBytes (lineBytes (wCross 0xFFFF) 0x1001E))).isSome = true ∧
    errOf (decodeBytes [0x00, 0xF8, 0x00, 0xA8]) = some .page ∧
    errOf (decodeBytes (lineBytes (wCross 0xF800) 0x1001E ++ [0x00, 0xA8])) = some .page := by decide +kernel
/-- The state after reset with no thread, and events due. -/
def wDue (alarms timers : List (Nat × Ev)) (agenda : List Ev) : State :=
  { State.reset with alarms := alarms, timers := timers, agenda := agenda }
theorem wit_events_due : (wDue [(0, ⟨.powerUp, .none⟩)] [] []).nextSlot (wDue [(0, ⟨.powerUp, .none⟩)] [] []).threads = none ∧
    (wDue [(0, ⟨.powerUp, .none⟩)] [] []).alarms = (0, ⟨.powerUp, .none⟩) :: [] ∧ 0 ≤ (wDue [] [] []).rtime ∧
    (wDue [(1, ⟨.powerUp, .none⟩)] [(0, ⟨.powerUp, .none⟩)] []).timers = (0, ⟨.powerUp, .none⟩) :: [] ∧ 0 ≤ (wDue [] [] []).cycle ∧
    (∀ x ∈ (wDue [(1, ⟨.powerUp, .none⟩)] [] []).alarms.head?, (wDue [] [] []).rtime < x.1) ∧
    (∀ x ∈ (wDue [] [(1, ⟨.powerUp, .none⟩)] []).timers.head?, (wDue [] [] []).cycle < x.1) ∧
    (wDue [(1, ⟨.powerUp, .none⟩)] [(1, ⟨.powerUp, .none⟩)] [⟨.powerUp, .none⟩]).agenda = ⟨.powerUp, .none⟩ :: [] ∧ (wDue [] [] []).agenda = [] :=
  by decide +kernel
theorem wit_round_trip : wfWith .plain (.add (op 3 1 (.reg 2))) = true ∧ wfWith ⟨5, true, true, true, false⟩ (.add (op 3 1 (.reg 2))) = true ∧
    wfWith .plain (.mmul ⟨op 0 0 (.imm 0), 1, 2, 3, 4⟩) = true ∧ decIs (decode [0xA800]) ⟨.plain, .nop, 1⟩ = true := by decide +kernel
theorem wit_memory : State.reset.mem.wf = true ∧ w.mem.wf = true ∧ (∃ s', step w = .next s') := ⟨rfl, by decide +kernel, ⟨_, rfl⟩⟩
theorem wit_goes_on : (∀ e ∈ State.reset.agenda, e.i.body = none) ∧ (∀ e ∈ State.reset.timers, e.2.i.body = none) ∧ w.thread w.cur = some t0 ∧
    Instr.powerUp.body = none := by decide +kernel
theorem wit_rounding : 5 % 2 ^ 1 ≠ 0 ∧ 6 % 2 ^ 1 = 0 ∧ 2 * (5 % 2 ^ 2) < 2 ^ 2 ∧ 2 ^ 2 < 2 * (7 % 2 ^ 2) ∧ 2 * (6 % 2 ^ 2) = 2 ^ 2 ∧
    (0x3C00 : Nat) < 2 ^ fmt16.w ∧ fmt16.decode 0x3C00 = .fin false 1024 (-10) := by decide +kernel

end Sys2Proof.Tests
end

