-- ==== Sys2Proof/Tests/Slice0.lean ====
section
/-! SUPPORT. Tests: ill-formed instructions that the check refuses, words written out from the encoding tables of the spec, and results
that the spec's own tables and worked examples give. -/

namespace Sys2Proof.Tests

open Machine

set_option Elab.async false

/-! ## Well-formedness (R50): one ill-formed instruction for each check -/

theorem test_wf_accepts : Instr.wf (.add ⟨1, 2, .reg 3, 0, 0, 0⟩) = true ∧ wfWith ⟨3, true, true, true, true⟩ (.add ⟨1, 2, .reg 3, 0, 0, 0⟩) = true := by
  decide +kernel
theorem test_wf_event : Instr.wf .powerUp = false := by decide +kernel
theorem test_wf_destination_register : Instr.wf (.add ⟨28, 2, .reg 3, 0, 0, 0⟩) = false ∧ Instr.wf (.cmpeq ⟨32, 2, .reg 3, 0, 0, 0⟩) = false ∧
    Instr.wf (.vadd ⟨8, 2, .reg 3, 0, 0, 0⟩) = false ∧ Instr.wf (.addi ⟨24, 0⟩) = false := by decide +kernel
theorem test_wf_source_register : Instr.wf (.add ⟨1, 44, .reg 3, 0, 0, 0⟩) = false ∧ Instr.wf (.pget ⟨1, 5, .imm 0, 0, 0, 0⟩) = false ∧
    Instr.wf (.ldm ⟨1, 24, .imm 2, 0, 0, 0⟩) = false := by decide +kernel
theorem test_wf_zero_field : Instr.wf (.mlease ⟨1, 2, .imm 0, 0, 0, 0⟩) = false ∧ Instr.wf (.jmp ⟨1, 2, .imm 0, 0, 0, 0⟩) = false := by decide +kernel
theorem test_wf_third_register : Instr.wf (.add ⟨1, 2, .reg 44, 0, 0, 0⟩) = false ∧ Instr.wf (.mov ⟨1, 2, .reg 3, 0, 0, 0⟩) = false := by decide +kernel
theorem test_wf_third_missing : Instr.wf (.vadd ⟨1, 2, .imm 0, 0, 0, 0⟩) = false := by decide +kernel
theorem test_wf_third_immediate : Instr.wf (.pand ⟨1, 2, .imm 5, 0, 0, 0⟩) = false ∧ Instr.wf (.clz ⟨1, 2, .imm 5, 0, 0, 0⟩) = false := by
  decide +kernel
theorem test_wf_conversion_code : Instr.wf (.fcvt ⟨1, 2, .imm 0x66, 0, 0, 0⟩) = false ∧ Instr.wf (.fcvt ⟨1, 2, .imm 0x67, 0, 0, 0⟩) = true := by
  decide +kernel
theorem test_wf_element_type : Instr.wf (.fadd ⟨1, 2, .reg 3, 0, 0, 3⟩) = false ∧ Instr.wf (.add ⟨1, 2, .reg 3, 0, 0, 1⟩) = false ∧
    Instr.wf (.ldfe ⟨1, 2, .imm 0, 0, 0, 7⟩) = false := by decide +kernel
theorem test_wf_rounding : Instr.wf (.fadd ⟨1, 2, .reg 3, 0, 6, 6⟩) = false ∧ Instr.wf (.mul ⟨1, 2, .reg 3, 0, 1, 0⟩) = false := by decide +kernel
theorem test_wf_scale : Instr.wf (.add ⟨1, 2, .reg 3, 1, 0, 0⟩) = false ∧ Instr.wf (.lea ⟨1, 2, .imm 3, 1, 0, 0⟩) = false ∧
    Instr.wf (.lea ⟨1, 2, .reg 3, 3, 0, 0⟩) = true := by decide +kernel
theorem test_wf_block_marker : Instr.wf (.mldw ⟨⟨0, 0, .imm 0, 0, 0, 0⟩, 0xF0000018, 32, 0, 0⟩) = false ∧
    Instr.wf (.mldw ⟨⟨0, 0, .imm 0, 0, 0, 0⟩, 0xF0000045, 32, 0, 0⟩) = false ∧
    Instr.wf (.mldw ⟨⟨0, 0, .imm 0, 0, 0, 0⟩, 0xF0000005, 32, 0xF017, 0⟩) = true := by decide +kernel
theorem test_wf_block_reserved : Instr.wf (.mldw ⟨⟨0, 0, .imm 0, 0, 0, 0⟩, 0, 32, 0, 1⟩) = false ∧
    Instr.wf (.graph ⟨⟨1, 2, .imm 0, 0, 0, 0⟩, 0, 0, 0xF0000001, 0⟩) = false := by decide +kernel
theorem test_wf_selector : Instr.wf (.plbiCore ⟨0, 2, .imm 2, 0, 0, 0⟩) = false ∧ Instr.wf (.plbiCore ⟨0, 2, .imm 1, 0, 0, 0⟩) = true := by
  decide +kernel
theorem test_wf_source_bits : wfWith ⟨0, false, true, false, false⟩ (.addi ⟨1, 5⟩) = false ∧
    wfWith ⟨0, false, false, true, false⟩ (.add ⟨1, 2, .imm 5, 0, 0, 0⟩) = false := by decide +kernel
theorem test_wf_chain_length : wfWith ⟨5, false, false, false, false⟩ (.mul ⟨33, 2, .imm 0x40000, 0, 0, 0⟩) = false ∧
    wfWith .plain (.mul ⟨33, 2, .imm 0x40000, 0, 0, 0⟩) = true := by decide +kernel

/-! ## Words -/

/-- Whether every list of halfwords decodes to the instruction beside it, unpredicated, with nothing left over. -/
def reads (l : List (List Half × Instr)) : Bool := l.all (fun x => decIs (decode x.1) ⟨.plain, x.2, x.1.length⟩)

theorem test_decode_page0_a :
    reads [([0xF47C, 0x0022], .add ⟨33, 34, .reg 35, 0, 0, 0⟩),
      ([0xF47C, 0x0422], .sub ⟨33, 34, .reg 35, 0, 0, 0⟩),
      ([0xF3F6, 0x08F4], .addi (opI 7 0x1fffed4)),
      ([0xF47C, 0x0C22], .and ⟨33, 34, .reg 35, 0, 0, 0⟩),
      ([0xF47C, 0x1022], .or ⟨33, 34, .reg 35, 0, 0, 0⟩),
      ([0xF47C, 0x1422], .xor ⟨33, 34, .reg 35, 0, 0, 0⟩),
      ([0xF47C, 0x1822], .andn ⟨33, 34, .reg 35, 0, 0, 0⟩),
      ([0xF47C, 0x1C22], .shl ⟨33, 34, .reg 35, 0, 0, 0⟩),
      ([0xF47C, 0x2022], .shr ⟨33, 34, .reg 35, 0, 0, 0⟩),
      ([0xF47C, 0x2422], .sar ⟨33, 34, .reg 35, 0, 0, 0⟩),
      ([0xF3F6, 0x28F4], .shli (opI 7 0x1fffed4)),
      ([0xF3F6, 0x2CF4], .shri (opI 7 0x1fffed4)),
      ([0xF3F6, 0x30F4], .sari (opI 7 0x1fffed4)),
      ([0xF418, 0x3422], .mov ⟨33, 34, .imm 0, 0, 0, 0⟩),
      ([0xF3F6, 0x38F4], .li (opI 7 0x1fffed4)),
      ([0xF47C, 0x3C22], .lea ⟨33, 34, .reg 35, 0, 0, 0⟩),
      ([0xF46C, 0x4122], .cmpeq ⟨9, 34, .reg 35, 0, 0, 0⟩),
      ([0xF46C, 0x4522], .cmpne ⟨9, 34, .reg 35, 0, 0, 0⟩)] = true := by decide +kernel
theorem test_decode_page0_b :
    reads [([0xF46C, 0x4922], .cmplt ⟨9, 34, .reg 35, 0, 0, 0⟩),
      ([0xF46C, 0x4D22], .cmpltu ⟨9, 34, .reg 35, 0, 0, 0⟩),
      ([0xF46C, 0x5122], .cmpge ⟨9, 34, .reg 35, 0, 0, 0⟩),
      ([0xF46C, 0x5522], .cmpgeu ⟨9, 34, .reg 35, 0, 0, 0⟩),
      ([0xF47C, 0x5822], .sel ⟨33, 34, .reg 35, 0, 0, 0⟩),
      ([0xF5A0, 0x5CE4], .ldb ⟨7, 4, .reg 13, 0, 0, 0⟩),
      ([0xF5A0, 0x60E4], .ldbu ⟨7, 4, .reg 13, 0, 0, 0⟩),
      ([0xF5A0, 0x64E4], .ldh ⟨7, 4, .reg 13, 0, 0, 0⟩),
      ([0xF5A0, 0x68E4], .ldhu ⟨7, 4, .reg 13, 0, 0, 0⟩),
      ([0xF5A0, 0x6CE4], .ldw ⟨7, 4, .reg 13, 0, 0, 0⟩),
      ([0xF5A0, 0x70E4], .ldwu ⟨7, 4, .reg 13, 0, 0, 0⟩),
      ([0xF5A0, 0x74E4], .ldd ⟨7, 4, .reg 13, 0, 0, 0⟩),
      ([0xF5A0, 0x78E4], .stb ⟨7, 4, .reg 13, 0, 0, 0⟩),
      ([0xF5A0, 0x7CE4], .sth ⟨7, 4, .reg 13, 0, 0, 0⟩),
      ([0xF5A0, 0x80E4], .stw ⟨7, 4, .reg 13, 0, 0, 0⟩),
      ([0xF5A0, 0x84E4], .std ⟨7, 4, .reg 13, 0, 0, 0⟩),
      ([0xF3F6, 0x8814], .br (opI 0 0x1fffed4)),
      ([0xF3F6, 0x8D34], .brp (opI 9 0x1fffed4))] = true := by decide +kernel
theorem test_decode_page0_c :
    reads [([0xF3F6, 0x9134], .brn (opI 9 0x1fffed4)),
      ([0xF46C, 0x9402], .jmp ⟨0, 34, .reg 35, 0, 0, 0⟩),
      ([0xF3F6, 0x9814], .call (opI 0 0x1fffed4)),
      ([0xF46C, 0x9C02], .callr ⟨0, 34, .reg 35, 0, 0, 0⟩),
      ([0xF3F6, 0xA4F4], .loop (opI 7 0x1fffed4)),
      ([0xACE4], .movs (opI 7 0x4)),
      ([0xB0E0], .movsw (opI 7 0x0)),
      ([0xF5E0, 0xB52B], .pand ⟨9, 11, .reg 15, 0, 0, 0⟩),
      ([0xF5E0, 0xB92B], .por ⟨9, 11, .reg 15, 0, 0, 0⟩),
      ([0xF5E0, 0xBD2B], .pxor ⟨9, 11, .reg 15, 0, 0, 0⟩),
      ([0xC12B], .pnot ⟨9, 11, .imm 0, 0, 0, 0⟩),
      ([0xF410, 0xC42B], .pmovg ⟨33, 11, .imm 0, 0, 0, 0⟩),
      ([0xF408, 0xC922], .pmovp ⟨9, 34, .imm 0, 0, 0, 0⟩),
      ([0xA017], .ret),
      ([0xA800], .nop)] = true := by decide +kernel
theorem test_decode_page1_a :
    reads [([0xF840, 0xF47C, 0x0022], .mul ⟨33, 34, .reg 35, 0, 0, 0⟩),
      ([0xF840, 0xF47C, 0x0422], .mulh ⟨33, 34, .reg 35, 0, 0, 0⟩),
      ([0xF840, 0xF47C, 0x0822], .mulhu ⟨33, 34, .reg 35, 0, 0, 0⟩),
      ([0xF840, 0xF47C, 0x0C22], .div ⟨33, 34, .reg 35, 0, 0, 0⟩),
      ([0xF840, 0xF47C, 0x1022], .divu ⟨33, 34, .reg 35, 0, 0, 0⟩),
      ([0xF840, 0xF47C, 0x1422], .rem ⟨33, 34, .reg 35, 0, 0, 0⟩),
      ([0xF840, 0xF47C, 0x1822], .remu ⟨33, 34, .reg 35, 0, 0, 0⟩),
      ([0xF840, 0xF47C, 0x1C22], .min ⟨33, 34, .reg 35, 0, 0, 0⟩),
      ([0xF840, 0xF47C, 0x2022], .max ⟨33, 34, .reg 35, 0, 0, 0⟩),
      ([0xF840, 0xF47C, 0x2422], .minu ⟨33, 34, .reg 35, 0, 0, 0⟩),
      ([0xF840, 0xF47C, 0x2822], .maxu ⟨33, 34, .reg 35, 0, 0, 0⟩),
      ([0xF840, 0xF418, 0x2C22], .clz ⟨33, 34, .imm 0, 0, 0, 0⟩),
      ([0xF840, 0xF418, 0x3022], .ctz ⟨33, 34, .imm 0, 0, 0, 0⟩),
      ([0xF840, 0xF418, 0x3422], .popc ⟨33, 34, .imm 0, 0, 0, 0⟩),
      ([0xF840, 0xF418, 0x3822], .brev ⟨33, 34, .imm 0, 0, 0, 0⟩),
      ([0xF840, 0xF418, 0x3C22], .bswap ⟨33, 34, .imm 0, 0, 0, 0⟩),
      ([0xF840, 0xF47C, 0x4022], .rol ⟨33, 34, .reg 35, 0, 0, 0⟩),
      ([0xF840, 0xF47C, 0x4422], .ror ⟨33, 34, .reg 35, 0, 0, 0⟩)] = true := by decide +kernel
theorem test_decode_page1_b :
    reads [([0xF840, 0xF47C, 0x4822], .ext ⟨33, 34, .reg 35, 0, 0, 0⟩),
      ([0xF840, 0xF46C, 0x4CE2], .ins ⟨7, 34, .reg 35, 0, 0, 0⟩),
      ([0xF840, 0xF418, 0x5022], .sxb ⟨33, 34, .imm 0, 0, 0, 0⟩),
      ([0xF840, 0xF418, 0x5422], .sxh ⟨33, 34, .imm 0, 0, 0, 0⟩),
      ([0xF840, 0xF418, 0x5822], .sxw ⟨33, 34, .imm 0, 0, 0, 0⟩),
      ([0xF840, 0xF418, 0x5C22], .zxb ⟨33, 34, .imm 0, 0, 0, 0⟩),
      ([0xF840, 0xF418, 0x6022], .zxh ⟨33, 34, .imm 0, 0, 0, 0⟩),
      ([0xF840, 0xF418, 0x6422], .zxw ⟨33, 34, .imm 0, 0, 0, 0⟩),
      ([0xF856, 0xF588, 0x68E2], .fadd ⟨7, 34, .reg 12, 0, 2, 6⟩),
      ([0xF856, 0xF588, 0x6CE2], .fsub ⟨7, 34, .reg 12, 0, 2, 6⟩),
      ([0xF856, 0xF588, 0x70E2], .fmul ⟨7, 34, .reg 12, 0, 2, 6⟩),
      ([0xF856, 0xF588, 0x74E2], .fma ⟨7, 34, .reg 12, 0, 2, 6⟩),
      ([0xF856, 0xF588, 0x78E2], .fdiv ⟨7, 34, .reg 12, 0, 2, 6⟩),
      ([0xF856, 0xF408, 0x7CE2], .fsqrt ⟨7, 34, .imm 0, 0, 2, 6⟩),
      ([0xF846, 0xF588, 0x80E2], .fmin ⟨7, 34, .reg 12, 0, 0, 6⟩),
      ([0xF846, 0xF588, 0x84E2], .fmax ⟨7, 34, .reg 12, 0, 0, 6⟩),
      ([0xF846, 0xF588, 0x8922], .fcmpeq ⟨9, 34, .reg 12, 0, 0, 6⟩),
      ([0xF846, 0xF588, 0x8D22], .fcmplt ⟨9, 34, .reg 12, 0, 0, 6⟩)] = true := by decide +kernel
theorem test_decode_page1_c :
    reads [([0xF846, 0xF588, 0x9122], .fcmple ⟨9, 34, .reg 12, 0, 0, 6⟩),
      ([0xF850, 0xF408, 0xF067, 0x94E2], .fcvt ⟨7, 34, .imm 103, 0, 2, 0⟩),
      ([0xF846, 0xF408, 0x98E2], .fclass ⟨7, 34, .imm 0, 0, 0, 6⟩)] = true := by decide +kernel
theorem test_decode_page2_a :
    reads [([0xF883, 0xF5A0, 0x00E4], .ldfe ⟨7, 4, .reg 13, 0, 0, 3⟩),
      ([0xF883, 0xF5A0, 0x04E4], .ldff ⟨7, 4, .reg 13, 0, 0, 3⟩),
      ([0xF883, 0xF5A0, 0x08E4], .stef ⟨7, 4, .reg 13, 0, 0, 3⟩),
      ([0xF883, 0xF5A0, 0x0CE4], .stff ⟨7, 4, .reg 13, 0, 0, 3⟩),
      ([0xF883, 0xF5A0, 0x1004], .sete ⟨0, 4, .reg 13, 0, 0, 3⟩),
      ([0xF880, 0xF5A0, 0x1524], .probe ⟨9, 4, .reg 13, 0, 0, 0⟩),
      ([0xF883, 0xF5A0, 0x18E4], .lda ⟨7, 4, .reg 13, 0, 0, 3⟩),
      ([0xF883, 0xF5A0, 0x1CE4], .strl ⟨7, 4, .reg 13, 0, 0, 3⟩),
      ([0xF880, 0xF5A0, 0x20E4], .stp ⟨7, 4, .reg 13, 0, 0, 0⟩),
      ([0xF880, 0xF5A0, 0x24E4], .ldm ⟨7, 4, .reg 13, 0, 0, 0⟩),
      ([0xF880, 0xF5A0, 0x28E4], .stm ⟨7, 4, .reg 13, 0, 0, 0⟩),
      ([0xF883, 0xF5A0, 0x2CE4], .aadd ⟨7, 4, .reg 13, 0, 0, 3⟩),
      ([0xF883, 0xF5A0, 0x30E4], .aand ⟨7, 4, .reg 13, 0, 0, 3⟩),
      ([0xF883, 0xF5A0, 0x34E4], .aor ⟨7, 4, .reg 13, 0, 0, 3⟩),
      ([0xF883, 0xF5A0, 0x38E4], .axor ⟨7, 4, .reg 13, 0, 0, 3⟩),
      ([0xF883, 0xF5A0, 0x3CE4], .amin ⟨7, 4, .reg 13, 0, 0, 3⟩),
      ([0xF883, 0xF5A0, 0x40E4], .amax ⟨7, 4, .reg 13, 0, 0, 3⟩),
      ([0xF883, 0xF5A0, 0x44E4], .aminu ⟨7, 4, .reg 13, 0, 0, 3⟩)] = true := by decide +kernel
theorem test_decode_page2_b :
    reads [([0xF883, 0xF5A0, 0x48E4], .amaxu ⟨7, 4, .reg 13, 0, 0, 3⟩),
      ([0xF883, 0xF5A0, 0x4CE4], .aswap ⟨7, 4, .reg 13, 0, 0, 3⟩),
      ([0xF883, 0xF5A0, 0x50E4], .acas ⟨7, 4, .reg 13, 0, 0, 3⟩),
      ([0xF883, 0x5400], .fence ⟨0, 0, .imm 0, 0, 0, 3⟩),
      ([0xF880, 0xF5A0, 0x58E4], .watch ⟨7, 4, .reg 13, 0, 0, 0⟩),
      ([0xF880, 0x5CE0], .wait ⟨7, 0, .imm 0, 0, 0, 0⟩),
      ([0xF895, 0xF5A0, 0x60E4], .cpy ⟨7, 4, .reg 13, 0, 2, 5⟩),
      ([0xF895, 0x6400, 0x0800, 0x0000, 0x0400, 0x0000, 0x0004, 0x0002, 0x0080, 0x0040], .cpyt ⟨⟨0, 0, .imm 0, 0, 2, 5⟩, 0x800, 0x400, 0x20004, 0x400080⟩),
      ([0xF880, 0xF5A0, 0x68E4], .cpyw ⟨7, 4, .reg 13, 0, 0, 0⟩),
      ([0xF880, 0xF5A0, 0x6CE4], .cpyc ⟨7, 4, .reg 13, 0, 0, 0⟩),
      ([0xF880, 0x7004], .uien ⟨0, 4, .imm 0, 0, 0, 0⟩),
      ([0xF880, 0x7400], .uiret)] = true := by decide +kernel
theorem test_decode_page3_a :
    reads [([0xF8C0, 0xF5A0, 0x00A4], .vld ⟨5, 4, .reg 13, 0, 0, 0⟩),
      ([0xF8C0, 0xF5A0, 0x04A4], .vst ⟨5, 4, .reg 13, 0, 0, 0⟩),
      ([0xF8C5, 0xF5A0, 0x08A4], .vlds ⟨5, 4, .reg 13, 0, 0, 5⟩),
      ([0xF8C5, 0xF5A0, 0x0CA4], .vsts ⟨5, 4, .reg 13, 0, 0, 5⟩),
      ([0xF8C2, 0xF460, 0x10A4], .vgath ⟨5, 4, .reg 3, 0, 0, 2⟩),
      ([0xF8C2, 0xF460, 0x14A4], .vscat ⟨5, 4, .reg 3, 0, 0, 2⟩),
      ([0xF8D6, 0xF460, 0x18A6], .vadd ⟨5, 6, .reg 3, 0, 2, 6⟩),
      ([0xF8D6, 0xF460, 0x1CA6], .vsub ⟨5, 6, .reg 3, 0, 2, 6⟩),
      ([0xF8D6, 0xF460, 0x20A6], .vmul ⟨5, 6, .reg 3, 0, 2, 6⟩),
      ([0xF8D6, 0xF460, 0x24A6], .vfma ⟨5, 6, .reg 3, 0, 2, 6⟩),
      ([0xF8C5, 0xF460, 0x28A6], .vmin ⟨5, 6, .reg 3, 0, 0, 5⟩),
      ([0xF8C5, 0xF460, 0x2CA6], .vmax ⟨5, 6, .reg 3, 0, 0, 5⟩),
      ([0xF8C5, 0x30A6], .vabs ⟨5, 6, .imm 0, 0, 0, 5⟩),
      ([0xF8C5, 0x34A6], .vneg ⟨5, 6, .imm 0, 0, 0, 5⟩),
      ([0xF8C0, 0xF460, 0x38A6], .vand ⟨5, 6, .reg 3, 0, 0, 0⟩),
      ([0xF8C0, 0xF460, 0x3CA6], .vor ⟨5, 6, .reg 3, 0, 0, 0⟩),
      ([0xF8C0, 0xF460, 0x40A6], .vxor ⟨5, 6, .reg 3, 0, 0, 0⟩),
      ([0xF8C1, 0xF480, 0x44A6], .vshl ⟨5, 6, .reg 4, 0, 0, 1⟩)] = true := by decide +kernel
theorem test_decode_page3_b :
    reads [([0xF8C1, 0xF480, 0x48A6], .vshr ⟨5, 6, .reg 4, 0, 0, 1⟩),
      ([0xF8C5, 0xF460, 0x4D26], .vcmp ⟨9, 6, .reg 3, 0, 0, 5⟩),
      ([0xF8C5, 0xF5C0, 0x50A6], .vsel ⟨5, 6, .reg 14, 0, 0, 5⟩),
      ([0xF8D6, 0x54E6], .vrsum ⟨7, 6, .imm 0, 0, 2, 6⟩),
      ([0xF8C5, 0x58E6], .vrmax ⟨7, 6, .imm 0, 0, 0, 5⟩),
      ([0xF8C5, 0x5CE6], .vrmin ⟨7, 6, .imm 0, 0, 0, 5⟩),
      ([0xF8D0, 0xF003, 0x60A6], .vcvt ⟨5, 6, .imm 3, 0, 2, 0⟩),
      ([0xF8C5, 0x64A4], .vbcast ⟨5, 4, .imm 0, 0, 0, 5⟩),
      ([0xF8C5, 0xF460, 0x68A6], .vperm ⟨5, 6, .reg 3, 0, 0, 5⟩),
      ([0xF8C5, 0xF5A0, 0x6CE6], .vext ⟨7, 6, .reg 13, 0, 0, 5⟩),
      ([0xF8C5, 0xF5A0, 0x70A4], .vins ⟨5, 4, .reg 13, 0, 0, 5⟩),
      ([0xF8D6, 0xF460, 0x74A6], .vdiv ⟨5, 6, .reg 3, 0, 2, 6⟩),
      ([0xF8D6, 0x78A6], .vsqrt ⟨5, 6, .imm 0, 0, 2, 6⟩),
      ([0xF8C4, 0xF460, 0x7CE6], .vdota ⟨7, 6, .reg 3, 0, 0, 4⟩)] = true := by decide +kernel
theorem test_decode_page4_a :
    reads [([0xF900, 0x00E0], .mlease ⟨7, 0, .imm 0, 0, 0, 0⟩),
      ([0xF900, 0x0800, 0x0400, 0x0000, 0x0020, 0x0000, 0x0100, 0x0000, 0x0000, 0x0000], .mldw ⟨⟨0, 0, .imm 0, 0, 0, 0⟩, 0x400, 0x20, 0x100, 0x0⟩),
      ([0xF900, 0x0C00, 0x0400, 0x0000, 0x0040, 0x0040, 0x0101, 0x0100, 0x0002, 0x0000], .mmul ⟨⟨0, 0, .imm 0, 0, 0, 0⟩, 0x400, 0x400040, 0x1000101, 0x2⟩),
      ([0xF900, 0x1000, 0x0400, 0x0000, 0x0040, 0x0040, 0x0101, 0x0100, 0x0005, 0x0001], .mmuls ⟨⟨0, 0, .imm 0, 0, 0, 0⟩, 0x400, 0x400040, 0x1000101, 0x10005⟩),
      ([0xF910, 0x1400, 0x0800, 0x0000, 0x0F01, 0x0100, 0x0000, 0x0005, 0x0000, 0x0000], .mdrain ⟨⟨0, 0, .imm 0, 0, 2, 0⟩, 0x800, 0x1000f01, 0x50000, 0x0⟩),
      ([0xF900, 0x18E0], .mstatStatus ⟨7, 0, .imm 0, 0, 0, 0⟩),
      ([0xF900, 0xF001, 0x18E0], .mstatGovernor ⟨7, 0, .imm 1, 0, 0, 0⟩),
      ([0xF900, 0xF002, 0x18E0], .mstatCompleted ⟨7, 0, .imm 2, 0, 0, 0⟩),
      ([0xF900, 0xF103, 0x18E0], .mstatSegment ⟨7, 0, .imm 259, 0, 0, 0⟩),
      ([0xF905, 0x20E4], .accw ⟨7, 4, .imm 0, 0, 0, 5⟩),
      ([0xF915, 0x24E4], .accr ⟨7, 4, .imm 0, 0, 2, 5⟩),
      ([0xF900, 0x28E0], .accz ⟨7, 0, .imm 0, 0, 0, 0⟩),
      ([0xF900, 0x2CE4], .bfmt ⟨7, 4, .imm 0, 0, 0, 0⟩),
      ([0xF900, 0x30E4], .bfmtr ⟨7, 4, .imm 0, 0, 0, 0⟩),
      ([0xF900, 0x0400], .mrels),
      ([0xF900, 0x1C00], .mzero)] = true := by decide +kernel
theorem test_decode_page5_a :
    reads [([0xF940, 0x00E4, 0x0000, 0x0001, 0x0007, 0xF000, 0x0010, 0x0020, 0x0001, 0xC000], .launch ⟨⟨7, 4, .imm 0, 0, 0, 0⟩, 0x10000, 0xf0000007, 0x200010, 0xc0000001⟩),
      ([0xF940, 0xF5A0, 0x04E4], .spawn ⟨7, 4, .reg 13, 0, 0, 0⟩),
      ([0xF940, 0x0C00], .yieldSlot ⟨0, 0, .imm 0, 0, 0, 0⟩),
      ([0xF940, 0xF000, 0xF3E8, 0x0C00], .yieldTimed ⟨0, 0, .imm 1000, 0, 0, 0⟩),
      ([0xF940, 0x1004], .migr ⟨0, 4, .imm 0, 0, 0, 0⟩),
      ([0xF940, 0x1408], .tqpush ⟨0, 8, .imm 0, 0, 0, 0⟩),
      ([0xF940, 0x190B], .tqpop ⟨8, 11, .imm 0, 0, 0, 0⟩),
      ([0xF940, 0x1D0B], .tqsteal ⟨8, 11, .imm 0, 0, 0, 0⟩),
      ([0xF940, 0x20E4], .ccinitPhase ⟨7, 4, .imm 0, 0, 0, 0⟩),
      ([0xF940, 0xF003, 0x20E4], .ccinitJob ⟨7, 4, .imm 3, 0, 0, 0⟩),
      ([0xF940, 0xF5A0, 0x24E4], .ccadd ⟨7, 4, .reg 13, 0, 0, 0⟩),
      ([0xF940, 0x28E4], .ccwait ⟨7, 4, .imm 0, 0, 0, 0⟩),
      ([0xF940, 0x2C04], .ccan ⟨0, 4, .imm 0, 0, 0, 0⟩),
      ([0xF940, 0xF002, 0x30E4], .bsetRead ⟨7, 4, .imm 2, 0, 0, 0⟩),
      ([0xF940, 0xF006, 0x30E4], .bsetWrite ⟨7, 4, .imm 6, 0, 0, 0⟩),
      ([0xF940, 0xF5A0, 0x3400], .bar ⟨0, 0, .reg 13, 0, 0, 0⟩),
      ([0xF940, 0xF5A0, 0x38E0], .barw ⟨7, 0, .reg 13, 0, 0, 0⟩),
      ([0xF940, 0x3CE0, 0x0002, 0x0000, 0x0001, 0x8000, 0x0000, 0x0000, 0x0000, 0x0000], .graph ⟨⟨7, 0, .imm 0, 0, 0, 0⟩, 0x2, 0x80000001, 0x0, 0x0⟩)] = true := by decide +kernel
theorem test_decode_page5_b :
    reads [([0xF940, 0x0800], .exit)] = true := by decide +kernel
theorem test_decode_page6_a :
    reads [([0xF980, 0xF5A0, 0x0324], .pbind ⟨25, 4, .reg 13, 0, 0, 0⟩),
      ([0xF980, 0x0720], .punb ⟨25, 0, .imm 0, 0, 0, 0⟩),
      ([0xF980, 0xF600, 0x0958], .pput ⟨10, 24, .reg 16, 0, 0, 0⟩),
      ([0xF980, 0x0CD8], .pget ⟨6, 24, .imm 0, 0, 0, 0⟩),
      ([0xF980, 0xF460, 0x1158], .pputv ⟨10, 24, .reg 3, 0, 0, 0⟩),
      ([0xF980, 0xF5C0, 0x14B8], .pgetv ⟨5, 24, .reg 14, 0, 0, 0⟩),
      ([0xF980, 0xF600, 0x1958], .ptry ⟨10, 24, .reg 16, 0, 0, 0⟩),
      ([0xF980, 0x1D38], .pwdr ⟨9, 24, .imm 0, 0, 0, 0⟩),
      ([0xF980, 0xF5C0, 0x20E4], .cload ⟨7, 4, .reg 14, 0, 0, 0⟩),
      ([0xF980, 0x24E4], .cstart ⟨7, 4, .imm 0, 0, 0, 0⟩),
      ([0xF980, 0x2804], .cstopStop ⟨0, 4, .imm 0, 0, 0, 0⟩),
      ([0xF980, 0xF001, 0x2804], .cstopFree ⟨0, 4, .imm 1, 0, 0, 0⟩),
      ([0xF980, 0x2CE4], .cstatConnector ⟨7, 4, .imm 0, 0, 0, 0⟩),
      ([0xF980, 0xF000, 0xF201, 0x2CE4], .cstatRegion ⟨7, 4, .imm 513, 0, 0, 0⟩),
      ([0xF980, 0xF102, 0x2CE4], .cstatPort ⟨7, 4, .imm 258, 0, 0, 0⟩),
      ([0xF980, 0xF000, 0xF303, 0x2CE4], .cstatBinding ⟨7, 4, .imm 771, 0, 0, 0⟩),
      ([0xF980, 0x3324], .wmark ⟨25, 4, .imm 0, 0, 0, 0⟩),
      ([0xF980, 0x3724], .widle ⟨25, 4, .imm 0, 0, 0, 0⟩)] = true := by decide +kernel
theorem test_decode_page6_b :
    reads [([0xF980, 0x38E4], .wbind ⟨7, 4, .imm 0, 0, 0, 0⟩),
      ([0xF980, 0x3D00], .wnext ⟨8, 0, .imm 0, 0, 0, 0⟩),
      ([0xF980, 0x40EA], .wpub ⟨7, 10, .imm 0, 0, 0, 0⟩),
      ([0xF980, 0x44EA], .wamend ⟨7, 10, .imm 0, 0, 0, 0⟩),
      ([0xF980, 0x48E4], .wcloseDrain ⟨7, 4, .imm 0, 0, 0, 0⟩),
      ([0xF980, 0xF001, 0x48E4], .wcloseDiscard ⟨7, 4, .imm 1, 0, 0, 0⟩),
      ([0xF980, 0xF002, 0x48E4], .wcloseStatus ⟨7, 4, .imm 2, 0, 0, 0⟩),
      ([0xF980, 0xF003, 0x48E4], .wcloseWatermark ⟨7, 4, .imm 3, 0, 0, 0⟩)] = true := by decide +kernel
theorem test_decode_page7_a :
    reads [([0xF9C0, 0xF5A0, 0x00E4], .osend ⟨7, 4, .reg 13, 0, 0, 0⟩),
      ([0xF9C0, 0xF005, 0x04E4], .oqcfgRead ⟨7, 4, .imm 5, 0, 0, 0⟩),
      ([0xF9C0, 0xF001, 0xF005, 0x04E4], .oqcfgWrite ⟨7, 4, .imm 1029, 0, 0, 0⟩),
      ([0xF9C0, 0xF007, 0x08E0], .ostatQueue ⟨7, 0, .imm 7, 0, 0, 0⟩),
      ([0xF9C0, 0xF001, 0xF002, 0x08E0], .ostatPort ⟨7, 0, .imm 1026, 0, 0, 0⟩),
      ([0xF9C0, 0xF002, 0xF002, 0x08E0], .ostatRelay ⟨7, 0, .imm 2050, 0, 0, 0⟩),
      ([0xF9C0, 0xF085, 0x0CE4], .ocalRead ⟨7, 4, .imm 133, 0, 0, 0⟩),
      ([0xF9C0, 0xF006, 0xF080, 0x0CE4], .ocalWrite ⟨7, 4, .imm 6272, 0, 0, 0⟩),
      ([0xF9C0, 0x10E4], .owaitTime ⟨7, 4, .imm 0, 0, 0, 0⟩),
      ([0xF9C0, 0xF020, 0xF085, 0x10E4], .owaitSlot ⟨7, 4, .imm 32901, 0, 0, 0⟩),
      ([0xF9C0, 0xF5A0, 0x1400], .trap ⟨0, 0, .reg 13, 0, 0, 0⟩),
      ([0xF9C0, 0x1800], .tretReissue ⟨0, 0, .imm 0, 0, 0, 0⟩),
      ([0xF9C0, 0xF001, 0x1800], .tretSkip ⟨0, 0, .imm 1, 0, 0, 0⟩),
      ([0xF9C0, 0xF5A0, 0x20C0], .jrnl ⟨6, 0, .reg 13, 0, 0, 0⟩),
      ([0xF9C0, 0xF005, 0x24E4], .jrclFree ⟨7, 4, .imm 5, 0, 0, 0⟩),
      ([0xF9C0, 0xF045, 0x24E4], .jrclReplay ⟨7, 4, .imm 69, 0, 0, 0⟩),
      ([0xF9C0, 0xF085, 0x24E4], .jrclRedirect ⟨7, 4, .imm 133, 0, 0, 0⟩),
      ([0xF9C0, 0x2804], .plbiAddress ⟨0, 4, .imm 0, 0, 0, 0⟩)] = true := by decide +kernel
theorem test_decode_page7_b :
    reads [([0xF9C0, 0xF001, 0x2804], .plbiCore ⟨0, 4, .imm 1, 0, 0, 0⟩),
      ([0xF9C0, 0xF002, 0x2804], .plbiModule ⟨0, 4, .imm 2, 0, 0, 0⟩),
      ([0xF9C0, 0xF5C0, 0x2CE4], .ctxs ⟨7, 4, .reg 14, 0, 0, 0⟩),
      ([0xF9C0, 0xF5C0, 0x30E4], .ctxl ⟨7, 4, .reg 14, 0, 0, 0⟩),
      ([0xF9C0, 0x3404], .haltSelf ⟨0, 4, .imm 0, 0, 0, 0⟩),
      ([0xF9C0, 0xF001, 0x3404], .haltFence ⟨0, 4, .imm 1, 0, 0, 0⟩),
      ([0xF9C0, 0xF002, 0x3404], .haltUnfence ⟨0, 4, .imm 2, 0, 0, 0⟩),
      ([0xF9C0, 0x38E4], .domsw ⟨7, 4, .imm 0, 0, 0, 0⟩),
      ([0xF9C0, 0xF001, 0x3CE4], .waymRead ⟨7, 4, .imm 1, 0, 0, 0⟩),
      ([0xF9C0, 0xF040, 0xF001, 0x3CE4], .waymRequest ⟨7, 4, .imm 65537, 0, 0, 0⟩),
      ([0xF9C0, 0x40E4], .scrub ⟨7, 4, .imm 0, 0, 0, 0⟩),
      ([0xF9C0, 0x4404], .preemptReady ⟨0, 4, .imm 0, 0, 0, 0⟩),
      ([0xF9C0, 0xF001, 0x4404], .preemptHold ⟨0, 4, .imm 1, 0, 0, 0⟩),
      ([0xF9C0, 0xF002, 0x4404], .preemptRelease ⟨0, 4, .imm 2, 0, 0, 0⟩),
      ([0xF9C0, 0x1C00], .brk)] = true := by decide +kernel

/-- The worked words of R49, R52, R62 and the predicated form of R48. -/
theorem test_worked_words : reads [([0xF3F6, 0xF361, 0x38E0], .li (opI 7 (2 ^ 25 - 300000))), ([0xF01F, 0x38E8], .li (opI 7 1000)),
      ([0x6885], .ldhu (op 4 5 (.imm 0))), ([0xF001, 0x2888], .shli (opI 4 40)), ([0xA800], .nop)] = true ∧
    decIs (decode [0xFC68, 0xF856, 0xF4C0, 0x6885]) ⟨⟨3, false, true, false, false⟩, .fadd ⟨4, 5, .reg 6, 0, 2, 6⟩, 4⟩ = true := by decide +kernel
theorem test_refused_words : errOf (decode [0xF856, 0xFC68, 0x6885]) = some .chain ∧ errOf (decode [0xFC00, 0xF840, 0xF400, 0xF000, 0xF000, 0]) =
      some .chain ∧ errOf (decode [0xF800, 0]) = some .page ∧ errOf (decode [0xFA00, 0]) = some .page ∧ errOf (decode [0xCC00]) = some .unassigned ∧
    errOf (decode [0xFC01, 0]) = some .reserved ∧ errOf (decode [0xF840, 0xF001, 0x2C00]) = some .immediate ∧
    errOf (decode [0xF4C0, 0xF001, 0x7485]) = some .fieldZero ∧ errOf (decode [0x0382]) = some .operand := by decide +kernel
theorem test_table_words : decodeTableWord 16 0x0443 = some (.sub (op 2 3 (.imm 0))) ∧
    decodeTableWord 32 0xF8402C62 = some (.clz (op 3 2 (.imm 0))) ∧ decodeTableWord 16 0xCC00 = none := by decide +kernel

/-! ## One step -/

/-- g3 after an instruction with g1, g2 and its old value given, on core 0. -/
def gives (i : Instr) (a b : Nat) (v : DW) : Bool :=
  match exec i (wt (tg a b)) with
  | .next s => match s.thread 0 with
    | some t => t.gv 3 == v && t.isFull (.g 3) && t.pc == 0x10002
    | none => false
  | _ => false
/-- What is owed to g3, with the flags, after an instruction on core 0. -/
def owes (i : Instr) (a b : Nat) (v : Nat) (flags : BitVec 5) : Bool :=
  match exec i (wt (tg a b)) with
  | .next s => s.owed.any (fun o => o.writes == [(.g 3, BitVec.ofNat 512 v)] && o.flags == flags)
  | _ => false
/-- gd = g3, gs = g1, T = g2. -/
def o3 : Op := op 3 1 (.reg 2)
/-- The same with an element type and a rounding mode. -/
def o3f (et rnd : Nat) : Op := ⟨3, 1, .reg 2, 0, BitVec.ofNat 3 rnd, BitVec.ofNat 3 et⟩
/-- The two's complement of a number. -/
def neg (n : Nat) : Nat := 2 ^ 64 - n

theorem test_add_sub_wrap : gives (.add o3) (neg 1) 1 0 = true ∧ gives (.sub o3) 0 1 0xFFFFFFFFFFFFFFFF = true := by decide +kernel
theorem test_shifts : gives (.shl o3) 1 65 2 = true ∧ gives (.shr o3) (neg 1) 63 1 = true ∧ gives (.sar o3) (2 ^ 63) 63 0xFFFFFFFFFFFFFFFF = true ∧
    gives (.rol o3) (2 ^ 63) 1 1 = true ∧ gives (.ror o3) 1 1 0x8000000000000000 = true := by decide +kernel
theorem test_logic : gives (.and o3) 12 10 8 = true ∧ gives (.or o3) 12 10 14 = true ∧ gives (.xor o3) 12 10 6 = true ∧
    gives (.andn o3) 12 10 4 = true := by decide +kernel
theorem test_lea_scales : gives (.lea { o3 with scale := 3 }) 100 5 140 = true := by decide +kernel
theorem test_min_max : gives (.min o3) (neg 1) 1 0xFFFFFFFFFFFFFFFF = true ∧ gives (.minu o3) (neg 1) 1 1 = true ∧ gives (.max o3) (neg 1) 1 1 = true ∧
    gives (.maxu o3) (neg 1) 1 0xFFFFFFFFFFFFFFFF = true := by decide +kernel
theorem test_bit_counts : gives (.clz o3) 0 0 64 = true ∧ gives (.ctz o3) 0 0 64 = true ∧ gives (.clz o3) 1 0 63 = true ∧ gives (.popc o3) 0xFF 0 8 = true ∧
    gives (.brev o3) 1 0 0x8000000000000000 = true ∧ gives (.bswap o3) 0x0102030405060708 0 0x0807060504030201 = true := by decide +kernel
theorem test_fields : gives (.ext o3) 0xABCD (4 + 8 * 64) 0xBC = true ∧ gives (.ext o3) (neg 1) (60 + 127 * 64) 15 = true ∧
    gives (.ins o3) 0xFF (8 + 4 * 64) 0xF00 = true := by decide +kernel
theorem test_extensions : gives (.sxb o3) 0x80 0 0xFFFFFFFFFFFFFF80 = true ∧ gives (.zxh o3) 0x12345 0 0x2345 = true ∧
    gives (.sxw o3) 0x80000000 0 0xFFFFFFFF80000000 = true := by decide +kernel
/-- The cases that R63 works out. -/
theorem test_division : owes (.div o3) 7 2 3 0 = true ∧ owes (.rem o3) (neg 7) 2 (neg 1) 0 = true ∧ owes (.div o3) (neg 7) 2 (neg 3) 0 = true ∧
    owes (.div o3) 7 0 (neg 1) 0 = true ∧ owes (.remu o3) 7 0 7 0 = true ∧ owes (.div o3) (2 ^ 63) (neg 1) (2 ^ 63) 0 = true ∧
    owes (.rem o3) (2 ^ 63) (neg 1) 0 0 = true := by decide +kernel
theorem test_multiply : owes (.mulh o3) (neg 1) 2 (neg 1) 0 = true ∧ owes (.mulhu o3) (neg 1) 2 1 0 = true ∧ owes (.mul o3) (neg 1) 2 (neg 2) 0 = true := by decide +kernel
/-- FP32: 1.0 + 2.0 = 3.0; 1 / 0 is an infinity and sets DZ; the largest FP32 number doubled toward zero stays, and sets OF and NX. -/
theorem test_floating_point : owes (.fadd (o3f 6 1)) 0x3F800000 0x40000000 0x40400000 0 = true ∧
    owes (.fdiv (o3f 6 1)) 0x3F800000 0 0x7F800000 0x08 = true ∧ owes (.fadd (o3f 6 2)) 0x7F7FFFFF 0x7F7FFFFF 0x7F7FFFFF 0x05 = true := by
  decide +kernel
/-- The value of a predicate after an instruction. -/
def setsP (i : Instr) (a b n : Nat) (v : Bool) : Bool :=
  match exec i (wt (tg a b)) with
  | .next s => match s.thread 0 with
    | some t => t.pv n == v && t.isFull (.p n)
    | none => false
  | _ => false
theorem test_compares : setsP (.cmplt (op 5 1 (.reg 2))) (neg 1) 1 5 true = true ∧ setsP (.cmpltu (op 5 1 (.reg 2))) (neg 1) 1 5 false = true ∧
    setsP (.cmpge (op 5 1 (.reg 2))) 1 1 5 true = true ∧ setsP (.cmpeq (op 0 1 (.reg 2))) 1 2 0 true = true := by decide +kernel
/-- The pc after an instruction. -/
def goesTo (i : Instr) (a b : Nat) (pc : Addr) : Bool :=
  match exec i (wt (tg a b)) with
  | .next s => match s.thread 0 with
    | some t => t.pc == pc
    | none => false
  | _ => false
theorem test_branches : goesTo (.br (opI 0 (2 ^ 25 - 8))) 0 0 0xFFF0 = true ∧ goesTo (.brp (opI 0 8)) 0 0 0x10010 = true ∧
    goesTo (.brn (opI 0 8)) 0 0 0x10002 = true ∧ goesTo (.jmp (op 0 1 (.imm 5))) 0x2000 0 0x2004 = true := by decide +kernel
/-- A store of a halfword enters the store buffer with the value's low 16 bits. -/
def stores (i : Instr) (b va n v : Nat) : Bool :=
  match exec i (wt (tg 0 b)) with
  | .next s => match (s.core 0).sbuf with
    | [e] => e.pieces.map (fun x => (x.va, x.loc, x.n, x.data.toNat % 256 ^ x.n)) == [(va, va, n, v)]
    | _ => false
  | _ => false
theorem test_store : stores (.sth (op 2 1 (.imm 0x400))) 0x12345 0x400 2 0x2345 = true := by decide +kernel
/-- TRAP enters the handler with its cause and the instruction's own address. -/
theorem test_trap : (match exec (.trap (op 0 0 (.imm 0x12))) (wTrap t0 0x20000) with
    | .next s => match s.thread 0 with
      | some t => t.pc == 0x20000 && t.trappc == 0x10000 && t.thsBit 12
      | none => false
    | _ => false) = true := by decide +kernel
/-- A compute core may not scrub. -/
theorem test_privileged : (match exec (.scrub (op 3 1 (.imm 0))) (wTrap t0 0x20000) with
    | .next s => match s.thread 0 with
      | some t => t.trapcause == BitVec.ofNat 16 causeILLEGAL
      | none => false
    | _ => false) = true := by decide +kernel
/-- The placed instruction is the next step's. -/
theorem test_fetch_word : (match step (State.reset.withFetchWord 32 0xF8402C62) with
    | .next s => match s.thread 0 with
      | some t => t.gv 3 == 64 && t.pc == 0x10004
      | none => false
    | _ => false) = true := by decide +kernel

end Sys2Proof.Tests
end

section
/-! PROOFS. The special registers (04_scalar R70, R71; 02_machine_state R28 to R32): what MOVS reads and what MOVSW writes. -/

namespace Sys2Proof.Machine

open Claims

variable {s : State} {t : Thread}

/-! ## How an instruction ends -/

/-- An instruction that executes and whose meaning stops goes on to the state after its stop. -/
theorem Executes.stop {svc always : Bool} {srcs : List Src} {dsts : List Dst} (h : Executes s t svc srcs dsts)
    {body : Cx → State → Res State} {e : Halt} (hb : body (s.cx t) (s.taken t srcs) = .error e) :
    s.runIn svc always srcs dsts body = .next (s.stopped s.cur t e) := by
  rw [h.toIssues.runIn (by simp [h.on])]; simp [hb]

/-- A meaning that traps takes the exact trap from the state as the instruction found it (R5). -/
theorem Executes.run_trap {srcs : List Src} {dsts : List Dst} (h : Executes s t false srcs dsts)
    {body : Cx → State → Res State} {cause a : Nat} (hb : body (s.cx t) (s.taken t srcs) = trapWith cause a) :
    s.run srcs dsts body = .next (s.takeTrap s.cur cause a 0) := h.stop hb

/-- A meaning that parks parks the thread in the state as the instruction found it (R36). -/
theorem Executes.run_park {srcs : List Src} {dsts : List Dst} (h : Executes s t false srcs dsts)
    {body : Cx → State → Res State} {p : Park} (hb : body (s.cx t) (s.taken t srcs) = parkOn p) :
    s.run srcs dsts body = .next (s.parkThread s.cur p p.limited) := h.stop hb

/-! ## The state as an instruction has taken its sources -/

/-- With no source to take, only the thread's pc has moved on. -/
theorem State.taken_nil (s : State) (t : Thread) : s.taken t [] = s.modT s.cur (fun x => { x with pc := s.npc t }) := rfl

/-- A g register is read and stays as it is (R24). -/
theorem State.taken_g {n idx : Nat} {tie : Bool} (h : n < 24) : s.taken t [.x n idx tie] = s.taken t [] := by
  simp [State.taken, State.issued, consume, h]

/-- A change of a thread changes no core. -/
@[simp] theorem State.core_modT (s : State) (k c : Key) (f : Thread → Thread) : (s.modT k f).core c = s.core c := by
  simp [State.core]

/-- A change of a core changes no thread. -/
@[simp] theorem State.thread_modCore (s : State) (c k : Key) (f : Core → Core) : (s.modCore c f).thread k = s.thread k := rfl

/-! ## Reading (R28, R70, R71) -/

/-- The numbers up to 18 read as R28's table says, and no number above them names a special register. -/
theorem State.special_eq (s : State) (t : Thread) (n : Nat) :
    s.special s.cur t n = if n ≤ 18 then some (specialValue s t n) else none :=
  match n with
  | 0 | 1 | 2 | 3 | 4 | 5 | 6 | 7 | 8 | 9 | 10 | 11 | 12 | 13 | 14 | 15 | 16 | 17 | 18 => rfl
  | _ + 19 => (if_neg (by omega)).symm

theorem State.special_eq_some {n : Nat} (h : n ≤ 18) : s.special s.cur t n = some (specialValue s t n) := by
  rw [State.special_eq, if_pos h]

theorem State.special_eq_none {n : Nat} (h : 18 < n) : s.special s.cur t n = none := by
  rw [State.special_eq, if_neg (by omega)]

/-- Nothing holds back an access unless it is to FMODE while flags are owed. -/
theorem Cx.specialWait_ok {n : Nat} (h : n = 4 → flagsOwed s = false) : (s.cx t).specialWait n = .ok () := by
  by_cases hn : n = 4
  · have hf : s.owed.any (fun o => o.k == s.cur && o.fp) = false := h hn
    simp [Cx.specialWait, hf]
  · simp [Cx.specialWait, hn]

/-- An access to FMODE waits for the flags that are owed (R71). -/
theorem Cx.specialWait_owed (h : flagsOwed s = true) : (s.cx t).specialWait 4 = parkOn .owedFlags := by
  have hf : s.owed.any (fun o => o.k == s.cur && o.fp) = true := h
  simp [Cx.specialWait, hf]

section
variable {o : OpI}

/-- MOVS of an assigned number gives gd the register's value. -/
theorem execMovs_reads (h : Executes s t false [] [.x o.d.toNat]) (hd : o.d.toNat < 24) (hn : o.imm.toNat ≤ 18)
    (hw : o.imm.toNat = 4 → flagsOwed s = false) :
    execMovs o s = .next (s.after t [] (fun x => x.setG o.d.toNat (specialValue s t o.imm.toNat))) :=
  h.run (by simp [State.special_eq_some hn, Cx.specialWait_ok hw, hd, State.after, bind, Except.bind])

/-- MOVS of FMODE waits for the flags that are owed (R71). -/
theorem execMovs_parks (h : Executes s t false [] [.x o.d.toNat]) (hn : o.imm.toNat = 4) (hw : flagsOwed s = true) :
    execMovs o s = .next (s.parkThread s.cur .owedFlags false) :=
  h.run_park (by simp [hn, State.special_eq_some, Cx.specialWait_owed hw, parkOn, bind, Except.bind])

/-- MOVS of a number that no rule assigns takes an exact ILLEGAL trap (R28). -/
theorem execMovs_traps (h : Executes s t false [] [.x o.d.toNat]) (hn : 18 < o.imm.toNat) :
    execMovs o s = .next (s.takeTrap s.cur causeILLEGAL 0 0) :=
  h.run_trap (by simp [State.special_eq_none hn])

end

/-! ## The fields of FMODE and QMAP as they are written (R31, R32) -/

/-- Words that agree in a field of one bit agree in that bit. -/
theorem getLsbD_eq_of_bits_eq {m n i : Nat} {x : BitVec m} {y : BitVec n} (h : bits x.toNat i i = bits y.toNat i i) :
    x.getLsbD i = y.getLsbD i := by
  have hwidth : i + 1 - i = 1 := by omega
  simp only [bits, hwidth, Nat.pow_one] at h
  simp only [BitVec.getLsbD, Nat.testBit_eq_decide_div_mod_eq, h]

/-- RM as MOVSW stores it: a reserved mode stores RNE. -/
def storedRm (v : DW) : Nat := if 1 ≤ bits v.toNat 7 5 ∧ bits v.toNat 7 5 ≤ 5 then bits v.toNat 7 5 else 1

theorem storedRm_lt (v : DW) : storedRm v < 8 := by
  unfold storedRm
  split <;> omega

/-- FMODE is laid out as SATF8, RM and the flags. -/
theorem fmodeFrom_toNat (v : DW) :
    (fmodeFrom v).toNat = bits v.toNat 8 8 * 256 + storedRm v * 32 + bits v.toNat 4 0 := by
  have hrm : (if bits v.toNat 7 5 = 0 ∨ 5 < bits v.toNat 7 5 then 1 else bits v.toNat 7 5) = storedRm v := by
    unfold storedRm
    split <;> split <;> omega
  have hr := storedRm_lt v
  have hs : bits v.toNat 8 8 < 2 := Nat.mod_lt _ (by decide)
  have hf : bits v.toNat 4 0 < 32 := Nat.mod_lt _ (by decide)
  simp only [fmodeFrom, hrm, BitVec.toNat_ofNat]
  omega

/-- The fields of a word laid out so are its parts, and the bits above them are 0. -/
theorem bits_fmodeLayout {sat rm fl : Nat} (hs : sat < 2) (hr : rm < 8) (hf : fl < 32) :
    bits (sat * 256 + rm * 32 + fl) 31 9 = 0 ∧ bits (sat * 256 + rm * 32 + fl) 8 8 = sat ∧
      bits (sat * 256 + rm * 32 + fl) 4 0 = fl ∧ bits (sat * 256 + rm * 32 + fl) 7 5 = rm := by
  unfold bits
  refine ⟨?_, ?_, ?_, ?_⟩ <;> omega

/-- The number with digits f 0, f 1, … f (n - 1) in base 16, the lowest first. -/
def hexSum (f : Nat → Nat) (n : Nat) : Nat := (List.range n).foldr (fun i acc => f i * 16 ^ i + acc) 0

theorem hexSum_succ (f : Nat → Nat) (n : Nat) : hexSum f (n + 1) = hexSum f n + f n * 16 ^ n := by
  have hsum (n : Nat) : hexSum f n = ((List.range n).map (fun i => f i * 16 ^ i)).sum := by
    simp [hexSum, List.sum, List.foldr_map]
  simp [hsum, List.range_succ]

theorem hexSum_lt {f : Nat → Nat} (hf : ∀ i, f i < 16) (n : Nat) : hexSum f n < 16 ^ n := by
  induction n with
  | zero => simp [hexSum]
  | succ n ih =>
    have hn : f n * 16 ^ n ≤ 15 * 16 ^ n := Nat.mul_le_mul_right _ (by have := hf n; omega)
    rw [hexSum_succ, Nat.pow_succ]
    omega

/-- Each digit can be read back. -/
theorem hexSum_digit {f : Nat → Nat} (hf : ∀ i, f i < 16) {n i : Nat} (hi : i < n) : hexSum f n / 16 ^ i % 16 = f i := by
  induction n with
  | zero => omega
  | succ n ih =>
    rw [hexSum_succ]
    obtain hlt | rfl := Nat.lt_succ_iff_lt_or_eq.mp hi
    · obtain ⟨m, rfl⟩ := Nat.exists_eq_add_of_lt hlt
      have hsplit : f (i + m + 1) * 16 ^ (i + m + 1) = f (i + m + 1) * 16 ^ m * 16 * 16 ^ i := by
        rw [Nat.pow_succ, Nat.pow_add]; ac_rfl
      rw [hsplit, Nat.add_mul_div_right _ _ (Nat.pow_pos (by decide)), Nat.add_mul_mod_self_right, ih hlt]
    · rw [Nat.add_mul_div_right _ _ (Nat.pow_pos (by decide)), Nat.div_eq_of_lt (hexSum_lt hf i), Nat.zero_add,
        Nat.mod_eq_of_lt (hf i)]

/-- The code of QMAP's field i as MOVSW stores it: a code above 4 stores 0. -/
def storedCode (v : DW) (i : Nat) : Nat := if bits v.toNat (4 * i + 3) (4 * i) ≤ 4 then bits v.toNat (4 * i + 3) (4 * i) else 0

theorem storedCode_lt (v : DW) (i : Nat) : storedCode v i < 16 := by
  unfold storedCode
  split <;> omega

/-- QMAP's fields are the digits of the value stored. -/
theorem qmapFrom_toNat (v : DW) : (qmapFrom v).toNat = hexSum (storedCode v) 12 := by
  have hcode (i : Nat) : (if 4 < bits v.toNat (4 * i + 3) (4 * i) then 0 else bits v.toNat (4 * i + 3) (4 * i)) = storedCode v i := by
    unfold storedCode
    split <;> split <;> omega
  have hlt : hexSum (storedCode v) 12 < 2 ^ 48 := hexSum_lt (storedCode_lt v) 12
  simp only [qmapFrom, hcode, BitVec.toNat_ofNat]
  exact Nat.mod_eq_of_lt hlt

/-- Each field of QMAP reads as the code stored in it. -/
theorem bits_qmapFrom (v : DW) {i : Nat} (hi : i < 12) : bits (qmapFrom v).toNat (4 * i + 3) (4 * i) = storedCode v i := by
  have hpow : 2 ^ (4 * i) = 16 ^ i := by rw [Nat.pow_mul]
  have hwidth : 4 * i + 3 + 1 - 4 * i = 4 := by omega
  rw [qmapFrom_toNat, bits, hpow, hwidth]
  exact hexSum_digit (storedCode_lt v) hi

/-! ## Writing (R2, R28 to R32, R70, R207) -/

/-- FMODE as R31 gives it. -/
theorem writesThread_fmode (v : DW) (x : Thread) : writesThread 4 v x { x with fmode := fmodeFrom v } := by
  obtain ⟨hres, hsat, hfl, hrm⟩ := bits_fmodeLayout (sat := bits v.toNat 8 8) (fl := bits v.toNat 4 0)
    (Nat.mod_lt _ (by decide)) (storedRm_lt v) (Nat.mod_lt _ (by decide))
  rw [← fmodeFrom_toNat] at hres hsat hfl hrm
  exact ⟨rfl, hres, getLsbD_eq_of_bits_eq hsat, hfl, hrm⟩

/-- QMAP as R32 gives it. -/
theorem writesThread_qmap (v : DW) (x : Thread) : writesThread 15 v x { x with qmap := qmapFrom v } :=
  ⟨rfl, fun _ hi => bits_qmapFrom v hi⟩

/-- THS as R29 gives it. -/
theorem writesThread_ths (v : DW) (x : Thread) : writesThread 0 v x (x.writeThs v) := by
  cases hv : v.getLsbD 11 <;> simp only [writesThread, Thread.writeThs, thsVLIVE, hv] <;> exact ⟨rfl, rfl⟩

/-- What a write of a special register changes: its thread, its core, or, for one that is only read, nothing (R2, R28). -/
theorem State.putSpecial_cases (s : State) (k : Key) (n : Nat) (v : DW) :
    (∃ f, s.putSpecial k n v = s.modT k f ∧ (∀ x, writesThread n v x (f x)) ∧ ∀ c, writesCore n v c = c) ∨
    (s.putSpecial k n v = s.modCore (coreOf k) (writesCore n v) ∧ ∀ x, writesThread n v x x) ∨
    (s.putSpecial k n v = s ∧ (∀ x, writesThread n v x x) ∧ ∀ c, writesCore n v c = c) := by
  match n with
  | 0 => exact .inl ⟨_, rfl, writesThread_ths v, fun _ => rfl⟩
  | 4 => exact .inl ⟨_, rfl, writesThread_fmode v, fun _ => rfl⟩
  | 15 => exact .inl ⟨_, rfl, writesThread_qmap v, fun _ => rfl⟩
  | 3 | 5 | 6 | 11 | 12 | 13 | 14 | 16 => exact .inl ⟨_, rfl, fun _ => rfl, fun _ => rfl⟩
  | 17 | 18 => exact .inr (.inl ⟨rfl, fun _ => rfl⟩)
  | 1 | 2 | 7 | 8 | 9 | 10 | _ + 19 => exact .inr (.inr ⟨rfl, fun _ => rfl, fun _ => rfl⟩)

/-- A write of a special register leaves memory, owed results, requests and every other slot's thread as they were. -/
theorem State.putSpecial_frame (s : State) (k : Key) (n : Nat) (v : DW) :
    (s.putSpecial k n v).mem = s.mem ∧ (s.putSpecial k n v).owed = s.owed ∧ (s.putSpecial k n v).reqs = s.reqs ∧
      ∀ j, j ≠ k → (s.putSpecial k n v).thread j = s.thread j := by
  obtain ⟨f, h, -, -⟩ | ⟨h, -⟩ | ⟨h, -, -⟩ := s.putSpecial_cases k n v
  · simp only [h, State.modT_mem, State.modT_owed, State.modT_reqs, true_and]
    exact fun j hj => s.thread_modT_ne f hj
  · simp [h]
  · simp [h]

/-- It changes its core as R28 says. -/
theorem State.putSpecial_core (s : State) (k : Key) (n : Nat) (v : DW) :
    (s.putSpecial k n v).core (coreOf k) = writesCore n v (s.core (coreOf k)) := by
  obtain ⟨f, h, -, hc⟩ | ⟨h, -⟩ | ⟨h, -, hc⟩ := s.putSpecial_cases k n v
  · simp [h, hc]
  · simp [h]
  · simp [h, hc]

/-- It changes its thread as R28 to R32 say. -/
theorem State.putSpecial_thread {k : Key} {x : Thread} (h : s.thread k = some x) (n : Nat) (v : DW) :
    ∃ x', (s.putSpecial k n v).thread k = some x' ∧ writesThread n v x x' := by
  obtain ⟨f, hs, hf, -⟩ | ⟨hs, hx⟩ | ⟨hs, hx, -⟩ := s.putSpecial_cases k n v
  · exact ⟨f x, by simp [hs, h], hf x⟩
  · exact ⟨x, by simp [hs, h], hx x⟩
  · exact ⟨x, by simp [hs, h], hx x⟩

section
variable {o : OpI}

/-- MOVSW of a register that it may write now writes gd's value to it. -/
theorem execMovsw_writes (h : Executes s t false [.x o.d.toNat 2 s.q.td] []) (hd : o.d.toNat < 24) (hn : o.imm.toNat ≤ 18)
    (hdom : o.imm.toNat = 3 → isService (coreOf s.cur) = true) (hw : o.imm.toNat = 4 → flagsOwed s = false)
    (hv : o.imm.toNat = 0 → (t.gv o.d.toNat).getLsbD 11 = false → t.owesV = false) :
    execMovsw o s = .next ((s.taken t []).putSpecial s.cur o.imm.toNat (t.gv o.d.toNat)) := by
  refine h.run ?_
  have hok : (decide (18 < o.imm.toNat) || (decide (o.imm.toNat = 3) && !isService (coreOf s.cur))) = false := by
    by_cases h3 : o.imm.toNat = 3
    · rw [hdom h3, decide_eq_false (by omega), Bool.not_true, Bool.and_false, Bool.false_or]
    · rw [decide_eq_false h3, decide_eq_false (by omega), Bool.false_and, Bool.false_or]
  have hlive : (decide (o.imm.toNat = 0) && !(t.gv o.d.toNat).getLsbD thsVLIVE && t.owesV) = false := by
    by_cases h0 : o.imm.toNat = 0
    · cases hb : (t.gv o.d.toNat).getLsbD thsVLIVE
      · rw [hv h0 hb, Bool.and_false]
      · rw [Bool.not_true, Bool.and_false, Bool.false_and]
    · rw [decide_eq_false h0, Bool.false_and, Bool.false_and]
  have hget : (s.cx t).get o.d.toNat 0 = t.gv o.d.toNat := by simp [Cx.get, hd]
  simp [hget, hok, hlive, Cx.specialWait_ok hw, State.taken_g hd, bind, Except.bind, pure, Except.pure]

/-- A number that no rule assigns, and DOMAIN on a compute core, take an exact ILLEGAL trap (R2, R28). -/
theorem execMovsw_traps (h : Executes s t false [.x o.d.toNat 2 s.q.td] [])
    (hn : 18 < o.imm.toNat ∨ (o.imm.toNat = 3 ∧ isService (coreOf s.cur) = false)) :
    execMovsw o s = .next (s.takeTrap s.cur causeILLEGAL 0 0) := by
  refine h.run_trap ?_
  rcases hn with hn | ⟨h3, hc⟩
  · simp [hn]
  · simp [h3, hc]

end

end Sys2Proof.Machine

namespace Sys2Proof.Machine

open Claims

/-- Settles O8: MOVS reads R28's table, and MOVSW writes it, by the lemmas about `State.special` and `State.putSpecial`. -/
theorem specialRegistersAreReadAndWritten : Obligations.SpecialRegistersAreReadAndWritten := by
  unfold Obligations.SpecialRegistersAreReadAndWritten
  refine ⟨fun o s t h hd => ⟨execMovs_reads h hd, execMovs_parks h, execMovs_traps h⟩,
    fun o s t h hd => ⟨fun hn hdom hw hv => ?_, execMovsw_traps h⟩⟩
  have hslot : (s.taken t []).thread s.cur = some { t with pc := s.npc t } := by simp [State.taken_nil, h.slot]
  obtain ⟨t', hthread, hwrites⟩ := State.putSpecial_thread hslot o.imm.toNat (t.gv o.d.toNat)
  obtain ⟨hmem, howed, hreqs, hother⟩ := (s.taken t []).putSpecial_frame s.cur o.imm.toNat (t.gv o.d.toNat)
  have hcore : (s.taken t []).core (coreOf s.cur) = s.core (coreOf s.cur) := s.core_modT ..
  exact ⟨_, t', execMovsw_writes h hd hn hdom hw hv, hthread, hwrites, by rw [State.putSpecial_core, hcore],
    hmem.trans (s.modT_mem ..), howed.trans (s.modT_owed ..), hreqs.trans (s.modT_reqs ..),
    fun k hk => (hother k hk).trans (s.thread_modT_ne _ hk)⟩

end Sys2Proof.Machine
end

section
/-! PROOFS. The Plank's commands (12_plank R220 to R222, R224, R226 to R229; 01_device R18): held at issue, accepted, started by the
governor. -/

namespace Sys2Proof.Machine

open Claims

variable {s : State} {t : Thread}

/-! ## Events due -/

/-- An entry added to a timer list stands in it. -/
theorem mem_addTimer_self (l : List (Nat × Ev)) (c : Nat) (e : Ev) : (c, e) ∈ addTimer l c e := by
  induction l with
  | nil => exact List.mem_singleton_self _
  | cons x l ih =>
    rw [addTimer]
    split
    · exact List.mem_cons_self
    · exact List.mem_cons_of_mem _ ih

/-- An event put off to a cycle is among the timers. -/
theorem State.mem_timers_at (s : State) (c : Nat) (i : Instr) (a : Arg) : (c, ⟨i, a⟩) ∈ (s.at c i a).timers :=
  mem_addTimer_self ..

/-- `pushOnce` leaves its event due: it was due already, or is from now on. -/
theorem State.isDue_pushOnce (s : State) (i : Instr) (a : Arg) : isDue (s.pushOnce i a) ⟨i, a⟩ := by
  unfold State.pushOnce
  split
  case isTrue h =>
    simp only [Bool.or_eq_true, List.contains_iff_mem, List.any_eq_true, beq_iff_eq] at h
    obtain h | ⟨⟨c, e⟩, hm, rfl⟩ := h
    · exact .inl h
    · exact .inr ⟨c, hm⟩
  case isFalse => exact .inl (by simp [State.push])

/-! ## A group's Plank -/

/-- What a key of a table holds is one of its entries. -/
theorem mem_of_mget {α : Type} {m : Map α} {k : Nat} {v : α} (h : mget m k = some v) : (k, v) ∈ m := by
  induction m with
  | nil => cases h
  | cons e m ih =>
    obtain ⟨k', v'⟩ := e
    by_cases hk : k' = k
    · subst hk; simp [mget] at h; simp [h]
    · exact List.mem_cons_of_mem _ (ih (by simpa [mget, hk] using h))

@[simp] theorem State.group_modPlank_self (s : State) (g : Key) (f : Plank → Plank) :
    (s.modPlank g f).group g = { s.group g with plank := f (s.group g).plank } := by simp [State.modPlank]

theorem State.group_modPlank_ne (s : State) {g h : Key} (f : Plank → Plank) (e : h ≠ g) : (s.modPlank g f).group h = s.group h :=
  s.group_modGroup_ne _ e

@[simp] theorem State.group_modT (s : State) (k : Key) (g : Key) (f : Thread → Thread) : (s.modT k f).group g = s.group g := by
  simp [State.group]

@[simp] theorem State.group_pushOnce (s : State) (i : Instr) (a : Arg) (g : Key) : (s.pushOnce i a).group g = s.group g := by
  simp [State.group]

@[simp] theorem State.group_at (s : State) (c : Nat) (i : Instr) (a : Arg) (g : Key) : (s.at c i a).group g = s.group g := rfl

@[simp] theorem State.group_dropOwned (s : State) (o : Own) (g : Key) : (s.dropOwned o).group g = s.group g := rfl

@[simp] theorem State.dropOwned_io (s : State) (o : Own) : (s.dropOwned o).io = s.io := rfl
@[simp] theorem State.dropOwned_mem (s : State) (o : Own) : (s.dropOwned o).mem = s.mem := rfl

/-- A Plank's own fields do not decide whether it may start a command. -/
@[simp] theorem State.plankFree_modPlank (s : State) (g : Key) (f : Plank → Plank) : (s.modPlank g f).plankFree g = s.plankFree g := by
  simp [State.plankFree, State.switching]

/-! ## Commands at issue (R220, R226 to R229) -/

/-- A slot that has not asked for the lease gets NOLEASE (R220). -/
theorem Cx.plankReady_noLease (h : t.lease = .none) : (s.cx t).plankReady = trapWith causeNOLEASE 0 := by
  simp [Cx.plankReady, h, trapWith, bind, Except.bind]

/-- What `PlankReady` says lets a command go on to its fields. -/
theorem Cx.plankReady_ok (h : PlankReady s t) : (s.cx t).plankReady = .ok () := by
  obtain ⟨hasked, hkept, hready⟩ := h
  simp [Cx.plankReady, Cx.afterAcquire, hasked, hkept, hready]

/-- A Plank command that executes without a lease asked for traps, whatever its fields hold (log 21). -/
theorem Executes.run_noLease {srcs : List Src} (h : Executes s t false srcs []) (hl : t.lease = .none) (body : Cx → State → Res State) :
    s.run srcs [] (fun c s => do c.plankReady; body c s) = .next (s.takeTrap s.cur causeNOLEASE 0 0) :=
  h.run_trap (by rw [Cx.plankReady_noLease hl]; rfl)

/-- A Plank command that may be held for acceptance does what its fields say. -/
theorem Executes.run_plank {srcs : List Src} (h : Executes s t false srcs []) (hr : PlankReady s t) {body : Cx → State → Res State}
    {s' : State} (hb : body (s.cx t) (s.taken t srcs) = .ok s') :
    s.run srcs [] (fun c s => do c.plankReady; body c s) = .next s' :=
  h.run (by rw [Cx.plankReady_ok hr]; exact hb)

/-- A limit that is kept stops nothing. -/
theorem require_ok {b : Bool} (h : b = true) : require b = .ok () := if_pos h

/-- The address field of a command that pops its address is 0 (R227, R228). -/
theorem popped_addr_zero {b : Bool} {n : Nat} (h : b = true → n = 0) : (!(b && n != 0)) = true := by
  cases b
  · rfl
  · simp [h rfl]

/-- MLDW with its fields in range holds its thread, its source's PLB entry used (R226, R344). -/
theorem execMldw_holds {o : OpP} (h : Executes s t false (blockSrcs .mldw o) []) (hr : PlankReady s t) {src len woff : Nat}
    (hsrc : (s.cx t).field .mldw o 0 % 2 ^ 56 = src) (hlen : (s.cx t).field .mldw o 1 = len) (hwoff : (s.cx t).field .mldw o 2 = woff)
    {r : Range} (hc : s.checks s.cur t src len 1 .rd = .ok r) (hpos : 0 < len) (hdvd : len % 32 = 0)
    (hfit : 32 * woff + len ≤ 0x200000) (hal : src % 32 = 0) :
    execMldw o s = holdsPlank s t ((s.taken t (blockSrcs .mldw o)).usePlb (coreOf s.cur) t.domN src len) (.ldw src len woff) false := by
  refine h.run_plank hr ?_
  have hb : (len != 0 && len % 32 == 0 && decide (32 * woff + len ≤ 0x200000) && src % 32 == 0) = true := by
    simp only [Bool.and_eq_true, bne_iff_ne, beq_iff_eq, decide_eq_true_eq]
    exact ⟨⟨⟨by omega, hdvd⟩, hfit⟩, hal⟩
  simp only [hsrc, hlen, hwoff, State.cx_k, State.cx_t, State.cx_s, hc, require_ok hb]
  simp [Nat.pos_iff_ne_zero.mp hpos, bind, Except.bind, pure, Except.pure, State.holdPlank]

/-- A multiply command with its fields in range holds its thread (R227); with bit 1 of FLAGS its address is to be popped (R224). -/
theorem multiply_holds {m : Mnem} {o : OpP} {sparse : Bool} (h : Executes s t false (blockSrcs m o) []) (hr : PlankReady s t) :
    let f := (s.cx t).field m o
    let rows := bits (f 3) 15 8
    let cols := bits (f 3) 7 0
    64 ≤ f 4 → f 4 % 64 = 0 → 1 ≤ rows → rows ≤ 64 → 1 ≤ cols → cols ≤ 64 → f 6 < 4 → (bit (f 6) 1 = true → f 0 = 0) →
    s.multiply m o sparse = holdsPlank s t (s.taken t (blockSrcs m o))
      (.mul sparse (bit (f 6) 0) (f 0 % 2 ^ 56) (f 2) (f 1) (f 4) rows cols (f 5)) (bit (f 6) 1) := by
  intro f rows cols hk hkd hr1 hr64 hc1 hc64 hfl hqa
  refine h.run_plank hr ?_
  have hb : (decide (64 ≤ f 4) && f 4 % 64 == 0 && decide (1 ≤ rows) && decide (rows ≤ 64) && decide (1 ≤ cols) && decide (cols ≤ 64) &&
      !(bit (f 6) 1 && f 0 != 0) && decide (f 6 < 4)) = true := by
    simp only [Bool.and_eq_true, beq_iff_eq, decide_eq_true_eq]
    exact ⟨⟨⟨⟨⟨⟨⟨hk, hkd⟩, hr1⟩, hr64⟩, hc1⟩, hc64⟩, popped_addr_zero hqa⟩, hfl⟩
  show (do require _; pure _) = _
  rw [require_ok hb]; rfl

/-- MDRAIN with its fields in range holds its thread (R228); with bit 2 of MODE its address is to be popped (R224). -/
theorem execMdrain_holds {o : OpP} (h : Executes s t false (blockSrcs .mdrain o) []) (hr : PlankReady s t) :
    let f := (s.cx t).field .mdrain o
    let rows := bits (f 1) 15 8
    let cols := bits (f 1) 7 0
    1 ≤ rows → rows ≤ 64 → 1 ≤ cols → cols ≤ 64 → f 4 < 8 → (bit (f 4) 2 = true → f 0 = 0) →
    execMdrain o s = holdsPlank s t (s.taken t (blockSrcs .mdrain o)) (.drain (f 0 % 2 ^ 56) (f 2) rows cols
      (if o.o.rnd = 0 then 1 else o.o.rnd.toNat) (bit (f 4) 0) (bit (f 4) 1)) (bit (f 4) 2) := by
  intro f rows cols hr1 hr64 hc1 hc64 hfl hqd
  refine h.run_plank hr ?_
  have hb : (decide (1 ≤ rows) && decide (rows ≤ 64) && decide (1 ≤ cols) && decide (cols ≤ 64) && !(bit (f 4) 2 && f 0 != 0) &&
      decide (f 4 < 8)) = true := by
    simp only [Bool.and_eq_true, decide_eq_true_eq]
    exact ⟨⟨⟨⟨⟨hr1, hr64⟩, hc1⟩, hc64⟩, popped_addr_zero hqd⟩, hfl⟩
  show (do require _; pure _) = _
  rw [require_ok hb]; rfl

/-! ## The head of a Plank's queue made to start (R221, R222) -/

section

variable {g : Key} {p : PlankCmd} {l : List PlankCmd}

/-- A command that does not multiply starts as it comes to the head (R221). -/
theorem State.plankStart_started (hq : (s.group g).plank.queue = p :: l) (hf : s.plankFree g = true) (hm : isMultiply p.op = false) :
    s.plankStart g =
      (s.modPlank g (fun x => { x with queue := { p with started := true } :: l })).pushOnce .plankCommandEnd (.n1 g) := by
  cases hop : p.op <;> simp_all [State.plankStart, isMultiply]

/-- A multiply command at the head is put before the governor (R222). -/
theorem State.plankStart_governed (hq : (s.group g).plank.queue = p :: l) (hf : s.plankFree g = true) (hm : isMultiply p.op = true) :
    s.plankStart g = s.pushOnce .governorStart .none := by
  cases hop : p.op <;> simp_all [State.plankStart, isMultiply]

end

/-- What the start of a queue's head can do: nothing, the governor's event, or the head started with its end due. -/
theorem State.plankStart_cases (s : State) (g : Key) :
    s.plankStart g = s ∨ s.plankStart g = s.pushOnce .governorStart .none ∨
      ∃ q, s.plankStart g = (s.modPlank g (fun x => { x with queue := q })).pushOnce .plankCommandEnd (.n1 g) := by
  cases hq : (s.group g).plank.queue with
  | nil => exact .inl (by simp [State.plankStart, hq])
  | cons p l =>
    cases hf : s.plankFree g with
    | false => exact .inl (by simp [State.plankStart, hq, hf])
    | true =>
      cases hm : isMultiply p.op with
      | false => exact .inr (.inr ⟨_, State.plankStart_started hq hf hm⟩)
      | true => exact .inr (.inl (State.plankStart_governed hq hf hm))

/-- It leaves memory, every thread and the count of the lease's commands as they are. -/
theorem State.plankStart_frame (s : State) (g : Key) : (s.plankStart g).mem = s.mem ∧ (s.plankStart g).threads = s.threads ∧
    ((s.plankStart g).group g).plank.cmds = (s.group g).plank.cmds := by
  obtain h | h | ⟨q, h⟩ := s.plankStart_cases g <;> rw [h] <;> simp

/-! ## Acceptance (R220, R224) -/

/-- A command p held in slot k that the Plank accepts as p' (R220): what the retries and traps of PLANK_ACCEPT look at but the
ownership of its destination. -/
structure PlankTakes (s : State) (k : Key) (t : Thread) (p p' : PlankCmd) (fifo : Bool) : Prop where
  named : s.arg = .n1 k
  slot : s.thread k = some t
  parked : t.run = .parked .plankAccept
  held : t.pend = some (.plank p fifo)
  kept : (s.group (groupOf (coreOf k))).plank.retired = false
  leased : t.lease = .held
  room : (s.group (groupOf (coreOf k))).plank.queue.length < 16
  released : s.releasedNow k t .die = true
  pops : fifo = true → (if fifo then (t.fifoOf 2).head? else none).isSome = true
  checked : s.acceptPlank p (if fifo then (t.fifoOf 2).head? else none) = .ok p'

/-- A thread whose Plank command is accepted in a cycle: its address popped where the command takes it from the FIFO, it goes on, and
the next command has the next number (R220, R221, R224). -/
def Thread.plankAccepted (t : Thread) (fifo : Bool) (cycle : Nat) : Thread :=
  let u := if fifo then t.setFifo 2 ((t.fifoOf 2).drop 1) else t
  { u.complete u.npc cycle with pend := none, plankSeq := u.plankSeq + 1 }

/-- The state with an accepted command in the queue of slot k's Plank and counted (R218, R220), before the queue's head starts. -/
def State.enterPlank (s : State) (k : Key) (p : PlankCmd) (fifo : Bool) : State :=
  ((s.modPlank (groupOf (coreOf k)) (fun x => { x with
    queue := x.queue ++ [p], cmds := (s.group (groupOf (coreOf k))).plank.cmds + 1 })).dropOwned p.own).modT k
      (fun t => t.plankAccepted fifo s.cycle)

/-- All of the thread but its FIFOs goes on as said. -/
theorem Thread.plankAccepted_eq (t : Thread) (fifo : Bool) (cycle : Nat) : t.plankAccepted fifo cycle = { t with
    pc := t.npc, run := .ready, readyAt := cycle + 2, pend := none, plankSeq := t.plankSeq + 1,
    fifo := (t.plankAccepted fifo cycle).fifo } := by
  cases fifo <;> rfl

theorem Thread.plankAccepted_fifo_kept (t : Thread) (cycle : Nat) : (t.plankAccepted false cycle).fifo = t.fifo := rfl

theorem Thread.plankAccepted_fifo_popped (t : Thread) (cycle : Nat) : (t.plankAccepted true cycle).fifoOf 2 = (t.fifoOf 2).drop 1 := by
  simp [Thread.plankAccepted, Thread.complete, Thread.setFifo, Thread.fifoOf]

section

variable {k : Key} {p p' : PlankCmd} {fifo : Bool}

@[simp] theorem State.enterPlank_mem : (s.enterPlank k p fifo).mem = s.mem := by simp [State.enterPlank]

@[simp] theorem State.enterPlank_plank : ((s.enterPlank k p fifo).group (groupOf (coreOf k))).plank =
    { (s.group (groupOf (coreOf k))).plank with
      queue := (s.group (groupOf (coreOf k))).plank.queue ++ [p], cmds := (s.group (groupOf (coreOf k))).plank.cmds + 1 } := by
  simp [State.enterPlank]

theorem State.enterPlank_thread (h : s.thread k = some t) :
    (s.enterPlank k p fifo).thread k = some (t.plankAccepted fifo s.cycle) := by
  have hk : ((s.modPlank (groupOf (coreOf k)) (fun x => { x with
    queue := x.queue ++ [p], cmds := (s.group (groupOf (coreOf k))).plank.cmds + 1 })).dropOwned p.own).thread k = some t := h
  rw [State.enterPlank, State.thread_modT_self, hk]; rfl

@[simp] theorem State.enterPlank_plankFree : (s.enterPlank k p fifo).plankFree (groupOf (coreOf k)) = s.plankFree (groupOf (coreOf k)) := by
  simp [State.enterPlank, State.plankFree, State.switching]

/-- PLANK_ACCEPT for a command that the Plank takes: it is tried again while another engine owns a byte of its destination (log 26),
else it enters, the lease may reach its limit of commands (R218), and it starts where the queue was empty (R220). -/
theorem PlankTakes.exec (h : PlankTakes s k t p p' fifo) :
    let g := groupOf (coreOf k)
    execPlankAccept s = .next (if s.ownedElsewhere p'.own (.plank g) then s.retry .plankAccept (.n1 k)
      else
        let s' := if (s.group g).plank.cmds + 1 = 64 then (s.enterPlank k p' fifo).leaseLimit g else s.enterPlank k p' fifo
        if (s.group g).plank.queue.isEmpty then s'.plankStart g else s') := by
  obtain ⟨harg, hslot, hrun, hpend, hkept, hlease, hroom, hrel, hpop, hok⟩ := h
  have hwait : ¬ (t.lease != .held || decide (16 ≤ (s.group (groupOf (coreOf k))).plank.queue.length) || !s.releasedNow k t .die) = true := by
    simp [hlease, hrel, hroom]
  have hpopped : ¬ (fifo && (if fifo then (t.fifoOf 2).head? else none).isNone) = true := by
    cases fifo with
    | false => simp
    | true => have := hpop rfl; simp_all
  unfold execPlankAccept
  simp only [harg, hslot, hrun, hpend]
  rw [if_neg (by simp [hkept]), if_neg hwait, if_neg hpopped]
  simp only [hok]
  rfl

theorem PlankTakes.retries (h : PlankTakes s k t p p' fifo) (ho : s.ownedElsewhere p'.own (.plank (groupOf (coreOf k))) = true) :
    execPlankAccept s = .next (s.retry .plankAccept (.n1 k)) := by
  rw [h.exec, if_pos ho]

/-- Acceptance short of the lease's limit of commands. -/
theorem PlankTakes.enters (h : PlankTakes s k t p p' fifo) (ho : s.ownedElsewhere p'.own (.plank (groupOf (coreOf k))) = false)
    (hn : (s.group (groupOf (coreOf k))).plank.cmds + 1 ≠ 64) :
    execPlankAccept s = .next (if (s.group (groupOf (coreOf k))).plank.queue.isEmpty
      then (s.enterPlank k p' fifo).plankStart (groupOf (coreOf k)) else s.enterPlank k p' fifo) := by
  rw [h.exec, if_neg (Bool.eq_false_iff.mp ho)]
  simp only [if_neg hn]

/-- What acceptance leaves of memory, the Plank's count and the thread, whether or not the command starts at once. -/
theorem State.enterPlank_frame {s' : State} (hslot : s.thread k = some t)
    (hs : s' = s.enterPlank k p fifo ∨ s' = (s.enterPlank k p fifo).plankStart (groupOf (coreOf k))) :
    s'.mem = s.mem ∧ (s'.group (groupOf (coreOf k))).plank.cmds = (s.group (groupOf (coreOf k))).plank.cmds + 1 ∧
      s'.thread k = some (t.plankAccepted fifo s.cycle) := by
  have hthread := State.enterPlank_thread (p := p) (fifo := fifo) hslot
  obtain rfl | rfl := hs
  · exact ⟨by simp, by simp, hthread⟩
  · obtain ⟨hmem, hthreads, hcmds⟩ := (s.enterPlank k p fifo).plankStart_frame (groupOf (coreOf k))
    exact ⟨by rw [hmem, State.enterPlank_mem], by rw [hcmds, State.enterPlank_plank], by rwa [State.thread, hthreads]⟩

end

section

variable {g : Key} {p : PlankCmd}

/-- The only command of a queue that does not multiply starts, its end being due. -/
theorem State.plankStart_alone_started (hq : (s.group g).plank.queue = [p]) (hf : s.plankFree g = true) (hm : isMultiply p.op = false) :
    ((s.plankStart g).group g).plank.queue = [{ p with started := true }] ∧ isDue (s.plankStart g) ⟨.plankCommandEnd, .n1 g⟩ := by
  rw [State.plankStart_started hq hf hm]
  exact ⟨by simp, State.isDue_pushOnce ..⟩

/-- A multiply command alone in its queue waits there for the governor, which is due. -/
theorem State.plankStart_alone_governed (hq : (s.group g).plank.queue = [p]) (hf : s.plankFree g = true) (hm : isMultiply p.op = true) :
    ((s.plankStart g).group g).plank.queue = [p] ∧ isDue (s.plankStart g) ⟨.governorStart, .none⟩ := by
  rw [State.plankStart_governed hq hf hm]
  exact ⟨by simp [hq], State.isDue_pushOnce ..⟩

end

/-! ## The governor (R18, R222) -/

section

variable {g : Key} {p : PlankCmd} {l : List PlankCmd}

/-- The governor leaves a group without a due multiply command as it is. -/
theorem State.govern_of_not_due (h : ¬ MultiplyDue s g) : s.govern g = s := by
  cases hq : (s.group g).plank.queue with
  | nil => simp [State.govern, hq]
  | cons p l =>
    cases hop : p.op with
    | mul =>
      cases hst : p.started with
      | true => simp [State.govern, hq, hop, hst]
      | false => exact absurd ⟨p, l, hq, by rw [hop]; rfl, hst⟩ h
    | ldw | drain | zero => simp [State.govern, hq, hop]

/-- The state with the start of a group's due multiply command delayed by a cycle, counted once for the cycle (R222, R230). -/
def State.govDelayed (s : State) (g : Key) : State := s.modPlank g (fun x => { x with
  gov := true, govDelay := if x.govAt = s.cycle + 1 then x.govDelay else x.govDelay + 1, govAt := s.cycle + 1 })

/-- What the governor does with a due multiply command that its Plank may start. -/
theorem State.govern_of_due (hq : (s.group g).plank.queue = p :: l) (hm : isMultiply p.op = true) (hst : p.started = false)
    (hf : s.plankFree g = true) :
    s.govern g = if s.draw + p.draw ≤ s.io.budget then
        (s.modPlank g (fun x => { x with queue := { p with started := true } :: l, gov := false })).pushOnce .plankCommandEnd (.n1 g)
      else if (s.govDelayed g).timers.contains (s.cycle + 1, ⟨.governorStart, .none⟩) then s.govDelayed g
      else (s.govDelayed g).at (s.cycle + 1) .governorStart .none := by
  cases hop : p.op with
  | mul =>
    unfold State.govern
    simp only [hq, hop]
    rw [if_neg (by simp [hst, hf])]
    rfl
  | ldw | drain | zero => rw [hop] at hm; cases hm

/-- The governor's turn for a group leaves the other groups as they are. -/
theorem State.group_govern_ne {h : Key} (hne : h ≠ g) : (s.govern g).group h = s.group h := by
  by_cases hd : MultiplyDue s g
  · obtain ⟨p, l, hq, hm, hst⟩ := hd
    by_cases hf : s.plankFree g = true
    · rw [State.govern_of_due hq hm hst hf]
      split
      · rw [State.group_pushOnce, State.group_modPlank_ne _ _ hne]
      · split
        · exact State.group_modPlank_ne _ _ hne
        · rw [State.group_at]; exact State.group_modPlank_ne _ _ hne
    · cases hop : p.op <;> simp [State.govern, hq, hop, hf]
  · rw [State.govern_of_not_due hd]

/-- Groups without a due multiply command are passed over. -/
theorem State.foldl_govern_of_none_due (l : List (Key × Group)) (h : ∀ e ∈ l, ¬ MultiplyDue s e.1) :
    l.foldl (fun s e => s.govern e.1) s = s := by
  induction l with
  | nil => rfl
  | cons e l ih =>
    rw [List.foldl_cons, State.govern_of_not_due (h e List.mem_cons_self)]
    exact ih (fun x hx => h x (List.mem_cons_of_mem _ hx))

/-- Where one group alone can have a due multiply command, GOVERNOR_START is the governor's turn for that group. -/
theorem execGovernorStart_of_only (hnd : (s.groups.map (·.1)).Nodup) (hg : g ∈ s.groups.map (·.1))
    (h : ∀ g', g' ≠ g → ¬ MultiplyDue s g') : execGovernorStart s = .next (s.govern g) := by
  obtain ⟨e, he, rfl⟩ := List.mem_map.mp hg
  obtain ⟨before, after, hsplit⟩ := List.append_of_mem he
  rw [hsplit, List.map_append, List.map_cons, List.nodup_append] at hnd
  obtain ⟨-, hafter, hbefore⟩ := hnd
  have hne_before : ∀ x ∈ before, x.1 ≠ e.1 := fun x hx =>
    hbefore _ (List.mem_map_of_mem hx) _ List.mem_cons_self
  have hne_after : ∀ x ∈ after, x.1 ≠ e.1 := fun x hx hxe =>
    (List.nodup_cons.mp hafter).1 (hxe ▸ List.mem_map_of_mem hx)
  have hdue_after : ∀ x ∈ after, ¬ MultiplyDue (s.govern e.1) x.1 := fun x hx hd =>
    h _ (hne_after x hx) (by rwa [MultiplyDue, State.group_govern_ne (hne_after x hx)] at hd)
  rw [execGovernorStart, hsplit, List.foldl_append, State.foldl_govern_of_none_due before (fun x hx => h _ (hne_before x hx)),
    List.foldl_cons, State.foldl_govern_of_none_due after hdue_after]

/-- A group whose Plank has a command queued is among the groups. -/
theorem State.group_mem_of_queue (hq : (s.group g).plank.queue = p :: l) : g ∈ s.groups.map (·.1) := by
  cases hm : mget s.groups g with
  | none => rw [State.group, hm] at hq; cases hq
  | some x => exact List.mem_map_of_mem (f := (·.1)) (mem_of_mget hm)

/-- A due multiply command that the budget allows starts, its end being due. -/
theorem State.govern_starts (hq : (s.group g).plank.queue = p :: l) (hm : isMultiply p.op = true) (hst : p.started = false)
    (hf : s.plankFree g = true) (hb : s.draw + p.draw ≤ s.io.budget) :
    (s.govern g).mem = s.mem ∧ (s.govern g).threads = s.threads ∧
      ((s.govern g).group g).plank = { (s.group g).plank with queue := { p with started := true } :: l, gov := false } ∧
      isDue (s.govern g) ⟨.plankCommandEnd, .n1 g⟩ := by
  rw [State.govern_of_due hq hm hst hf, if_pos hb]
  exact ⟨by simp, by simp, by simp, State.isDue_pushOnce ..⟩

/-- One that the budget does not allow waits: the governor is due again in the next cycle. -/
theorem State.govern_delays (hq : (s.group g).plank.queue = p :: l) (hm : isMultiply p.op = true) (hst : p.started = false)
    (hf : s.plankFree g = true) (hb : s.io.budget < s.draw + p.draw) :
    (s.govern g).mem = s.mem ∧ (s.govern g).threads = s.threads ∧
      ((s.govern g).group g).plank = { (s.group g).plank with gov := true, govAt := s.cycle + 1, govDelay :=
        if (s.group g).plank.govAt = s.cycle + 1 then (s.group g).plank.govDelay else (s.group g).plank.govDelay + 1 } ∧
      (s.cycle + 1, ⟨.governorStart, .none⟩) ∈ (s.govern g).timers := by
  rw [State.govern_of_due hq hm hst hf, if_neg (Nat.not_le.mpr hb)]
  split
  case isTrue hdue => exact ⟨rfl, rfl, by simp [State.govDelayed], List.contains_iff_mem.mp hdue⟩
  case isFalse => exact ⟨rfl, rfl, by simp [State.govDelayed], State.mem_timers_at ..⟩

end

end Sys2Proof.Machine

namespace Sys2Proof.Machine

open Claims

/-- Settles O25. At issue a command without a lease asked for traps and one with its fields in range holds its thread
(`Executes.run_noLease`, `Executes.run_plank`); what acceptance does is `PlankTakes.exec`; the governor's turn is
`State.govern_of_due`, met once in the fold over the groups (`execGovernorStart_of_only`). As the model's log has it, NOLEASE comes
before the checks of fields and accesses (log 21), and acceptance is tried again while another engine owns a byte of the destination
(log 26). -/
theorem plankCommandsAreHeldAndAccepted : Obligations.PlankCommandsAreHeldAndAccepted := by
  unfold Obligations.PlankCommandsAreHeldAndAccepted
  refine ⟨⟨?noLease, ?zero, ?fields⟩, ?accepted, ?governed⟩
  case noLease =>
    intro o s t hl
    exact ⟨fun h => h.run_noLease hl _, fun h => h.run_noLease hl _, fun h => h.run_noLease hl _,
      fun h => h.run_noLease hl _, fun h => h.run_noLease hl _⟩
  case zero => exact fun s t h hr => h.run_plank hr rfl
  case fields =>
    intro o s t hr
    refine ⟨fun h ⟨_, hc⟩ => execMldw_holds h hr rfl rfl rfl hc, fun m => ?_, fun h => execMdrain_holds h hr⟩
    cases m with
    | false => exact fun h => multiply_holds h hr
    | true => exact fun h => multiply_holds h hr
  case accepted =>
    intro s k t p p' fifo harg hslot hrun hpend g pl popped hkept hlease hroom hrel hpop hok
    have h : PlankTakes s k t p p' fifo := ⟨harg, hslot, hrun, hpend, hkept, hlease, hroom, hrel, hpop, hok⟩
    refine ⟨h.retries, fun ho hn => ?_⟩
    have hfifo : (fifo = false → (t.plankAccepted fifo s.cycle).fifo = t.fifo) ∧
        (fifo = true → (t.plankAccepted fifo s.cycle).fifoOf 2 = (t.fifoOf 2).drop 1) :=
      ⟨fun e => e ▸ t.plankAccepted_fifo_kept s.cycle, fun e => e ▸ t.plankAccepted_fifo_popped s.cycle⟩
    by_cases hq : pl.queue = []
    · have hq' : ((s.enterPlank k p' fifo).group g).plank.queue = [p'] := by
        rw [State.enterPlank_plank]; show pl.queue ++ [p'] = [p']; rw [hq]; rfl
      obtain ⟨hmem, hcmds, hthread⟩ := State.enterPlank_frame (p := p') (fifo := fifo) hslot (.inr rfl)
      refine ⟨_, _, (h.enters ho hn).trans (by rw [if_pos (List.isEmpty_iff.mpr hq)]), hmem, hcmds, hthread,
        t.plankAccepted_eq fifo s.cycle, hfifo.1, hfifo.2, fun hne => absurd hq hne, fun _ hf => ?_⟩
      have hf' : (s.enterPlank k p' fifo).plankFree g = true := State.enterPlank_plankFree.trans hf
      exact ⟨State.plankStart_alone_started hq' hf', State.plankStart_alone_governed hq' hf'⟩
    · obtain ⟨hmem, hcmds, hthread⟩ := State.enterPlank_frame (p := p') (fifo := fifo) hslot (.inl rfl)
      exact ⟨_, _, (h.enters ho hn).trans (by rw [if_neg (mt List.isEmpty_iff.mp hq)]), hmem, hcmds, hthread,
        t.plankAccepted_eq fifo s.cycle, hfifo.1, hfifo.2, fun _ => congrArg Plank.queue State.enterPlank_plank,
        fun he => absurd he hq⟩
  case governed =>
    intro s g p l hnd hq hm hst hf hothers
    have hexec := execGovernorStart_of_only hnd (State.group_mem_of_queue hq) hothers
    exact ⟨fun hb => ⟨_, hexec, State.govern_starts hq hm hst hf hb⟩, fun hb => ⟨_, hexec, State.govern_delays hq hm hst hf hb⟩⟩

end Sys2Proof.Machine
end

section
/-! PROOFS. The values of the scalar integer instructions (04_scalar R62 to R64): what the model computes digit by digit is what the
instruction tables say bit by bit. -/

namespace Sys2Proof.Machine

open Claims

/-! ## Counts and fields -/

/-- A shift amount is the count of bits 5:0 (R62). -/
theorem amount_eq (t : DW) : amount t = low6 t := by simp [amount, low6, bits]

/-- The field of EXT and INS: its position is bits 5:0 of T, and its mask is R64's M. -/
theorem fieldOf_eq (t : DW) : fieldOf t = (low6 t, fieldMask t) := by
  have hmask (x p : Nat) : dw (x * 2 ^ p) = dw x <<< p := by
    apply BitVec.eq_of_toNat_eq
    simp [dw, BitVec.toNat_shiftLeft, Nat.shiftLeft_eq]
  rw [fieldOf, fieldMask, low6, hmask]

/-! ## Leading zeros, trailing zeros and ones (R64) -/

/-- The bits above the highest bit that is 1 are 0, and there are 63 less its place of them. -/
theorem zerosAbove_eq (a : DW) : zerosAbove a = clzN 64 a.toNat := by
  by_cases ha : a.toNat = 0
  · have hbit (i : Nat) : a.getLsbD i = false := by simp [BitVec.getLsbD, ha]
    have hnone : (List.range 64).find? (fun i => a.getLsbD (63 - i)) = none :=
      List.find?_range_eq_none.mpr fun i _ => by simp [hbit]
    simp [zerosAbove, hnone, clzN, ha]
  · have hlog : a.toNat.log2 < 64 := (Nat.log2_lt ha).mpr a.isLt
    have htop : (List.range 64).find? (fun i => a.getLsbD (63 - i)) = some (63 - a.toNat.log2) := by
      refine List.find?_range_eq_some.mpr ⟨?_, List.mem_range.mpr (by omega), fun j hj => ?_⟩
      · rw [Nat.sub_sub_self (by omega)]
        exact Nat.testBit_log2 ha
      · have habove : a.toNat < 2 ^ (63 - j) := (Nat.log2_lt ha).mp (by omega)
        simp [BitVec.getLsbD, Nat.testBit_lt_two_pow habove]
    simp [zerosAbove, htop, clzN, ha]

/-- The first place of a 1 among the low n bits. -/
theorem ctzN_eq_find? (n x : Nat) : ctzN n x = ((List.range n).find? x.testBit).getD n := by
  induction n generalizing x with
  | zero => rfl
  | succ n ih =>
    rw [ctzN, List.range_succ_eq_map, List.find?_cons, Nat.testBit_zero]
    by_cases h : x % 2 = 1
    · simp [h]
    · have hnext : x.testBit ∘ Nat.succ = (x / 2).testBit := funext fun i => Nat.testBit_succ x i
      simp only [h, if_false, decide_false, List.find?_map, hnext, ih]
      cases (List.range n).find? (x / 2).testBit <;> rfl

theorem zerosBelow_eq (a : DW) : zerosBelow a = ctzN 64 a.toNat := (ctzN_eq_find? 64 a.toNat).symm

/-- The number of places of a 1 among the low n bits. -/
theorem popcN_eq_length_filter (n x : Nat) : popcN n x = ((List.range n).filter x.testBit).length := by
  induction n generalizing x with
  | zero => rfl
  | succ n ih =>
    have hnext : x.testBit ∘ Nat.succ = (x / 2).testBit := funext fun i => Nat.testBit_succ x i
    rw [popcN, List.range_succ_eq_map, List.filter_cons, Nat.testBit_zero, List.filter_map, hnext, ih]
    obtain h | h := Nat.mod_two_eq_zero_or_one x
    · simp [h]
    · simp [h, Nat.add_comm]

theorem ones_eq (a : DW) : ones a = popcN 64 a.toNat := (popcN_eq_length_filter 64 a.toNat).symm

/-! ## Words made of bits -/

/-- Bit i of the number that a list's entries give is what its entry i gives. -/
theorem testBit_bitsOf {α : Type} (f : α → Bool) (l : List α) (i : Nat) : (bitsOf f l).testBit i = l[i]?.any f := by
  induction l generalizing i with
  | nil => simp [bitsOf]
  | cons a l ih =>
    have hlow : (if f a then 1 else 0) < 2 ^ 1 := by split <;> decide
    rw [bitsOf, Nat.add_comm, ← Nat.pow_one 2, Nat.testBit_two_pow_mul_add _ hlow]
    cases i with
    | zero => cases h : f a <;> simp [h]
    | succ i => simp [ih]

/-- Bit i of the doubleword that f gives is f i. -/
theorem getLsbD_ofBits (f : Nat → Bool) {i : Nat} (hi : i < 64) : (ofBits f).getLsbD i = f i := by
  rw [ofBits, dw, BitVec.getLsbD_ofNat, testBit_bitsOf, List.getElem?_range hi]
  simp [hi]

/-- Reversing n digits of k bits moves digit j to digit n - 1 - j and pushes the digits so far above them. -/
theorem testBit_revDigits {k : Nat} (hk : 0 < k) (n x acc i : Nat) :
    (revDigits (2 ^ k) n x acc).testBit i =
      if i < k * n then x.testBit (k * (n - 1 - i / k) + i % k) else acc.testBit (i - k * n) := by
  induction n generalizing x acc with
  | zero => simp [revDigits]
  | succ n ih =>
    have hlow : x % 2 ^ k < 2 ^ k := Nat.mod_lt _ (Nat.two_pow_pos k)
    rw [revDigits, ih, Nat.mul_comm acc, Nat.testBit_two_pow_mul_add _ hlow, Nat.testBit_mod_two_pow, Nat.testBit_div_two_pow,
      Nat.mul_succ]
    by_cases hin : i < k * n
    · have hdigit : i / k < n := (Nat.div_lt_iff_lt_mul hk).mpr (by rwa [Nat.mul_comm])
      have hplace : k + (k * (n - 1 - i / k) + i % k) = k * (n + 1 - 1 - i / k) + i % k := by
        rw [show n + 1 - 1 - i / k = (n - 1 - i / k).succ by omega, Nat.mul_succ, ← Nat.add_assoc, Nat.add_comm k]
      rw [if_pos hin, if_pos (by omega), Nat.add_comm _ k, hplace]
    · obtain ⟨j, rfl⟩ := Nat.exists_eq_add_of_le (Nat.not_lt.mp hin)
      rw [if_neg hin, Nat.add_sub_cancel_left]
      by_cases hj : j < k
      · simp [hj, Nat.mul_add_div hk, Nat.div_eq_of_lt hj, Nat.mod_eq_of_lt hj]
      · rw [if_neg hj, if_neg (by omega), Nat.add_sub_add_left]

/-- A doubleword is 64 / k digits of k bits: reversed, bit i is bit i % k of the digit as far from the top as i's is from the
bottom. -/
theorem ofBits_reversed {k n : Nat} (hn : k * n = 64) (a : DW) :
    ofBits (fun i => a.getLsbD (k * (n - 1 - i / k) + i % k)) = dw (revDigits (2 ^ k) n a.toNat 0) := by
  have hk : 0 < k := Nat.pos_of_ne_zero fun h => by simp [h] at hn
  refine BitVec.eq_of_getLsbD_eq fun i hi => ?_
  rw [getLsbD_ofBits _ hi, dw, BitVec.getLsbD_ofNat, testBit_revDigits hk, hn]
  simp [hi, BitVec.getLsbD]

/-- BREV's value (R64). -/
theorem ofBits_brev (a : DW) : ofBits (fun i => a.getLsbD (63 - i)) = dw (revDigits 2 64 a.toNat 0) := by
  have h := ofBits_reversed (k := 1) (n := 64) rfl a
  simpa only [Nat.one_mul, Nat.div_one, Nat.mod_one, Nat.add_zero, Nat.pow_one] using h

/-- BSWAP's value (R64). -/
theorem ofBits_bswap (a : DW) :
    ofBits (fun i => a.getLsbD (8 * (7 - i / 8) + i % 8)) = dw (revDigits 256 8 a.toNat 0) := by
  have h := ofBits_reversed (k := 8) (n := 8) rfl a
  simpa only [Nat.reducePow, Nat.reduceSub] using h

/-! ## Minimum and maximum of unsigned words -/

theorem dw_min (a t : DW) : dw (min a.toNat t.toNat) = if a.toNat ≤ t.toNat then a else t := by
  rw [Nat.min_def]
  split <;> simp [dw]

theorem dw_max (a t : DW) : dw (max a.toNat t.toNat) = if t.toNat ≤ a.toNat then a else t := by
  rw [Nat.max_comm, Nat.max_def]
  split <;> simp [dw]

/-! ## Extensions (R64) -/

/-- The low n bits of a doubleword sign-extended. -/
theorem sextTo_toNat (n : Nat) (a : DW) : sextTo n a.toNat = (a.setWidth n).signExtend 64 := by
  rw [sextTo, BitVec.ofNat_toNat]

/-- A mask of n ones leaves the low n bits, zero-extended. -/
theorem and_lowMask {n : Nat} {m : DW} (hn : n ≤ 64) (hm : m.toNat = 2 ^ n - 1) (a : DW) :
    a &&& m = (a.setWidth n).setWidth 64 := by
  apply BitVec.eq_of_toNat_eq
  have hlt : a.toNat % 2 ^ n < 2 ^ 64 :=
    Nat.lt_of_lt_of_le (Nat.mod_lt _ (Nat.two_pow_pos n)) (Nat.pow_le_pow_right (by decide) hn)
  rw [BitVec.toNat_and, hm, Nat.and_two_pow_sub_one_eq_mod, BitVec.toNat_setWidth, BitVec.toNat_setWidth, Nat.mod_eq_of_lt hlt]

/-! ## Quotients and remainders (R63) -/

/-- What a division leaves over: the dividend less the product of quotient and divisor, modulo 2^64. -/
theorem dw_mod (a t : DW) : dw (a.toNat % t.toNat) = a - dw (a.toNat / t.toNat) * t := by
  have hsplit : dw (a.toNat / t.toNat) * t + dw (a.toNat % t.toNat) = a := by
    calc dw (a.toNat / t.toNat) * t + dw (a.toNat % t.toNat)
        = dw (a.toNat / t.toNat * t.toNat + a.toNat % t.toNat) := by simp [dw, BitVec.ofNat_add, BitVec.ofNat_mul]
      _ = a := by rw [Nat.div_add_mod']; simp [dw]
  rw [BitVec.eq_sub_iff_add_eq, BitVec.add_comm, hsplit]

/-- The one case whose quotient does not fit: the least dividend by -1. -/
theorem overflowing_iff (a t : DW) :
    (a == 0x8000000000000000 && t == 0xFFFFFFFFFFFFFFFF) = true ↔ a = 0x8000000000000000 ∧ t = BitVec.allOnes 64 := by
  rw [Bool.and_eq_true, beq_iff_eq, beq_iff_eq]; rfl

/-- R63's quotient and remainder: a division by 0, the overflowing division and every other one. -/
theorem divRem_eq (signed : Bool) (a t : DW) : divRem signed a t = (quotient signed a t, remainder signed a t) := by
  unfold divRem remainder quotient
  by_cases ht : t = 0
  · simp only [ht, if_true]; rfl
  · cases signed with
    | false => simp only [Bool.false_and, Bool.false_eq_true, ht, if_false, dw_mod]
    | true =>
      simp only [Bool.true_and, overflowing_iff, ht, if_false, if_true]
      by_cases ho : a = 0x8000000000000000 ∧ t = BitVec.allOnes 64
      · rw [if_pos ho, if_pos ho, if_pos ho]
      · rw [if_neg ho, if_neg ho, if_neg ho]

end Sys2Proof.Machine
end

section
/-! PROOFS. The scalar integer instructions (04_scalar R62 to R67): each shape of instruction delivers its value to its destination, and
the predicate word goes to and comes from a register whole. -/

namespace Sys2Proof.Machine

open Claims

variable {s : State} {t : Thread}

/-! ## What the shapes answer -/

/-- An instruction that issues and executes answers what its meaning gives. -/
theorem Issues.runIn_answers {svc always : Bool} {srcs : List Src} {dsts : List Dst} (h : Issues s t svc srcs dsts)
    (hon : (always || (t.pv s.q.pred.toNat != s.q.inv)) = true) (body : Cx → State → Res State) :
    s.runIn svc always srcs dsts body = s.answers t (body (s.cx t) (s.taken t srcs)) := by
  rw [h.runIn hon]
  cases body (s.cx t) (s.taken t srcs) <;> rfl

/-- The same for an instruction of every core that its predicate lets execute. -/
theorem Executes.run_answers {srcs : List Src} {dsts : List Dst} (h : Executes s t false srcs dsts) (body : Cx → State → Res State) :
    s.run srcs dsts body = s.answers t (body (s.cx t) (s.taken t srcs)) :=
  h.toIssues.runIn_answers (by rw [h.on, Bool.or_true]) body

/-- A g register reads as the thread holds it. -/
theorem State.cx_get_g {n skip : Nat} (h : n < 24) : (s.cx t).get n skip = t.gv n := if_pos h

/-- A value delivered to a g register is the state's only change besides the sources taken. -/
theorem State.answers_putX_g {srcs : List Src} {n : Nat} (h : n < 24) (v : DW) :
    s.answers t ((s.taken t srcs).putX (s.cx t) n v) = .next (s.after t srcs (fun x => x.setG n v)) := by
  rw [State.putX_g h]; rfl

end Sys2Proof.Machine

namespace Sys2Proof.Claims

open Machine

variable {i : Instr} {o : Op}

theorem Gives2.of_alu {f g : DW → DW → DW} (hi : ∀ s, exec i s = s.alu o g) (hfg : ∀ a t, g a t = f a t) : Gives2 i o f := by
  obtain rfl : g = f := funext fun a => funext (hfg a)
  exact fun s _ h => ⟨(hi s).trans (h.run_answers _), fun hd => (hi s).trans (State.alu_next h hd rfl)⟩

theorem Gives1.of_alu1 {f g : DW → DW} (hi : ∀ s, exec i s = s.alu1 o g) (hfg : ∀ a, g a = f a) : Gives1 i o f := by
  obtain rfl : g = f := funext hfg
  exact fun s _ h => ⟨(hi s).trans (h.run_answers _), fun hd => (hi s).trans (State.alu1_next h hd rfl)⟩

theorem GivesImm.of_aluImm {o : OpI} {f g : DW → DW → DW} (hi : ∀ s, exec i s = s.aluImm o g) (hfg : ∀ a t, g a t = f a t) :
    GivesImm i o f :=
  fun s _ h hd => (hi s).trans (State.aluImm_next h hd (hfg _ _))

theorem Owes2.of_aluOwed {f g : DW → DW → DW} (hi : ∀ s, exec i s = s.aluOwed o g) (hfg : ∀ a t, g a t = f a t) : Owes2 i o f := by
  obtain rfl : g = f := funext fun a => funext (hfg a)
  exact fun s _ h => ⟨(hi s).trans (h.run_answers _), fun hd => (hi s).trans (State.aluOwed_next h hd rfl)⟩

theorem Compares.of_cmp {f : DW → DW → Bool} (hi : ∀ s, exec i s = s.cmp o f) : Compares i o f :=
  fun s _ h => (hi s).trans (State.cmp_next h rfl)

/-- Without a REG halfword the second predicate reads as 0 (R67). -/
theorem Predicates.of_predOp {f : Bool → Bool → Bool} (hi : ∀ s, exec i s = s.predOp o f) : Predicates i o f := by
  refine fun s t h => (hi s).trans (State.predOp_next h ?_)
  cases ht : o.t with
  | reg r => simp [Third.isReg, Op.tn, ht]
  | imm v => simp [Third.isReg]

end Sys2Proof.Claims

namespace Sys2Proof.Machine

open Claims

variable {s : State} {t : Thread} {o : Op}

/-! ## LI, LEA, INS and SEL (R62, R64, R66) -/

/-- LI reads no source. -/
theorem execLi_answers {o : OpI} (h : Executes s t false [] [.x o.d.toNat]) :
    execLi o s = s.answers t ((s.taken t []).putX (s.cx t) o.d.toNat (o.imm.signExtend 64)) := by
  unfold execLi
  exact h.run_answers _

/-- An immediate takes no scale (R46, R62). -/
theorem legalOp_imm_scale {m : Mnem} {v : BitVec 20} (ht : o.t = .imm v) (hs : o.scale ≠ 0) : legalOp m o = false := by
  have hscale : (o.scale == 0) = false := beq_eq_false_iff_ne.mpr hs
  simp only [legalOp, ht, hscale, Bool.and_false]

theorem lea_not_wf {v : BitVec 20} (ht : o.t = .imm v) (hs : o.scale ≠ 0) : (Instr.lea o).wf = false := by
  have hbody : (Instr.lea o).body = some (.lea, .f2 o) := rfl
  simp only [Instr.wf, hbody, legal, legalOp_imm_scale ht hs, Bool.and_false, Bool.false_and]

/-- INS reads gd as well, and keeps what lies outside the field. -/
theorem execIns_next (h : Executes s t false (o.sx s.q ++ o.tx s.q ++ o.dx s.q) [.x o.dn]) (hd : o.dn < 24) :
    execIns o s = .next (s.after t (o.sx s.q ++ o.tx s.q ++ o.dx s.q) (fun x => x.setG o.dn
      ((t.gv o.dn &&& ~~~(fieldMask ((s.cx t).tval o))) |||
        (((s.cx t).sval o <<< low6 ((s.cx t).tval o)) &&& fieldMask ((s.cx t).tval o))))) := by
  have hdval : (s.cx t).dval o = t.gv o.dn := State.cx_get_g hd
  refine (h.run_answers _).trans ?_
  simp only [fieldOf_eq, hdval]
  exact State.answers_putX_g hd _

/-- SEL issues whatever its SRC predicate holds, which selects the value. -/
theorem execSel_answers (h : Issues s t false (o.sx s.q ++ o.tx s.q) [.x o.dn]) :
    execSel o s = s.answers t ((s.taken t (o.sx s.q ++ o.tx s.q)).putX (s.cx t) o.dn
      (if xor (t.pv s.q.pred.toNat) s.q.inv then (s.cx t).sval o else (s.cx t).tval o)) :=
  h.runIn_answers rfl _

/-! ## The predicate word (R19, R67) -/

/-- The predicate word holds pn at bit n, and reads bit 0 as 1. -/
theorem testBit_predWord (t : Thread) (i : Nat) : (predWord t.p).testBit i = (decide (i < 32) && t.pv i) := by
  have hone : (1 : Nat) < 2 ^ 1 := by decide
  rw [predWord, Nat.mul_comm, ← Nat.pow_one 2, Nat.testBit_two_pow_mul_add _ hone]
  cases i with
  | zero => simp [Thread.pv]
  | succ i =>
    rw [if_neg (by omega), Nat.pow_one, Nat.add_sub_cancel, ← Nat.testBit_succ, testBit_bitsOf, Thread.pv, Thread.pcell,
      List.getD_eq_getElem?_getD]
    by_cases hi : i + 1 < 32
    · simp [hi]
    · simp [hi]

theorem dw_predWord (t : Thread) : dw (predWord t.p) = ofBits (fun i => i < 32 && t.pv i) := by
  refine BitVec.eq_of_getLsbD_eq fun i hi => ?_
  rw [getLsbD_ofBits _ hi, dw, BitVec.getLsbD_ofNat, testBit_predWord]
  simp [hi]

/-- A bit of a number, in the model's words and in the library's. -/
theorem bit_eq_testBit (x i : Nat) : bit x i = x.testBit i := by
  rw [bit, Nat.testBit_eq_decide_div_mod_eq]; rfl

/-- The predicates made from a word and a full bit for each: pn is bit n, p0 is 1, and all are full. -/
theorem predsFrom_reads {t : Thread} {w n : Nat} (ht : t.p = predsFrom w (2 ^ 32 - 1)) (hn : n < 32) :
    t.pv n = (n == 0 || w.testBit n) ∧ t.isFull (.p n) = true := by
  have hcell : t.pcell n = if n = 0 then ⟨1, true, false, false⟩ else ⟨if bit w n then 1 else 0, bit (2 ^ 32 - 1) n, false, false⟩ := by
    simp [Thread.pcell, ht, predsFrom, hn]
  rw [Thread.pv, Thread.isFull, hcell, bit_eq_testBit, bit_eq_testBit, Nat.testBit_two_pow_sub_one]
  by_cases h0 : n = 0
  · simp [h0]
  · cases hw : w.testBit n <;> simp [h0, hn]

/-! ## The thread as its sources are taken -/

/-- A record popped changes its queue alone. -/
theorem Thread.popQueue_pc_g (x : Thread) (n : Nat) : (x.popQueue n).pc = x.pc ∧ (x.popQueue n).g = x.g := by
  unfold Thread.popQueue
  split
  case h_3 => split <;> exact ⟨rfl, rfl⟩
  all_goals exact ⟨rfl, rfl⟩

/-- Taking a source moves no thread to another instruction and changes no g register (R24). -/
theorem consume_thread (k : Key) (s : State) (x : Src) :
    ∃ f : Thread → Thread, (consume k s x).thread k = (s.thread k).map f ∧ ∀ y, (f y).pc = y.pc ∧ (f y).g = y.g := by
  have hsame : ∃ f : Thread → Thread, s.thread k = (s.thread k).map f ∧ ∀ y, (f y).pc = y.pc ∧ (f y).g = y.g :=
    ⟨id, by rw [Option.map_id]; rfl, fun _ => ⟨rfl, rfl⟩⟩
  cases x with
  | v _ _ _ | p _ _ _ | sub _ => exact hsame
  | x n idx tie =>
    rw [consume]
    split
    · exact hsame
    · split
      · refine ⟨_, s.thread_modT_self k _, fun y => ?_⟩
        split <;> exact ⟨rfl, rfl⟩
      · split
        · exact ⟨_, s.thread_modT_self k _, fun y => y.popQueue_pc_g (n - 28)⟩
        · rw [State.thread_modCore]
          exact hsame

/-- Its thread stands at the next instruction with its g registers as they were. -/
theorem State.taken_thread (h : s.thread s.cur = some t) (srcs : List Src) :
    ∃ t1, (s.taken t srcs).thread s.cur = some t1 ∧ t1.pc = s.npc t ∧ t1.g = t.g := by
  have hfold (l : List Src) (s1 : State) (t0 : Thread) (h1 : s1.thread s.cur = some t0) :
      ∃ t1, (l.foldl (consume s.cur) s1).thread s.cur = some t1 ∧ t1.pc = t0.pc ∧ t1.g = t0.g := by
    induction l generalizing s1 t0 with
    | nil => exact ⟨t0, h1, rfl, rfl⟩
    | cons x l ih =>
      obtain ⟨f, hf, hkept⟩ := consume_thread s.cur s1 x
      obtain ⟨t1, ht1, hpc, hg⟩ := ih (consume s.cur s1 x) (f t0) (by rw [hf, h1]; rfl)
      exact ⟨t1, ht1, hpc.trans (hkept t0).1, hg.trans (hkept t0).2⟩
  exact hfold srcs _ { t with pc := s.npc t } (by rw [State.thread_modT_self, h]; rfl)

/-! ## PMOVG and PMOVP (R67) -/

/-- PMOVG's sources: the predicate it names, or with s = 0 all of p1 to p31. -/
def pmovgSrcs (o : Op) (s : State) : List Src :=
  if o.sn = 0 then (List.range' 1 31).map (fun i => .p i 0 s.q.ts) else [.p o.sn 0 s.q.ts]

/-- PMOVG's value: the predicate it names, or with s = 0 the predicate word. -/
def pmovgValue (o : Op) (t : Thread) : DW :=
  if o.sn = 0 then ofBits (fun i => i < 32 && t.pv i) else if t.pv o.sn then 1 else 0

theorem execPmovg_answers (h : Executes s t false (pmovgSrcs o s) [.x o.dn]) :
    execPmovg o s = s.answers t ((s.taken t (pmovgSrcs o s)).putX (s.cx t) o.dn (pmovgValue o t)) := by
  by_cases h0 : o.sn = 0
  · simp only [execPmovg, pmovgSrcs, pmovgValue, h0, if_true, ← dw_predWord] at h ⊢
    exact h.run_answers _
  · simp only [execPmovg, pmovgSrcs, pmovgValue, h0, if_false] at h ⊢
    exact h.run_answers _

theorem execPmovp_one (h0 : o.dn ≠ 0) (h : Executes s t false (o.sx s.q) [.p o.dn]) :
    execPmovp o s = .next (s.after t (o.sx s.q) (fun x => x.setP o.dn ((s.cx t).sval o != 0))) :=
  (if_neg h0).trans (h.run rfl)

/-- PMOVP with d = 0 writes p1 to p31 from the bits of gs, and leaves its thread else as its sources' taking does. -/
theorem execPmovp_word (h0 : o.dn = 0) (h : Executes s t false (o.sx s.q) ((List.range' 1 31).map .p)) :
    ∃ s' t', execPmovp o s = .next s' ∧ s'.thread s.cur = some t' ∧ t'.pc = s.npc t ∧ t'.g = t.g ∧
      ∀ n, n < 32 → t'.pv n = (n == 0 || ((s.cx t).sval o).getLsbD n) ∧ t'.isFull (.p n) = true := by
  obtain ⟨t1, ht1, hpc, hg⟩ := State.taken_thread h.slot (o.sx s.q)
  refine ⟨_, { t1 with p := predsFrom ((s.cx t).sval o).toNat (2 ^ 32 - 1) }, (if_pos h0).trans (h.run rfl), ?_, hpc, hg,
    fun n hn => predsFrom_reads rfl hn⟩
  rw [State.onT, State.cx_k, State.thread_modT_self, ht1]; rfl

end Sys2Proof.Machine

namespace Sys2Proof.Machine

open Claims

/-- Settles O1: each instruction is one of the shapes `State.alu`, `State.alu1`, `State.aluImm`, and its value is the table's. -/
theorem arithmeticWritesTableValue : Obligations.ArithmeticWritesTableValue := by
  unfold Obligations.ArithmeticWritesTableValue
  refine ⟨fun o => ?registers, fun o => ?immediates, fun o v => lea_not_wf⟩
  case registers =>
    exact ⟨.of_alu (exec_add o) fun _ _ => rfl, .of_alu (exec_sub o) fun _ _ => rfl, .of_alu (exec_and o) fun _ _ => rfl,
      .of_alu (exec_or o) fun _ _ => rfl, .of_alu (exec_xor o) fun _ _ => rfl, .of_alu (exec_andn o) fun _ _ => rfl,
      .of_alu (exec_shl o) fun _ t => by rw [amount_eq], .of_alu (exec_shr o) fun _ t => by rw [amount_eq],
      .of_alu (exec_sar o) fun _ t => by rw [amount_eq], .of_alu1 (exec_mov o) fun _ => rfl, .of_alu (exec_lea o) fun _ _ => rfl⟩
  case immediates =>
    exact ⟨.of_aluImm (exec_addi o) fun _ _ => rfl, .of_aluImm (exec_shli o) fun _ t => by rw [amount_eq],
      .of_aluImm (exec_shri o) fun _ t => by rw [amount_eq], .of_aluImm (exec_sari o) fun _ t => by rw [amount_eq],
      fun s t h => ⟨execLi_answers h, fun hd => (execLi_answers h).trans (State.answers_putX_g hd _)⟩⟩

/-- Settles O2: the shapes `State.alu`, `State.alu1` and `State.aluOwed`, with the values of R63 and R64 by `zerosAbove_eq`,
`zerosBelow_eq`, `ones_eq`, `ofBits_brev`, `ofBits_bswap`, `fieldOf_eq` and `divRem_eq`. -/
theorem bitMultiplyAndDivideGiveTableValue : Obligations.BitMultiplyAndDivideGiveTableValue := by
  unfold Obligations.BitMultiplyAndDivideGiveTableValue
  refine ⟨fun o => ⟨?min, ?max, ?minu, ?maxu, ?clz, ?ctz, ?popc, ?brev, ?bswap, ?rol, ?ror, ?ext, ?ins, ?sxb, ?sxh, ?sxw, ?zxb, ?zxh,
    ?zxw⟩, fun o => ⟨?mul, ?mulh, ?mulhu, ?div, ?divu, ?rem, ?remu⟩⟩
  case min => exact .of_alu (exec_min o) fun _ _ => rfl
  case max => exact .of_alu (exec_max o) fun _ _ => rfl
  case minu => exact .of_alu (exec_minu o) fun a t => (dw_min a t).symm
  case maxu => exact .of_alu (exec_maxu o) fun a t => (dw_max a t).symm
  case clz => exact .of_alu1 (exec_clz o) fun a => by rw [zerosAbove_eq]
  case ctz => exact .of_alu1 (exec_ctz o) fun a => by rw [zerosBelow_eq]
  case popc => exact .of_alu1 (exec_popc o) fun a => by rw [ones_eq]
  case brev => exact .of_alu1 (exec_brev o) fun a => (ofBits_brev a).symm
  case bswap => exact .of_alu1 (exec_bswap o) fun a => (ofBits_bswap a).symm
  case rol => exact .of_alu (exec_rol o) fun _ t => by rw [amount_eq]
  case ror => exact .of_alu (exec_ror o) fun _ t => by rw [amount_eq]
  case ext => exact .of_alu (exec_ext o) fun _ t => by rw [fieldOf_eq]
  case ins => exact fun s t h hd => execIns_next h hd
  case sxb => exact .of_alu1 (exec_sxb o) (sextTo_toNat 8)
  case sxh => exact .of_alu1 (exec_sxh o) (sextTo_toNat 16)
  case sxw => exact .of_alu1 (exec_sxw o) (sextTo_toNat 32)
  case zxb => exact .of_alu1 (exec_zxb o) (and_lowMask (by decide) rfl)
  case zxh => exact .of_alu1 (exec_zxh o) (and_lowMask (by decide) rfl)
  case zxw => exact .of_alu1 (exec_zxw o) (and_lowMask (by decide) rfl)
  case mul => exact .of_aluOwed (exec_mul o) fun _ _ => rfl
  case mulh => exact .of_aluOwed (exec_mulh o) fun _ _ => rfl
  case mulhu => exact .of_aluOwed (exec_mulhu o) fun _ _ => rfl
  case div => exact .of_aluOwed (exec_div o) fun a t => by rw [divRem_eq]
  case divu => exact .of_aluOwed (exec_divu o) fun a t => by rw [divRem_eq]
  case rem => exact .of_aluOwed (exec_rem o) fun a t => by rw [divRem_eq]
  case remu => exact .of_aluOwed (exec_remu o) fun a t => by rw [divRem_eq]

/-- Settles O3: the shapes `State.cmp` and `State.predOp`; PMOVG and PMOVP by what the predicate word holds (`testBit_predWord`,
`predsFrom_reads`); SEL issues without its predicate (`execSel_answers`). -/
theorem comparesPredicatesAndSelect : Obligations.ComparesPredicatesAndSelect := by
  unfold Obligations.ComparesPredicatesAndSelect
  refine ⟨⟨fun o => ?compares, fun o s t => ?pmovg, fun o s t => execPmovp_one, fun o s t => execPmovp_word⟩, Thread.setP_zero,
    fun o s t => ?sel⟩
  case compares =>
    exact ⟨.of_cmp (exec_cmpeq o), .of_cmp (exec_cmpne o), .of_cmp (exec_cmplt o), .of_cmp (exec_cmpltu o), .of_cmp (exec_cmpge o),
      .of_cmp (exec_cmpgeu o), .of_predOp (exec_pand o), .of_predOp (exec_por o), .of_predOp (exec_pxor o),
      .of_predOp (exec_pnot o)⟩
  case pmovg =>
    intro srcs v h
    exact ⟨execPmovg_answers h, fun hd => (execPmovg_answers h).trans (State.answers_putX_g hd _)⟩
  case sel =>
    intro h v
    exact ⟨execSel_answers h, fun hd => (execSel_answers h).trans (State.answers_putX_g hd _)⟩

end Sys2Proof.Machine
end

section
/-! PROOFS. Scalar floating point (04_scalar R72 to R76): one rounding of the exact result, compares, minimum and maximum,
conversions, classes. -/

namespace Sys2Proof.Claims

open Machine

variable {i : Instr} {o : Op}

/-- An instruction of R73 with two sources owes its result rounded once. -/
theorem OwesRounded.of_fpOp {f : RMode → Exact → Exact → Exact × Flags} (hi : ∀ s, exec i s = s.fpOp o f) :
    OwesRounded i o (fun q => o.sx q ++ o.tx q) (fun md a b _ => f md a b) :=
  fun s _ h hd => (hi s).trans (h.run (State.oweX_g hd))

/-- FMA reads gd as its addend. An infinite product of a zero sets NV whatever the addend is, a quiet NaN included (the model's
log 14). -/
theorem OwesRounded.fma :
    OwesRounded (.fma o) o (fun q => o.sx q ++ o.tx q ++ o.dx q)
      (fun md a b d => (((a.mul b).1.add md d).1, (a.mul b).2 ||| ((a.mul b).1.add md d).2)) := by
  intro s t h hd
  have hdval : (s.cx t).dval o = t.gv o.dn := State.cx_get_g hd
  refine (exec_fma o s).trans (h.run ((State.oweX_g hd).trans ?_))
  rw [hdval]; rfl

/-- A compare of R74 writes pd and ORs its flag into FMODE. -/
theorem ComparesFp.of_fpCmp {g : Nat → Nat → Bool × Flags} {f : Exact → Exact → Bool × Bool} (hi : ∀ s, exec i s = s.fpCmp o g)
    (hg : ∀ a b, g a b = ((f ((opFmt o).decode a) ((opFmt o).decode b)).1,
      if (f ((opFmt o).decode a) ((opFmt o).decode b)).2 then flagNV else 0)) : ComparesFp i o f := by
  intro s t h
  refine (hi s).trans (h.run ?_)
  rw [hg]; rfl

end Sys2Proof.Claims

namespace Sys2Proof.Machine

open Claims

variable {s : State} {t : Thread} {o : Op}

/-- An instruction of R74 that writes gd at once ORs its flags into FMODE. -/
theorem State.fpNow_next {f : Nat → Nat → Nat × Flags} {r : DW} {fl : Flags}
    (h : Executes s t false (o.sx s.q ++ o.tx s.q) [.x o.dn]) (hd : o.dn < 24)
    (hr : dw (f ((s.cx t).sval o).toNat ((s.cx t).tval o).toNat).1 = r)
    (hfl : (f ((s.cx t).sval o).toNat ((s.cx t).tval o).toNat).2 = fl) :
    s.fpNow o f = .next (s.after t (o.sx s.q ++ o.tx s.q) (fun z => (z.orFlags fl).setG o.dn r)) := by
  subst hr hfl
  refine h.run ?_
  rw [State.putX_g hd, State.onT, State.modT_modT]; rfl

/-! ## minimumNumber and maximumNumber (R74) -/

/-- A signalling NaN sets NV, whichever operand is chosen. -/
theorem minMaxNum_flags (f : Fmt) (wantMax : Bool) (a b : Nat) :
    (minMaxNum f wantMax a b).2 = if (f.decode a).isSnan || (f.decode b).isSnan then flagNV else 0 := by
  simp only [minMaxNum]
  split
  · rfl
  · split
    · rfl
    · split <;> rfl

/-- Two NaNs give the default NaN, one gives the other operand, and of two numbers the lesser or the greater is chosen, with -0
below +0. -/
theorem minMaxNum_value (f : Fmt) (wantMax : Bool) (a b : Nat) :
    dw (minMaxNum f wantMax a b).1 =
      if (f.decode a).isNan && (f.decode b).isNan then dw f.nanBits
      else if (f.decode a).isNan then dw (b % 2 ^ f.w)
      else if (f.decode b).isNan then dw (a % 2 ^ f.w)
      else if ((f.decode a).lt (f.decode b) ||
          ((f.decode a).eq (f.decode b) && (f.decode a).signBit && !(f.decode b).signBit)) != wantMax then dw (a % 2 ^ f.w)
      else dw (b % 2 ^ f.w) := by
  simp only [minMaxNum, apply_ite Prod.fst, apply_ite dw]

end Sys2Proof.Machine

namespace Sys2Proof.Machine

open Claims

/-- Settles O5: the shapes `State.fpOp`, `State.fpCmp`, `State.fpNow` and `State.alu1`, FMA and FCVT by their meanings. NV of zero times
infinity stands also where the addend is a quiet NaN (the model's log 14). -/
theorem scalarFloatInstructions : Obligations.ScalarFloatInstructions := by
  unfold Obligations.ScalarFloatInstructions
  refine ⟨fun o => ?rounded, fun o => ?compares, fun o s t h hd => ?minmax, fun o s t h hd => ?convert, fun o => ?classes⟩
  case rounded =>
    exact ⟨.of_fpOp (exec_fadd o), .of_fpOp (exec_fsub o), .of_fpOp (exec_fmul o), .of_fpOp (exec_fdiv o),
      .of_fpOp (exec_fsqrt o), .fma⟩
  case compares =>
    exact ⟨.of_fpCmp (exec_fcmpeq o) fun _ _ => rfl, .of_fpCmp (exec_fcmplt o) fun _ _ => rfl,
      .of_fpCmp (exec_fcmple o) fun _ _ => rfl⟩
  case minmax =>
    intro a b x y w fl pick below
    refine ⟨State.fpNow_next h hd ?_ (minMaxNum_flags ..), State.fpNow_next h hd ?_ (minMaxNum_flags ..)⟩
    · rw [minMaxNum_value, Bool.bne_false]; rfl
    · rw [minMaxNum_value, Bool.bne_true]; rfl
  case convert => exact h.run (State.oweX_g hd)
  case classes => exact .of_alu1 (exec_fclass o) fun _ => rfl

end Sys2Proof.Machine
end

section
/-! PROOFS. Control flow (04_scalar R68, R69; 03_encoding R40): where branches, jumps, calls and LOOP lead. -/

namespace Sys2Proof.Machine

open Claims

variable {s : State} {t : Thread} {srcs : List Src}

/-! ## The state as a branch leaves it -/

/-- A thread whose sources stay as they are stands at the next instruction already: to be led there is to have only f's change. -/
theorem leadsTo_npc (hs : s.taken t srcs = s.taken t []) {f : Thread → Thread} (hf : ∀ x : Thread, { f x with pc := x.pc } = f x) :
    leadsTo s t srcs (s.npc t) f = s.after t srcs f := by
  simp only [leadsTo, State.after, hs, State.taken_nil, State.modT_modT]
  exact congrArg (s.modT s.cur) (funext fun x => hf { x with pc := s.npc t })

/-- To be led to the next instruction without another change is to have taken the sources. -/
theorem leadsTo_npc_id (hs : s.taken t srcs = s.taken t []) : leadsTo s t srcs (s.npc t) id = s.taken t srcs := by
  rw [leadsTo_npc hs fun _ => rfl, State.after, hs, State.taken_nil, State.modT_modT]; rfl

/-- A target set after another change of the thread (CALL, CALLR, LOOP). -/
theorem goto_onT (f : Thread → Thread) (pc : Addr) :
    ((s.taken t srcs).onT (s.cx t) f).goto (s.cx t) pc = leadsTo s t srcs pc f := State.modT_modT ..

/-! ## Branches and LOOP -/

/-- A predicate is read and stays as it is. -/
theorem State.taken_p (n idx : Nat) (tie : Bool) : s.taken t [.p n idx tie] = s.taken t [] := rfl

/-- A branch is taken where its predicate has the value it wants, and leads to the next instruction where it has not. -/
theorem branchIf_next {o : OpI} {want : Bool} (h : Executes s t false [.p o.d.toNat 2 s.q.td] []) :
    s.branchIf o want =
      .next (leadsTo s t [.p o.d.toNat 2 s.q.td] (if t.pv o.d.toNat == want then ahead t o else s.npc t) id) := by
  refine h.run (congrArg Except.ok ?_)
  rw [State.cx_t]
  split
  · rfl
  · exact (leadsTo_npc_id (State.taken_p ..)).symm

/-- LOOP counts gd down and branches unless it has come to 0 (R69). -/
theorem execLoop_next {o : OpI} (h : Executes s t false [.x o.d.toNat 2 s.q.td] [.x o.d.toNat]) (hd : o.d.toNat < 24) :
    execLoop o s = .next (leadsTo s t [.x o.d.toNat 2 s.q.td] (if t.gv o.d.toNat = 1 then s.npc t else ahead t o)
      (fun x => x.setG o.d.toNat (t.gv o.d.toNat - 1))) := by
  have hzero : t.gv o.d.toNat - 1 = 0 ↔ t.gv o.d.toNat = 1 := BitVec.sub_eq_iff_eq_add
  refine h.run ?_
  simp only [State.cx_get_g hd, State.putX_g hd, hzero]
  refine congrArg Except.ok ?_
  split
  · exact (leadsTo_npc (State.taken_g hd) fun _ => rfl).symm
  · exact goto_onT ..

end Sys2Proof.Machine

namespace Sys2Proof.Machine

open Claims

/-- Settles O7: a jump sets the pc, a call the link register before it (`goto_onT`); a branch is taken by its predicate
(`branchIf_next`) and LOOP by its count (`execLoop_next`). -/
theorem branchesJumpsAndCallsSetThePc : Obligations.BranchesJumpsAndCallsSetThePc := by
  unfold Obligations.BranchesJumpsAndCallsSetThePc
  refine ⟨fun o s t h => ?br, fun o s t h => ⟨?brp, ?brn⟩, fun o s t h => ?jmp, fun o s t h => ?call, fun o s t h => ?callr,
    fun s t h => ?ret, fun s t h => ?nop, fun o s t h hd => ?loop⟩
  case br => exact h.run rfl
  case brp =>
    refine (branchIf_next (want := true) h).trans ?_
    cases t.pv o.d.toNat <;> rfl
  case brn =>
    refine (branchIf_next (want := false) h).trans ?_
    cases t.pv o.d.toNat <;> rfl
  case jmp => exact h.run rfl
  case call => exact h.run (congrArg Except.ok (goto_onT ..))
  case callr => exact h.run (congrArg Except.ok (goto_onT ..))
  case ret => exact h.run rfl
  case nop => exact h.run (congrArg Except.ok (leadsTo_npc_id rfl).symm)
  case loop => exact execLoop_next h hd

end Sys2Proof.Machine
end
